-- ==== Sys2Proof/Word.lean ====
section
/-!
DEFINITION. The words of the station ports (R179): one, two and four byte fields.
-/

namespace Sys2Proof

/-- A byte at a station port. -/
abbrev Byte := BitVec 8

/-- A two-byte field, carried most significant byte first (R179). -/
abbrev Half := BitVec 16

/-- A four-byte field, carried most significant byte first (R179). -/
abbrev Word := BitVec 32

end Sys2Proof
end

