-- ==== Sys2Proof/Config.lean ====
section
/-!
DEFINITION. What the part fixes: capacities (Table 5-1 of the Introduction), identity codes (Table 10-3) and the
defaults of the definition records (Tables 1-4, 1-6, 1-7, 1-11, 1-12, 1-13).
The one opaque constant is `freeOrder`: the only thing the spec leaves free while the part runs is the order of some
events (assumption 4).
-/

namespace Sys2Proof.Config

/-- The n-th free choice: where the spec leaves an order open, the alternative taken is this number modulo how many there
are. Nothing constrains it (assumption 4). -/
opaque freeOrder : Nat → Nat

/-- Capacities of Table 5-1. -/
def inputLines : Nat := 64
def outputLines : Nat := 32
def lampRows : Nat := 12
def lampColumns : Nat := 24
def lamps : Nat := 288
def planSlots : Nat := 16
def planValves : Nat := 16
def outageRecords : Nat := 32
def outageMembers : Nat := 64
def callRecords : Nat := 128
def alarmEntries : Nat := 96
def noticeQueue : Nat := 32
def trialQueue : Nat := 8
def historyRing : Nat := 8
def actuatedValves : Nat := 16

/-- The most notices one READ_NOTICES returns (R175). -/
def noticesPerRead : Nat := 8

/-- The longest body of a request or response (R180). -/
def bodyBytes : Nat := 240

/-- The most trials of one execute check (R68). -/
def checkAttempts : Nat := 3

/-- The consequence list holds the first 64 sections (R51). -/
def consequenceList : Nat := 64

/-- The lamp test lasts 500 scan ticks (R166). -/
def lampTestTicks : Nat := 500

/-- The flash phase completes its cycle every 100 ticks (R164). -/
def flashCycle : Nat := 100

/-- Every tenth scan tick is a step tick (R162). -/
def stepTicks : Nat := 10

/-- Repeat counts saturate at 255 (Introduction 5.3). -/
def maxRepeat : Nat := 255

/-- The greatest engineering value (Introduction 5.3). -/
def maxPressure : Nat := 65535

/-- READ_IDENTITY (Table 10-3). -/
def familyCode : Nat := 1
def partCode : Nat := 24
def designMajor : Nat := 1
def designMinor : Nat := 0

/-- Default travel timeout of an actuated valve (Table 1-4). -/
def travelTimeout : Nat := 120

/-- Defaults of a POINT record (Table 1-6). -/
def persistence : Nat := 3
def stalenessPeriod : Nat := 300
def fallWindow : Nat := 4
def fallThreshold : Nat := 40

/-- Default debounce count (Table 1-7). -/
def debounceCount : Nat := 3

/-- Defaults of the PARAMETERS record (Table 1-11). -/
def attend1 : Nat := 1800
def attend2 : Nat := 7200
def attend3 : Nat := 86400
def safe1 : Nat := 3600
def safe2 : Nat := 14400
def safe3 : Nat := 86400
def realarmInterval : Nat := 900
def clusterThreshold : Nat := 3
def clusterGrade : Nat := 1
def noGasThreshold : Nat := 4
def takeOverGrace : Nat := 120
def rechargeHold : Nat := 300
def hornThreshold : Nat := 2

/-- Default on steps, off steps and extension flags of a priority's cadence (Table 1-12). -/
def cadence : Nat → Nat × Nat × Nat
  | 1 => (2, 2, 0)
  | 2 => (4, 4, 0)
  | 3 => (6, 10, 1)
  | _ => (10, 20, 0)

/-- Default priorities of the 17 condition kinds, in the order of their codes (Table 1-13, Table 8-1). -/
def priorities : List Nat := [3, 2, 3, 2, 2, 4, 1, 2, 1, 1, 1, 2, 2, 2, 1, 1, 3]

end Sys2Proof.Config
end

