-- ==== Sys2Proof/Syntax.lean ====
section
/-!
DEFINITION. The commands the NS24 takes: one constructor per row of spec/opcode_table.json.
A request carries its port, its tag and the fields of its body in the widths of Table 9-6; LOAD_RECORDS, TRIAL and
SAMPLE_BATCH carry their body bytes, because their owners check the body's form (R170).
-/

namespace Sys2Proof

/-- The four station ports (Table 5-1). -/
inductive PortId where
  | p0 | p1 | p2 | p3
  deriving DecidableEq, Repr

/-- The rows of the table of operations and events. -/
inductive Instr where
  /-- POWER_ON_RESET (R190). -/
  | powerOnReset
  /-- LINE_RESET (R190): nRESET has been low for at least 10 µs. -/
  | lineReset
  /-- TRANSFER (R168): the bits sampled on data-in between the edges of chip-select, first bit first. -/
  | transfer (port : PortId) (bits : List Bool)
  /-- NULL (R171). -/
  | null (port : PortId) (tag : Byte)
  /-- READ_IDENTITY (R193). -/
  | readIdentity (port : PortId) (tag : Byte)
  /-- READ_STATUS (R193). -/
  | readStatus (port : PortId) (tag : Byte)
  /-- BEGIN_CONFIG (R185). -/
  | beginConfig (port : PortId) (tag : Byte)
  /-- LOAD_RECORDS (R186): the body, from the count byte on. -/
  | loadRecords (port : PortId) (tag : Byte) (body : List Byte)
  /-- COMMIT_CONFIG (R188). -/
  | commitConfig (port : PortId) (tag : Byte) (expected : Half)
  /-- ABANDON_CONFIG (R185). -/
  | abandonConfig (port : PortId) (tag : Byte)
  /-- SET_CLOCK (R192). -/
  | setClock (port : PortId) (tag : Byte) (seconds : Word)
  /-- READ_NOTICES (R175). -/
  | readNotices (port : PortId) (tag : Byte)
  /-- READ_TRIAL (R56). -/
  | readTrial (port : PortId) (tag : Byte)
  /-- READ_PORTS (R178). -/
  | readPorts (port : PortId) (tag : Byte)
  /-- READ_DEFINITION (R178). -/
  | readDefinition (port : PortId) (tag : Byte) (kind : Byte) (key : Half)
  /-- READ_SECTION (R177). -/
  | readSection (port : PortId) (tag : Byte) (sect : Half)
  /-- READ_VALVE (R177). -/
  | readValve (port : PortId) (tag : Byte) (valve : Half)
  /-- READ_SOURCE (R177). -/
  | readSource (port : PortId) (tag : Byte) (source : Byte)
  /-- READ_POINT (R111). -/
  | readPoint (port : PortId) (tag : Byte) (point : Byte)
  /-- READ_LINES (R177). -/
  | readLines (port : PortId) (tag : Byte)
  /-- READ_LAMPS (R164). -/
  | readLamps (port : PortId) (tag : Byte)
  /-- READ_PLAN (R57). -/
  | readPlan (port : PortId) (tag : Byte) (plan : Byte)
  /-- READ_OUTAGE (R86): outage number and first member position. -/
  | readOutage (port : PortId) (tag : Byte) (outage : Half) (first : Byte)
  /-- READ_CALL (R129). -/
  | readCall (port : PortId) (tag : Byte) (call : Half)
  /-- READ_ALARMS (R151): first position in list order. -/
  | readAlarms (port : PortId) (tag : Byte) (first : Byte)
  /-- READ_WITHHELD (R157): first rank in listing order. -/
  | readWithheld (port : PortId) (tag : Byte) (first : Half)
  /-- CONFIRM_CLOSED (R26). -/
  | confirmClosed (port : PortId) (tag : Byte) (valve : Half)
  /-- CONFIRM_OPEN (R26). -/
  | confirmOpen (port : PortId) (tag : Byte) (valve : Half)
  /-- REPORT_INOPERABLE (R27). -/
  | reportInoperable (port : PortId) (tag : Byte) (valve : Half)
  /-- VERIFY_POSITION (R28). -/
  | verifyPosition (port : PortId) (tag : Byte) (valve : Half) (position : Byte)
  /-- PLAN_CREATE (R60): reason call, 0 when absent. -/
  | planCreate (port : PortId) (tag : Byte) (reasonCall : Half)
  /-- PLAN_ADD_VALVE (R61). -/
  | planAddValve (port : PortId) (tag : Byte) (plan : Byte) (valve : Half)
  /-- PLAN_REMOVE_VALVE (R62). -/
  | planRemoveValve (port : PortId) (tag : Byte) (plan : Byte) (valve : Half)
  /-- PLAN_ASSESS (R63). -/
  | planAssess (port : PortId) (tag : Byte) (plan : Byte)
  /-- PLAN_DECLARE_OUTAGE (R65). -/
  | planDeclareOutage (port : PortId) (tag : Byte) (plan : Byte) (accepted : Byte)
  /-- PLAN_EXECUTE (R67). -/
  | planExecute (port : PortId) (tag : Byte) (plan : Byte)
  /-- PLAN_ABORT (R74). -/
  | planAbort (port : PortId) (tag : Byte) (plan : Byte)
  /-- PLAN_RETRY (R76). -/
  | planRetry (port : PortId) (tag : Byte) (plan : Byte)
  /-- PLAN_RESTORE (R77). -/
  | planRestore (port : PortId) (tag : Byte) (plan : Byte)
  /-- PLAN_RELEASE (R79). -/
  | planRelease (port : PortId) (tag : Byte) (plan : Byte)
  /-- PLAN_TAKE_OVER (R81). -/
  | planTakeOver (port : PortId) (tag : Byte) (plan : Byte)
  /-- SOURCE_OUT (R40). -/
  | sourceOut (port : PortId) (tag : Byte) (source : Byte)
  /-- SOURCE_IN (R40). -/
  | sourceIn (port : PortId) (tag : Byte) (source : Byte)
  /-- SET_LIMITS (R128). -/
  | setLimits (port : PortId) (tag : Byte) (point : Byte) (ll l h hh deadband : Half) (persistence : Byte)
  /-- TRIAL (R55): the body, a list of two-byte valve indices. -/
  | trial (port : PortId) (tag : Byte) (body : List Byte)
  /-- OUTAGE_CONFIRM_SECTION (R101). -/
  | outageConfirmSection (port : PortId) (tag : Byte) (outage : Half) (sect : Half)
  /-- OUTAGE_RELIT (R103). -/
  | outageRelit (port : PortId) (tag : Byte) (outage : Half) (n : Word)
  /-- OUTAGE_NO_ACCESS (R103). -/
  | outageNoAccess (port : PortId) (tag : Byte) (outage : Half) (n : Word)
  /-- CALL_NEW (R131): `present` is the presence byte of the receipt time. -/
  | callNew (port : PortId) (tag : Byte) (kind : Byte) (sect : Half) (grade : Byte) (location : Word) (present : Byte)
      (receipt : Word)
  /-- CALL_ASSIGN (R133). -/
  | callAssign (port : PortId) (tag : Byte) (call : Half) (crew : Word)
  /-- CALL_ARRIVED (R134). -/
  | callArrived (port : PortId) (tag : Byte) (call : Half)
  /-- CALL_MADE_SAFE (R135). -/
  | callMadeSafe (port : PortId) (tag : Byte) (call : Half)
  /-- CALL_CLOSE (R136). -/
  | callClose (port : PortId) (tag : Byte) (call : Half)
  /-- CALL_CANCEL (R136). -/
  | callCancel (port : PortId) (tag : Byte) (call : Half)
  /-- CALL_REGRADE (R141). -/
  | callRegrade (port : PortId) (tag : Byte) (call : Half) (grade : Byte)
  /-- SAMPLE_BATCH (R112): the body, 1 to 16 entries of four bytes. -/
  | sampleBatch (port : PortId) (tag : Byte) (body : List Byte)
  /-- ALARM_ACK (R156). -/
  | alarmAck (port : PortId) (tag : Byte) (alarm : Half)
  /-- HORN_SILENCE (R161). -/
  | hornSilence (port : PortId) (tag : Byte)
  /-- LAMP_TEST (R166). -/
  | lampTest (port : PortId) (tag : Byte)
  /-- SCAN_TICK (R191): the levels of the pins FI0 to FI63 at the tick, bit n set for FIn HIGH. -/
  | scanTick (pins : BitVec 64)
  /-- ONE_SECOND_TICK (R191). -/
  | oneSecondTick
  /-- LINE_CHANGE (R16). -/
  | lineChange (line : Nat)
  /-- TRAVEL_TIMER_EXPIRY (R31). -/
  | travelTimerExpiry (valve : Nat)
  /-- LIVE_WALK_COMPLETES (R47). -/
  | liveWalkCompletes
  /-- TRIAL_COMPLETES (R52). -/
  | trialCompletes
  /-- RECHARGE_HOLD_EXPIRY (R99): outage number and member section. -/
  | rechargeHoldExpiry (outage : Nat) (sect : Nat)
  /-- STALENESS_EXPIRY (R117). -/
  | stalenessExpiry (point : Nat)
  /-- DEADLINE_EXPIRY (R140): call number. -/
  | deadlineExpiry (call : Nat)
  /-- REALARM_EXPIRY (R140): call number. -/
  | realarmExpiry (call : Nat)
  /-- STEP_TICK (R162). -/
  | stepTick
  /-- CADENCE_PART_END (R162). -/
  | cadencePartEnd
  /-- MIMIC_ROW_SCAN (R164). -/
  | mimicRowScan
  /-- LAMP_TEST_END (R166). -/
  | lampTestEnd
  /-- LEAVE_RESET (R190): nRESET rises. -/
  | leaveReset
  deriving DecidableEq, Repr

end Sys2Proof
end

