-- ==== Sys2Proof/WellFormed.lean ====
section
/-!
DEFINITION. Well-formed commands: an event names an object within its range of Table 5-1, and a body fits in a request
frame (R180). The fields of a request are as wide as Table 9-6 makes them, so any value of theirs is a command; what is
out of range there is answered by the part, not refused here.
-/

namespace Sys2Proof

/-- The body fits in a request frame (R180). -/
def fitsFrame (body : List Byte) : Bool := body.length ≤ Config.bodyBytes

/-- The ranges of Table 5-1 for the objects that the part's own events name. -/
def Instr.wf : Instr → Bool
  | .powerOnReset => true
  | .lineReset => true
  | .transfer _ _ => true
  | .null _ _ => true
  | .readIdentity _ _ => true
  | .readStatus _ _ => true
  | .beginConfig _ _ => true
  | .loadRecords _ _ body => fitsFrame body
  | .commitConfig _ _ _ => true
  | .abandonConfig _ _ => true
  | .setClock _ _ _ => true
  | .readNotices _ _ => true
  | .readTrial _ _ => true
  | .readPorts _ _ => true
  | .readDefinition _ _ _ _ => true
  | .readSection _ _ _ => true
  | .readValve _ _ _ => true
  | .readSource _ _ _ => true
  | .readPoint _ _ _ => true
  | .readLines _ _ => true
  | .readLamps _ _ => true
  | .readPlan _ _ _ => true
  | .readOutage _ _ _ _ => true
  | .readCall _ _ _ => true
  | .readAlarms _ _ _ => true
  | .readWithheld _ _ _ => true
  | .confirmClosed _ _ _ => true
  | .confirmOpen _ _ _ => true
  | .reportInoperable _ _ _ => true
  | .verifyPosition _ _ _ _ => true
  | .planCreate _ _ _ => true
  | .planAddValve _ _ _ _ => true
  | .planRemoveValve _ _ _ _ => true
  | .planAssess _ _ _ => true
  | .planDeclareOutage _ _ _ _ => true
  | .planExecute _ _ _ => true
  | .planAbort _ _ _ => true
  | .planRetry _ _ _ => true
  | .planRestore _ _ _ => true
  | .planRelease _ _ _ => true
  | .planTakeOver _ _ _ => true
  | .sourceOut _ _ _ => true
  | .sourceIn _ _ _ => true
  | .setLimits _ _ _ _ _ _ _ _ _ => true
  | .trial _ _ body => fitsFrame body
  | .outageConfirmSection _ _ _ _ => true
  | .outageRelit _ _ _ _ => true
  | .outageNoAccess _ _ _ _ => true
  | .callNew _ _ _ _ _ _ _ _ => true
  | .callAssign _ _ _ _ => true
  | .callArrived _ _ _ => true
  | .callMadeSafe _ _ _ => true
  | .callClose _ _ _ => true
  | .callCancel _ _ _ => true
  | .callRegrade _ _ _ _ => true
  | .sampleBatch _ _ body => fitsFrame body
  | .alarmAck _ _ _ => true
  | .hornSilence _ _ => true
  | .lampTest _ _ => true
  | .scanTick _ => true
  | .oneSecondTick => true
  | .lineChange line => line < Config.inputLines
  | .travelTimerExpiry valve => valve < 1024
  | .liveWalkCompletes => true
  | .trialCompletes => true
  | .rechargeHoldExpiry outage sect => 1 ≤ outage && outage ≤ 65535 && sect < 512
  | .stalenessExpiry point => point < 256
  | .deadlineExpiry call => 1 ≤ call && call ≤ 65535
  | .realarmExpiry call => 1 ≤ call && call ≤ 65535
  | .stepTick => true
  | .cadencePartEnd => true
  | .mimicRowScan => true
  | .lampTestEnd => true
  | .leaveReset => true

end Sys2Proof
end

