-- ==== Sys2Proof/Decode.lean ====
section
/-!
DEFINITION. From the bits of a transfer to a request, and back: whole bytes (R168), the CRC-16 and the framing (R169),
the request codes and bodies of Table 9-6 (R180), and an encoder of request frames.
The rows of spec/opcode_table.json give no bits, so decodeTableWord spells no command.
-/

namespace Sys2Proof

/-- No row of the table gives bits: no word spells a command. -/
def decodeTableWord (_nbits _w : Nat) : Option Instr := none

/-! ## Bytes -/

/-- A two-byte field from its bytes, most significant first (R179). -/
def joinHalf (a b : Byte) : Half := a ++ b

/-- A four-byte field from its bytes, most significant first (R179). -/
def joinWord (a b c d : Byte) : Word := joinHalf a b ++ joinHalf c d

/-- The bytes of a two-byte field, most significant first (R179). -/
def halfBytes (x : Half) : List Byte := [x.extractLsb' 8 8, x.extractLsb' 0 8]

/-- The bytes of a four-byte field, most significant first (R179). -/
def wordBytes (x : Word) : List Byte := [x.extractLsb' 24 8, x.extractLsb' 16 8, x.extractLsb' 8 8, x.extractLsb' 0 8]

/-- Eight bits make a byte, most significant bit first (R168). -/
def joinBits (b7 b6 b5 b4 b3 b2 b1 b0 : Bool) : Byte :=
  BitVec.ofNat 8 (128 * b7.toNat + 64 * b6.toNat + 32 * b5.toNat + 16 * b4.toNat + 8 * b3.toNat + 4 * b2.toNat
    + 2 * b1.toNat + b0.toNat)

/-- The bits of a byte, most significant first (R168). -/
def byteBits (x : Byte) : List Bool :=
  [x.getLsbD 7, x.getLsbD 6, x.getLsbD 5, x.getLsbD 4, x.getLsbD 3, x.getLsbD 2, x.getLsbD 1, x.getLsbD 0]

/-- The whole bytes received; an incomplete final byte is discarded (R168). -/
def wholeBytes : List Bool → List Byte
  | b7 :: b6 :: b5 :: b4 :: b3 :: b2 :: b1 :: b0 :: rest => joinBits b7 b6 b5 b4 b3 b2 b1 b0 :: wholeBytes rest
  | _ => []

/-! ## CRC-16 (R169) -/

/-- One bit of the register: generator x^16 + x^12 + x^5 + 1, no reflection. -/
def crcShift (r : Half) : Half := if r.getLsbD 15 then (r <<< 1) ^^^ 0x1021 else r <<< 1

/-- Feed `n` bits. -/
def crcShifts : Nat → Half → Half
  | 0, r => r
  | n + 1, r => crcShifts n (crcShift r)

/-- Feed one byte, most significant bit first. -/
def crcByte (r : Half) (b : Byte) : Half := crcShifts 8 (r ^^^ (b ++ (0 : Byte)))

/-- Carry the register on over a list of bytes. -/
def crcFrom (r : Half) (bytes : List Byte) : Half := bytes.foldl crcByte r

/-- The CRC-16 of the manual: preset to FFFF. -/
def crc16 (bytes : List Byte) : Half := crcFrom 0xFFFF bytes

/-! ## Framing (R169, Table 9-3) -/

/-- What the bytes of a transfer are. -/
inductive Framed where
  /-- No whole byte: the transfer is ignored (R168). -/
  | nothing
  /-- Malformed: too few bytes, or a body length over 240. -/
  | frameError (tag : Byte)
  /-- The CRC does not agree. -/
  | checkError (tag : Byte)
  /-- A request: code, tag and body. Bytes after its CRC are fill. -/
  | request (code tag : Byte) (body : List Byte)
  deriving DecidableEq, Repr

/-- Frame the bytes received (R169). An error echoes the second byte received, or 0 when fewer than two were. -/
def frameBytes : List Byte → Framed
  | [] => .nothing
  | [_] => .frameError 0
  | code :: tag :: rest =>
    match rest with
    | len :: more =>
      let n := len.toNat
      if Config.bodyBytes < n ∨ more.length < n + 2 then .frameError tag
      else if (more.drop n).take 2 = halfBytes (crc16 (code :: tag :: len :: more.take n)) then
        .request code tag (more.take n)
      else .checkError tag
    | [] => .frameError tag

/-! ## Requests (Table 9-6, Table 9-1) -/

/-- The classes of requests that Table 9-1 and check 2 of R170 tell apart. -/
inductive ReqClass where
  /-- NULL. -/
  | null
  /-- READ_IDENTITY and READ_STATUS, reads that are taken in every device state. -/
  | identity
  /-- BEGIN_CONFIG. -/
  | beginConfig
  /-- LOAD_RECORDS, COMMIT_CONFIG and ABANDON_CONFIG, which need authority before RUNNING. -/
  | config
  /-- The other reads, READ_TRIAL and READ_PORTS among them. -/
  | read
  /-- READ_NOTICES. -/
  | readNotices
  /-- Plan requests, the three crew requests among them. -/
  | plan
  /-- What only SWITCHING sends: VERIFY_POSITION, OUTAGE_CONFIRM_SECTION, SOURCE_OUT, SOURCE_IN, SET_LIMITS, SET_CLOCK,
  LAMP_TEST. -/
  | switching
  /-- OUTAGE_RELIT and OUTAGE_NO_ACCESS. -/
  | relight
  /-- ALARM_ACK and HORN_SILENCE. -/
  | alarm
  /-- TRIAL. -/
  | trial
  /-- Call requests. -/
  | call
  /-- SAMPLE_BATCH. -/
  | sample
  deriving DecidableEq, Repr

/-- A row of Table 9-6: code, class, and the command that a body of the row's form spells. -/
structure ReqRow where
  code : Nat
  cls : ReqClass
  command : PortId → Byte → List Byte → Option Instr

/-- Body forms of Table 9-6: no body. -/
def bodyNone (f : PortId → Byte → Instr) (p : PortId) (t : Byte) : List Byte → Option Instr
  | [] => some (f p t)
  | _ => none

/-- One byte. -/
def body1 (f : PortId → Byte → Byte → Instr) (p : PortId) (t : Byte) : List Byte → Option Instr
  | [a] => some (f p t a)
  | _ => none

/-- Two bytes: one field. -/
def body2 (f : PortId → Byte → Half → Instr) (p : PortId) (t : Byte) : List Byte → Option Instr
  | [a, b] => some (f p t (joinHalf a b))
  | _ => none

/-- Two bytes: two fields. -/
def body11 (f : PortId → Byte → Byte → Byte → Instr) (p : PortId) (t : Byte) : List Byte → Option Instr
  | [a, b] => some (f p t a b)
  | _ => none

/-- One byte, then two. -/
def body12 (f : PortId → Byte → Byte → Half → Instr) (p : PortId) (t : Byte) : List Byte → Option Instr
  | [a, b, c] => some (f p t a (joinHalf b c))
  | _ => none

/-- Two bytes, then one. -/
def body21 (f : PortId → Byte → Half → Byte → Instr) (p : PortId) (t : Byte) : List Byte → Option Instr
  | [a, b, c] => some (f p t (joinHalf a b) c)
  | _ => none

/-- Two bytes, then two. -/
def body22 (f : PortId → Byte → Half → Half → Instr) (p : PortId) (t : Byte) : List Byte → Option Instr
  | [a, b, c, d] => some (f p t (joinHalf a b) (joinHalf c d))
  | _ => none

/-- Four bytes. -/
def body4 (f : PortId → Byte → Word → Instr) (p : PortId) (t : Byte) : List Byte → Option Instr
  | [a, b, c, d] => some (f p t (joinWord a b c d))
  | _ => none

/-- Two bytes, then four. -/
def body24 (f : PortId → Byte → Half → Word → Instr) (p : PortId) (t : Byte) : List Byte → Option Instr
  | [a, b, c, d, e, g] => some (f p t (joinHalf a b) (joinWord c d e g))
  | _ => none

/-- SET_LIMITS: point, LL, L, H, HH, deadband, P. -/
def bodyLimits (p : PortId) (t : Byte) : List Byte → Option Instr
  | [n, a, b, c, d, e, f, g, h, i, j, k] =>
    some (.setLimits p t n (joinHalf a b) (joinHalf c d) (joinHalf e f) (joinHalf g h) (joinHalf i j) k)
  | _ => none

/-- CALL_NEW: kind, section, grade, location tag, receipt present, receipt time. -/
def bodyCallNew (p : PortId) (t : Byte) : List Byte → Option Instr
  | [k, a, b, g, c, d, e, f, present, h, i, j, l] =>
    some (.callNew p t k (joinHalf a b) g (joinWord c d e f) present (joinWord h i j l))
  | _ => none

/-- The requests, in the order of their codes (Table 9-6). -/
def requestTable : List ReqRow :=
  [⟨0x00, .null, bodyNone .null⟩, ⟨0x01, .identity, bodyNone .readIdentity⟩, ⟨0x02, .identity, bodyNone .readStatus⟩,
   ⟨0x03, .beginConfig, bodyNone .beginConfig⟩, ⟨0x04, .config, fun p t b => some (.loadRecords p t b)⟩,
   ⟨0x05, .config, body2 .commitConfig⟩, ⟨0x06, .config, bodyNone .abandonConfig⟩,
   ⟨0x07, .switching, body4 .setClock⟩, ⟨0x08, .readNotices, bodyNone .readNotices⟩,
   ⟨0x09, .read, bodyNone .readTrial⟩, ⟨0x0A, .read, bodyNone .readPorts⟩]
  ++ [⟨0x10, .read, body12 .readDefinition⟩, ⟨0x11, .read, body2 .readSection⟩, ⟨0x12, .read, body2 .readValve⟩,
   ⟨0x13, .read, body1 .readSource⟩, ⟨0x14, .read, body1 .readPoint⟩, ⟨0x15, .read, bodyNone .readLines⟩,
   ⟨0x16, .read, bodyNone .readLamps⟩, ⟨0x17, .read, body1 .readPlan⟩, ⟨0x18, .read, body21 .readOutage⟩,
   ⟨0x19, .read, body2 .readCall⟩, ⟨0x1A, .read, body1 .readAlarms⟩, ⟨0x1B, .read, body2 .readWithheld⟩]
  ++ [⟨0x20, .plan, body2 .confirmClosed⟩, ⟨0x21, .plan, body2 .confirmOpen⟩, ⟨0x22, .plan, body2 .reportInoperable⟩,
   ⟨0x23, .switching, body21 .verifyPosition⟩, ⟨0x28, .plan, body2 .planCreate⟩, ⟨0x29, .plan, body12 .planAddValve⟩,
   ⟨0x2A, .plan, body12 .planRemoveValve⟩, ⟨0x2B, .plan, body1 .planAssess⟩, ⟨0x2C, .plan, body1 .planExecute⟩,
   ⟨0x2D, .plan, body1 .planAbort⟩, ⟨0x2E, .plan, body1 .planRetry⟩, ⟨0x2F, .plan, body1 .planRestore⟩,
   ⟨0x30, .plan, body1 .planRelease⟩, ⟨0x31, .plan, body1 .planTakeOver⟩, ⟨0x32, .plan, body11 .planDeclareOutage⟩]
  ++ [⟨0x38, .switching, body1 .sourceOut⟩, ⟨0x39, .switching, body1 .sourceIn⟩, ⟨0x3A, .switching, bodyLimits⟩,
   ⟨0x3B, .trial, fun p t b => some (.trial p t b)⟩, ⟨0x40, .switching, body22 .outageConfirmSection⟩,
   ⟨0x41, .relight, body24 .outageRelit⟩, ⟨0x42, .relight, body24 .outageNoAccess⟩, ⟨0x48, .call, bodyCallNew⟩,
   ⟨0x49, .call, body24 .callAssign⟩, ⟨0x4A, .call, body2 .callArrived⟩, ⟨0x4B, .call, body2 .callMadeSafe⟩,
   ⟨0x4C, .call, body2 .callClose⟩, ⟨0x4D, .call, body2 .callCancel⟩, ⟨0x4E, .call, body21 .callRegrade⟩,
   ⟨0x50, .sample, fun p t b => some (.sampleBatch p t b)⟩, ⟨0x58, .alarm, body2 .alarmAck⟩,
   ⟨0x59, .alarm, bodyNone .hornSilence⟩, ⟨0x5A, .switching, bodyNone .lampTest⟩]

/-- The row of a code, if the code is one of Table 9-6 (check 1 of R170). -/
def requestRow (code : Byte) : Option ReqRow := requestTable.find? (fun r => r.code == code.toNat)

/-! ## The encoder -/

/-- Port, tag, code and body of a request; `none` for the rows that are no request of Table 9-6. -/
def encodeRequest : Instr → Option (PortId × Byte × Byte × List Byte)
  | .null p t => some (p, t, 0x00, [])
  | .readIdentity p t => some (p, t, 0x01, [])
  | .readStatus p t => some (p, t, 0x02, [])
  | .beginConfig p t => some (p, t, 0x03, [])
  | .loadRecords p t body => some (p, t, 0x04, body)
  | .commitConfig p t crc => some (p, t, 0x05, halfBytes crc)
  | .abandonConfig p t => some (p, t, 0x06, [])
  | .setClock p t seconds => some (p, t, 0x07, wordBytes seconds)
  | .readNotices p t => some (p, t, 0x08, [])
  | .readTrial p t => some (p, t, 0x09, [])
  | .readPorts p t => some (p, t, 0x0A, [])
  | .readDefinition p t kind key => some (p, t, 0x10, kind :: halfBytes key)
  | .readSection p t n => some (p, t, 0x11, halfBytes n)
  | .readValve p t n => some (p, t, 0x12, halfBytes n)
  | .readSource p t n => some (p, t, 0x13, [n])
  | .readPoint p t n => some (p, t, 0x14, [n])
  | .readLines p t => some (p, t, 0x15, [])
  | .readLamps p t => some (p, t, 0x16, [])
  | .readPlan p t n => some (p, t, 0x17, [n])
  | .readOutage p t n first => some (p, t, 0x18, halfBytes n ++ [first])
  | .readCall p t n => some (p, t, 0x19, halfBytes n)
  | .readAlarms p t first => some (p, t, 0x1A, [first])
  | .readWithheld p t first => some (p, t, 0x1B, halfBytes first)
  | .confirmClosed p t v => some (p, t, 0x20, halfBytes v)
  | .confirmOpen p t v => some (p, t, 0x21, halfBytes v)
  | .reportInoperable p t v => some (p, t, 0x22, halfBytes v)
  | .verifyPosition p t v x => some (p, t, 0x23, halfBytes v ++ [x])
  | .planCreate p t call => some (p, t, 0x28, halfBytes call)
  | .planAddValve p t n v => some (p, t, 0x29, n :: halfBytes v)
  | .planRemoveValve p t n v => some (p, t, 0x2A, n :: halfBytes v)
  | .planAssess p t n => some (p, t, 0x2B, [n])
  | .planExecute p t n => some (p, t, 0x2C, [n])
  | .planAbort p t n => some (p, t, 0x2D, [n])
  | .planRetry p t n => some (p, t, 0x2E, [n])
  | .planRestore p t n => some (p, t, 0x2F, [n])
  | .planRelease p t n => some (p, t, 0x30, [n])
  | .planTakeOver p t n => some (p, t, 0x31, [n])
  | .planDeclareOutage p t n accepted => some (p, t, 0x32, [n, accepted])
  | .sourceOut p t n => some (p, t, 0x38, [n])
  | .sourceIn p t n => some (p, t, 0x39, [n])
  | .setLimits p t n ll l h hh d k =>
    some (p, t, 0x3A, n :: halfBytes ll ++ halfBytes l ++ halfBytes h ++ halfBytes hh ++ halfBytes d ++ [k])
  | .trial p t body => some (p, t, 0x3B, body)
  | .outageConfirmSection p t n s => some (p, t, 0x40, halfBytes n ++ halfBytes s)
  | .outageRelit p t n k => some (p, t, 0x41, halfBytes n ++ wordBytes k)
  | .outageNoAccess p t n k => some (p, t, 0x42, halfBytes n ++ wordBytes k)
  | .callNew p t kind s g loc present time =>
    some (p, t, 0x48, kind :: halfBytes s ++ g :: wordBytes loc ++ present :: wordBytes time)
  | .callAssign p t n crew => some (p, t, 0x49, halfBytes n ++ wordBytes crew)
  | .callArrived p t n => some (p, t, 0x4A, halfBytes n)
  | .callMadeSafe p t n => some (p, t, 0x4B, halfBytes n)
  | .callClose p t n => some (p, t, 0x4C, halfBytes n)
  | .callCancel p t n => some (p, t, 0x4D, halfBytes n)
  | .callRegrade p t n g => some (p, t, 0x4E, halfBytes n ++ [g])
  | .sampleBatch p t body => some (p, t, 0x50, body)
  | .alarmAck p t n => some (p, t, 0x58, halfBytes n)
  | .hornSilence p t => some (p, t, 0x59, [])
  | .lampTest p t => some (p, t, 0x5A, [])
  | .powerOnReset => none
  | .lineReset => none
  | .transfer _ _ => none
  | .scanTick _ => none
  | .oneSecondTick => none
  | .lineChange _ => none
  | .travelTimerExpiry _ => none
  | .liveWalkCompletes => none
  | .trialCompletes => none
  | .rechargeHoldExpiry _ _ => none
  | .stalenessExpiry _ => none
  | .deadlineExpiry _ => none
  | .realarmExpiry _ => none
  | .stepTick => none
  | .cadencePartEnd => none
  | .mimicRowScan => none
  | .lampTestEnd => none
  | .leaveReset => none

/-- A request frame (Table 9-3). -/
def frameOf (code tag : Byte) (body : List Byte) : List Byte :=
  code :: tag :: BitVec.ofNat 8 body.length :: body
    ++ halfBytes (crc16 (code :: tag :: BitVec.ofNat 8 body.length :: body))

/-- The bits of a list of bytes, in the order in which data-in carries them (R168). -/
def bitsOf : List Byte → List Bool
  | [] => []
  | b :: rest => byteBits b ++ bitsOf rest

end Sys2Proof
end

