-- ==== Sys2Proof/Machine/Types.lean ====
section
/-!
DEFINITION. The kinds of data the blocks of the NS24 hold: the enumerations of Table 9-9, the definition records of
Chapter 1 and the dynamic records of Chapters 2 to 9. Names follow the spec; its word "section" is `sect` here, since
the other word is Lean's.
-/

namespace Sys2Proof.Machine

/-- Records by key, keys strictly rising; a key that is not listed has no record (Introduction 5.4, R14). -/
abbrev Table (α : Type) := List (Nat × α)

/-! ## Enumerations (Table 9-9) -/

/-- Device state (R184). -/
inductive Device where
  | standby | configuring | running
  deriving DecidableEq, Repr

/-- Role of a station port (R11). -/
inductive Role where
  | dispatch | switching | telemetry | view
  deriving DecidableEq, Repr

/-- Notice classes (Introduction 5.8). -/
inductive NoticeClass where
  | alarm | valve | supply | plan | outage | call | line
  deriving DecidableEq, Repr

/-- Valve kind (R5). -/
inductive ValveKind where
  | manual | actuated
  deriving DecidableEq, Repr

/-- Position of a valve (Table 2-2). -/
inductive Position where
  | opened | closed | closing | opening | stuck | unknown
  deriving DecidableEq, Repr

/-- The class in which a walk or a trial takes a valve: conducts or open, uncertain, blocks or closed (R20, R50). -/
inductive Flow where
  | conducts | uncertain | blocks
  deriving DecidableEq, Repr

/-- Supply state of a section (R45). -/
inductive Supply where
  | supplied | uncertain | unsupplied
  deriving DecidableEq, Repr

/-- Plan state (Table 4-1). -/
inductive PlanState where
  | draft | assessing | assessed | checking | executing | isolated | restoring | restored | held
  deriving DecidableEq, Repr

/-- Direction of a plan: the movement it last ordered (R57). -/
inductive Direction where
  | unset | closes | opens
  deriving DecidableEq, Repr

/-- PLAN_STATE reason codes (Table 4-2). -/
inductive Reason where
  | requested | assessed | checkPassed | networkBusy | consequenceGrew | priorityNotAccepted | allClosed | allOpen
  | valveFailed | valveMoved | takenOver | outageLinked | outageUnlinked
  deriving DecidableEq, Repr

/-- Cause of an outage (R86). -/
inductive Cause where
  | planned | supplyLoss
  deriving DecidableEq, Repr

/-- Outage state (R86). -/
inductive OutageState where
  | declared | active | recharging | relighting
  deriving DecidableEq, Repr

/-- Call kind (R129). -/
inductive CallKind where
  | odour | noGas
  deriving DecidableEq, Repr

/-- Call state (R129). -/
inductive CallState where
  | received | assigned | onSite | madeSafe
  deriving DecidableEq, Repr

/-- How a call's record ended, as CALL_STATE shows it (R137). -/
inductive CallEnd where
  | closed | cancelled
  deriving DecidableEq, Repr

/-- The stages of a call (R129). -/
inductive Stage where
  | attend | safe
  deriving DecidableEq, Repr

/-- Band of a pressure point (Table 6-1). -/
inductive Band where
  | unset | lowlow | low | normal | high | highhigh
  deriving DecidableEq, Repr

/-- Condition kinds, in the order of Table 8-1. -/
inductive CondKind where
  | lowBand | lowlowBand | highBand | highhighBand | rateOfFall | stale | overdueAttend | overdueSafe | cluster
  | suspectedLoss | unrecordedLoss | valveStuck | uncommandedMove | limitConflict | relapse | sourceTrip | lineActive
  deriving DecidableEq, Repr

/-- Source kinds, in the order of Table 8-1. -/
inductive SourceKind where
  | point | call | sect | valve | outage | source | line
  deriving DecidableEq, Repr

/-- State of an alarm entry (Table 8-2). -/
inductive EntryState where
  | activeUnack | activeAck | clearedUnack
  deriving DecidableEq, Repr

/-- Change codes of ALARM_CHANGED (R158). -/
inductive ChangeCode where
  | acked | cleared | reraised | removed
  deriving DecidableEq, Repr

/-- Role of an input line (R9). -/
inductive LineRole where
  | limit | trip | general | unused
  deriving DecidableEq, Repr

/-- Polarity of an input line (R15). -/
inductive Polarity where
  | activeHigh | activeLow
  deriving DecidableEq, Repr

/-- Route of a GENERAL line (R18). -/
inductive Route where
  | alarm | notice
  deriving DecidableEq, Repr

/-- What a lamp shows (R10). -/
inductive LampKind where
  | valve | sect | source | prioritySummary | unbound
  deriving DecidableEq, Repr

/-- Displayed state of a lamp (R165). -/
inductive LampState where
  | off | on | slow | fast
  deriving DecidableEq, Repr

/-- Status codes of a response (Table 9-5). -/
inductive Status where
  | ok | accepted | frameError | checkError | unknownRequest | notPermitted | notRunning | badArgument | noSuchObject
  | wrongState | notOwner | claimed | tableFull | queueFull | overCount | ownerActive | configHeld | checksumMismatch
  | configInvalid | planOpen | tooLarge | sectionInOutage | alreadyAcked
  deriving DecidableEq, Repr

/-- Definition record kinds, in the order of Table 1-1. -/
inductive RecordKind where
  | sect | valve | source | point | line | lamp | port | parameters | cadence | priorities
  deriving DecidableEq, Repr

/-! ## Definition records (Chapter 1, Table 9-10)

A field is held as it was loaded; a range field may lie outside its range until commit judges it (R186). -/

/-- SECTION record (Table 1-3). -/
structure SectionDef where
  premises : Nat
  priority : Nat
  source : Option Nat
  deriving DecidableEq, Repr

/-- VALVE record (Table 1-4). The five ACTUATED-only fields are `none` where they carry "none". -/
structure ValveDef where
  sideA : Nat
  sideB : Nat
  kind : ValveKind
  recorded : Position
  timeout : Option Nat
  closeOutput : Option Nat
  openOutput : Option Nat
  closedLimit : Option Nat
  openLimit : Option Nat
  deriving DecidableEq, Repr

/-- SOURCE record (Table 1-5). -/
structure SourceDef where
  sect : Nat
  tripLine : Option Nat
  outlet : Option Nat
  deriving DecidableEq, Repr

/-- POINT record (Table 1-6). -/
structure PointDef where
  sect : Nat
  offset : Int
  ll : Nat
  l : Nat
  h : Nat
  hh : Nat
  deadband : Nat
  persistence : Nat
  period : Nat
  window : Nat
  threshold : Nat
  deriving DecidableEq, Repr

/-- LINE record (Table 1-7). -/
structure LineDef where
  role : LineRole
  polarity : Polarity
  debounce : Nat
  route : Option Route
  deriving DecidableEq, Repr

/-- LAMP record (Table 1-9). -/
structure LampDef where
  kind : LampKind
  object : Nat
  deriving DecidableEq, Repr

/-- PORT record (Table 1-10). Bit n of the class set is the class with code n + 1 (R182). -/
structure PortDef where
  role : Role
  classes : Byte
  deriving DecidableEq, Repr

/-- PARAMETERS record (Table 1-11). -/
structure Parameters where
  attend1 : Nat
  attend2 : Nat
  attend3 : Nat
  safe1 : Nat
  safe2 : Nat
  safe3 : Nat
  realarm : Nat
  clusterThreshold : Nat
  clusterGrade : Nat
  noGasThreshold : Nat
  grace : Nat
  rechargeHold : Nat
  hornThreshold : Nat
  deriving DecidableEq, Repr

/-- CADENCE record (Table 1-12). Bits 0 to 3 of the extension byte are the flags of pulses 1 to 4 (R183). -/
structure CadenceDef where
  onSteps : Nat
  offSteps : Nat
  extension : Byte
  deriving DecidableEq, Repr

/-- The configuration image, and after commit the network model in force (R1). -/
structure Image where
  sections : Table SectionDef
  valves : Table ValveDef
  sources : Table SourceDef
  points : Table PointDef
  lines : Table LineDef
  lamps : Table LampDef
  ports : Table PortDef
  parameters : Option Parameters
  cadences : Table CadenceDef
  priorities : Option (List Nat)
  deriving DecidableEq, Repr

/-- One record as LOAD_RECORDS carries it: its kind, its key and its fields. -/
inductive DefRecord where
  | sect (key : Nat) (d : SectionDef)
  | valve (key : Nat) (d : ValveDef)
  | source (key : Nat) (d : SourceDef)
  | point (key : Nat) (d : PointDef)
  | line (key : Nat) (d : LineDef)
  | lamp (key : Nat) (d : LampDef)
  | port (key : Nat) (d : PortDef)
  | parameters (d : Parameters)
  | cadence (key : Nat) (d : CadenceDef)
  | priorities (d : List Nat)
  deriving DecidableEq, Repr

/-- The offender of a refused commit: a record kind and its key, or no key (R3). -/
structure Offender where
  kind : RecordKind
  key : Option Nat
  deriving DecidableEq, Repr

/-- Last commit failure (R188). -/
inductive CommitFailure where
  | checksumMismatch
  | configInvalid (at_ : Offender)
  deriving DecidableEq, Repr

/-! ## Field lines and valves (Chapter 2) -/

/-- Scan state of one input line (section 2.1). -/
structure LineScan where
  rawHigh : Bool
  active : Bool
  count : Nat
  deriving DecidableEq, Repr

/-- Dynamic part of the valve table (section 2.3). -/
structure Valve where
  position : Position
  claim : Option Nat
  travel : Nat
  stuck : Bool
  uncommanded : Bool
  conflict : Bool
  deriving DecidableEq, Repr

/-- How an order ended (R23). -/
inductive Ending where
  | done | failed
  deriving DecidableEq, Repr

/-! ## Sources, walks and trials (Chapter 3) -/

/-- Dynamic state of a source (R37). -/
structure Source where
  tripped : Bool
  outletLow : Bool
  out : Bool
  live : Bool
  deriving DecidableEq, Repr

/-- Snapshot of a walk or trial (R44, R50): each valve's class, the live sources, the topology revision. -/
structure Snapshot where
  valves : Table Flow
  live : List Nat
  revision : Word
  deriving DecidableEq, Repr

/-- Who asked for a trial (R53). -/
inductive Requester where
  | plan (slot : Nat)
  | port (p : PortId)
  deriving DecidableEq, Repr

/-- An entry of the trial queue (R53). The list is empty for a plan's trial, whose closure set is read at its start. -/
structure TrialEntry where
  requester : Requester
  closure : List Nat
  deriving DecidableEq, Repr

/-- State of the walk engine (R44). -/
inductive Engine where
  | idle
  | walking (snapshot : Snapshot)
  | trial (snapshot : Snapshot) (requester : Requester) (closure : List Nat)
  deriving DecidableEq, Repr

/-- Result of a trial (R51), and the optional consequence field of a plan (R57). -/
structure Consequence where
  sections : List Nat
  overflow : Bool
  premises : Nat
  priority : Nat
  basis : Word
  deriving DecidableEq, Repr

/-- Trial result buffer of a port (R56). -/
inductive TrialBuffer where
  | empty
  | waiting
  | ready (result : Consequence) (completion : Word)
  deriving DecidableEq, Repr

/-- Dynamic state of a section, by owner (Table 1-14): the Walk Engine's published state and awaiting-outage flag, the
Outage Table's UNRECORDED_LOSS, the Call Register's counters and conditions. -/
structure Sect where
  supply : Supply
  awaiting : Bool
  unrecorded : Bool
  odour : Nat
  noGas : Nat
  cluster : Bool
  suspected : Bool
  deriving DecidableEq, Repr

/-! ## Plans, outages, points, calls (Chapters 4 to 7) -/

/-- Plan record (R57); the plan number is the record's key. -/
structure Plan where
  owner : PortId
  state : PlanState
  valves : List Nat
  direction : Direction
  reasonCall : Option Nat
  consequence : Option Consequence
  outage : Option Nat
  accepted : Bool
  attempts : Nat
  lastReason : Reason
  deriving DecidableEq, Repr

/-- Member of an outage (R86). -/
structure Member where
  sect : Nat
  hold : Nat
  confirmed : Bool
  deriving DecidableEq, Repr

/-- Outage record (R86). -/
structure Outage where
  number : Nat
  cause : Cause
  state : OutageState
  members : List Member
  affected : Nat
  priority : Nat
  off : Nat
  relit : Nat
  noAccess : Nat
  plan : Option Nat
  linked : Nat
  created : Word
  relapse : Bool
  deriving DecidableEq, Repr

/-- Dynamic fields of a point (Table 6-1). The six conditions are listed states (R122). -/
structure Point where
  value : Option Nat
  lastSample : Nat
  band : Band
  candidate : Option Band
  agreement : Nat
  ring : List Int
  timer : Nat
  fresh : Bool
  latch : Bool
  suppressed : Bool
  lowListed : Bool
  lowlowListed : Bool
  highListed : Bool
  highhighListed : Bool
  fallListed : Bool
  staleListed : Bool
  deriving DecidableEq, Repr

/-- Call record (R129). -/
structure Call where
  number : Nat
  kind : CallKind
  sect : Nat
  grade : Nat
  pendingGrade : Option Nat
  state : CallState
  location : Word
  crew : Option Word
  received : Word
  arrival : Option Word
  elapsed : Nat
  attend : Nat
  safe : Nat
  realarm : Nat
  overdueAttend : Bool
  overdueSafe : Bool
  outage : Option Nat
  deriving DecidableEq, Repr

/-! ## Alarms and horn (Chapter 8) -/

/-- Identity of a condition: its kind, which fixes its source kind, and its source index (R150). -/
structure CondId where
  kind : CondKind
  index : Nat
  deriving DecidableEq, Repr

/-- The three kinds of condition report (R150). -/
inductive ReportKind where
  | raise | clear | reraise
  deriving DecidableEq, Repr

/-- A condition report. -/
structure Report where
  kind : ReportKind
  cond : CondId
  deriving DecidableEq, Repr

/-- Alarm list entry (R152). -/
structure Entry where
  number : Nat
  cond : CondId
  priority : Nat
  state : EntryState
  firstRaised : Word
  lastChange : Word
  repeats : Nat
  ackPort : Option PortId
  seq : Word
  deriving DecidableEq, Repr

/-- Withheld record (R157). -/
structure Withheld where
  cond : CondId
  priority : Nat
  raisedUptime : Word
  raisedClock : Word
  repeats : Nat
  deriving DecidableEq, Repr

/-- The horn: silent, or sounding at a cadence position (R162). -/
inductive Horn where
  | silent
  | sounding (priority : Nat) (pulse : Nat) (on : Bool) (steps : Nat)
  deriving DecidableEq, Repr

/-! ## Station ports (Chapter 9) -/

/-- Contents of a notice by kind (Table 9-8). -/
inductive NoticeBody where
  | alarmListed (number : Nat) (state : EntryState) (cond : CondId)
  | alarmChanged (number : Nat) (code : ChangeCode) (cond : CondId)
  | valvePosition (valve : Nat) (position : Position) (plan : Option Nat)
  | supplyPublished (changed : Nat) (revision : Word)
  | trialDone (length : Nat) (overflow : Bool) (basis : Word)
  /-- `state` is `none` for RELEASED (R79). -/
  | planState (plan : Nat) (state : Option PlanState) (reason : Reason) (owner : PortId)
  /-- `state` is `none` for CLOSED (R108). -/
  | outageState (number : Nat) (state : Option OutageState) (off : Nat)
  | callState (number : Nat) (state : CallState ⊕ CallEnd) (kind : CallKind) (linked : Bool) (grade : Nat) (sect : Nat)
  | callDeadline (number : Nat) (stage : Stage) (elapsed : Nat)
  | lineChange (line : Nat) (active : Bool) (uptime : Word)
  | lost (discarded : Word)
  deriving DecidableEq, Repr

/-- A notice in a port's queue: its contents and the network clock at posting (Table 9-7). -/
structure Notice where
  body : NoticeBody
  time : Word
  deriving DecidableEq, Repr

/-- The pending response of a port (R172, Table 9-4). -/
structure Response where
  status : Status
  tag : Byte
  device : Device
  notices : Bool
  lost : Bool
  horn : Bool
  topology : Word
  supply : Word
  body : List Byte
  deriving DecidableEq, Repr

/-- Per-port state (R167). `dataOut` holds the bits that data-out carried in the port's latest TRANSFER, one for each
clock, first to last (R168). -/
structure Port where
  role : Option Role
  classes : Byte
  response : Response
  queue : List Notice
  lost : Bool
  discarded : Word
  lastRequest : Word
  buffer : TrialBuffer
  attention : Bool
  dataOut : List Bool
  deriving DecidableEq, Repr

/-- The four ports. -/
structure Ports where
  p0 : Port
  p1 : Port
  p2 : Port
  p3 : Port
  deriving DecidableEq, Repr

end Sys2Proof.Machine
end

