-- ==== Sys2Proof/Machine/State.lean ====
section
/-!
DEFINITION. The state of the NS24, block by block (Table 3-1 of the Introduction), the machine right after reset, and
the reasons for which a step could stop.
-/

namespace Sys2Proof.Machine

/-- The part stops nowhere: every row of the table ends in a next state, so no meaning raises a fault. Safe: there is
nothing to raise (assumption 23). -/
inductive Fault where
  deriving DecidableEq, Repr

/-- Refusals. No arm of exec answers one. -/
inductive Refusal where
  /-- Raised by an arm of exec for a command that has no meaning yet; no arm raises it. Safe: the step stops. -/
  | notModelled (mnemonic : String)
  deriving DecidableEq, Repr

/-- Configuration Unit (section 10.1). -/
structure Cfu where
  inReset : Bool
  device : Device
  image : Image
  authority : Option PortId
  checksum : Half
  failure : Option CommitFailure
  causePower : Bool
  causeLine : Bool
  deriving DecidableEq, Repr

/-- Timebase (R191, R192). -/
structure Tbu where
  uptime : Word
  clock : Word
  clockSet : Bool
  deriving DecidableEq, Repr

/-- The blocks that hold the network's state: Line Scanner, Valve Controller, Source Monitor, Walk Engine, Plan Table,
Outage Table, Pressure Supervisor and Call Register. They exchange reports within one event. -/
structure Net where
  /-- Levels of the pins FI0 to FI63 as they stand outside the part: bit n is set for FIn HIGH. -/
  pins : BitVec 64
  /-- Scan state of the 64 input lines (R15). -/
  lines : List LineScan
  /-- Bit n is set while output line n is DRIVEN (R19). -/
  outputs : BitVec 32
  valves : Table Valve
  sources : Table Source
  topology : Word
  supply : Word
  walkPending : Bool
  engine : Engine
  trials : List TrialEntry
  sections : Table Sect
  plans : Table Plan
  outages : Table Outage
  lastOutage : Nat
  points : Table Point
  calls : Table Call
  lastCall : Nat
  deriving DecidableEq, Repr

/-- Alarm List Unit (R151). -/
structure Alu where
  entries : List Entry
  withheld : List Withheld
  seq : Word
  mark : Word
  lastNumber : Nat
  horn : Horn
  hornOut : Bool
  divider : Nat
  deriving DecidableEq, Repr

/-- Mimic Scanner (R164). -/
structure Msc where
  lamps : List LampState
  testTimer : Nat
  flash : Nat
  nextRow : Nat
  drivenRow : Option Nat
  drivenColumns : BitVec 24
  deriving DecidableEq, Repr

/-- The whole state. `pending` is the queue of commands waiting; `choices` is the model's own field, a
counter of the free choices taken where the spec leaves an order open (assumption 4). -/
structure State where
  cfu : Cfu
  tbu : Tbu
  net : Net
  alu : Alu
  msc : Msc
  ports : Ports
  pending : List Instr
  choices : Nat
  deriving DecidableEq, Repr

/-- A configuration memory that holds no record (R1). -/
def Image.empty : Image :=
  { sections := [], valves := [], sources := [], points := [], lines := [], lamps := [], ports := [],
    parameters := none, cadences := [], priorities := none }

/-- Raw level LOW, debounced level INACTIVE, agreement count 0 (R15). -/
def LineScan.reset : LineScan := { rawHigh := false, active := false, count := 0 }

/-- The network blocks after reset: no object, nothing running, every output RELEASED (R19, R20, R42, R44, R53, R57,
R86, R129). The pins are LOW (assumption 6); the last numbers given are 0 (assumption 9). -/
def Net.reset : Net :=
  { pins := 0, lines := List.replicate Config.inputLines LineScan.reset, outputs := 0, valves := [], sources := [],
    topology := 0, supply := 0, walkPending := false, engine := .idle, trials := [], sections := [], plans := [],
    outages := [], lastOutage := 0, points := [], calls := [], lastCall := 0 }

/-- The Alarm List Unit after reset (R151). -/
def Alu.reset : Alu :=
  { entries := [], withheld := [], seq := 0, mark := 0, lastNumber := 0, horn := .silent, hornOut := false, divider := 0 }

/-- The Mimic Scanner after reset: nothing driven, every lamp OFF (R164). -/
def Msc.reset : Msc :=
  { lamps := List.replicate Config.lamps .off, testTimer := 0, flash := 0, nextRow := 0, drivenRow := none,
    drivenColumns := 0 }

/-- The reset response (R167). -/
def Response.reset : Response :=
  { status := .ok, tag := 0, device := .standby, notices := false, lost := false, horn := false, topology := 0,
    supply := 0, body := [] }

/-- A port after reset (R167). -/
def Port.reset : Port :=
  { role := none, classes := 0, response := Response.reset, queue := [], lost := false, discarded := 0,
    lastRequest := 0, buffer := .empty, attention := false, dataOut := [] }

/-- The machine right after a power-on reset (R190). -/
def State.reset : State :=
  { cfu := { inReset := false, device := .standby, image := Image.empty, authority := none, checksum := 0xFFFF,
             failure := none, causePower := true, causeLine := false },
    tbu := { uptime := 0, clock := 0, clockSet := false },
    net := Net.reset, alu := Alu.reset, msc := Msc.reset,
    ports := { p0 := Port.reset, p1 := Port.reset, p2 := Port.reset, p3 := Port.reset },
    pending := [], choices := 0 }

end Sys2Proof.Machine
end

