-- ==== Sys2Proof/Machine/Tables.lean ====
section
/-!
DEFINITION. Operations over tables: reading, writing and freeing the record of a key, the lowest free key, the
next-number convention, and sorting by a key. Every block's reads and writes of its records go through these.
-/

namespace Sys2Proof.Machine

/-- The record of key `k`, if it has one. -/
def lookup {α : Type} (k : Nat) : Table α → Option α
  | [] => none
  | (j, v) :: t => if j = k then some v else lookup k t

/-- Give key `k` the record `v`, replacing a record it has. -/
def put {α : Type} (k : Nat) (v : α) : Table α → Table α
  | [] => [(k, v)]
  | (j, w) :: t => if k < j then (k, v) :: (j, w) :: t else if j = k then (k, v) :: t else (j, w) :: put k v t

/-- Free the record of key `k`. -/
def remove {α : Type} (k : Nat) : Table α → Table α
  | [] => []
  | (j, v) :: t => if j = k then t else (j, v) :: remove k t

/-- Change the record of key `k`, if it has one. -/
def adjust {α : Type} (k : Nat) (f : α → α) : Table α → Table α
  | [] => []
  | (j, v) :: t => if j = k then (j, f v) :: t else (j, v) :: adjust k f t

/-- Change every record. -/
def mapTable {α β : Type} (f : Nat → α → β) : Table α → Table β
  | [] => []
  | (j, v) :: t => (j, f j v) :: mapTable f t

/-- The keys in index order. -/
def keys {α : Type} : Table α → List Nat
  | [] => []
  | (j, _) :: t => j :: keys t

/-- The canonical form of a table: keys strictly rising. -/
def keysRising : List Nat → Bool
  | [] => true
  | [_] => true
  | a :: b :: t => a < b && keysRising (b :: t)

/-- The canonical form of a table: keys strictly rising. -/
def Table.wf {α : Type} (t : Table α) : Bool := keysRising (keys t)

/-- The lowest key below `n` (searching `n` keys from `from_`) that has no record. -/
def lowestFree {α : Type} (t : Table α) : Nat → Nat → Option Nat
  | _, 0 => none
  | from_, n + 1 => if (lookup from_ t).isSome then lowestFree t (from_ + 1) n else some from_

/-- The number after `n`, wrapping from 65535 to 1 (Introduction 5.2). -/
def succNumber (n : Nat) : Nat := if 65535 ≤ n then 1 else n + 1

/-- The next-number convention: the number after the last one given, passing over numbers held (Introduction 5.2). -/
def nextNumber (held : List Nat) : Nat → Nat → Nat
  | 0, last => succNumber last
  | fuel + 1, last => if succNumber last ∈ held then nextNumber held fuel (succNumber last) else succNumber last

/-- Insert by a key, after the items of equal key. -/
def insertBy {α : Type} (less : α → α → Bool) (x : α) : List α → List α
  | [] => [x]
  | y :: t => if less x y then x :: y :: t else y :: insertBy less x t

/-- Insertion sort. -/
def sortBy {α : Type} (less : α → α → Bool) : List α → List α
  | [] => []
  | x :: t => insertBy less x (sortBy less t)

/-- Ascending order of numbers. -/
def ascending (l : List Nat) : List Nat := sortBy (fun a b => decide (a ≤ b)) l

/-- Lexicographic order of lists of numbers. -/
def lexLess : List Nat → List Nat → Bool
  | [], [] => false
  | [], _ :: _ => true
  | _ :: _, [] => false
  | a :: s, b :: t => if a < b then true else if b < a then false else lexLess s t

/-- Map with the position, counted from `n`. -/
def mapFrom {α β : Type} (f : Nat → α → β) : Nat → List α → List β
  | _, [] => []
  | n, x :: t => f n x :: mapFrom f (n + 1) t

/-- The item at a position, or a default. -/
def itemAt {α : Type} (d : α) : List α → Nat → α
  | [], _ => d
  | x :: _, 0 => x
  | _ :: t, n + 1 => itemAt d t n

/-- Divide into groups of `n`, the last one possibly smaller. `fuel` bounds the number of groups. -/
def groupsOf {α : Type} (n : Nat) : Nat → List α → List (List α)
  | 0, _ => []
  | _ + 1, [] => []
  | fuel + 1, x :: t => (x :: t).take n :: groupsOf n fuel ((x :: t).drop n)

end Sys2Proof.Machine
end

