-- ==== Sys2Proof/Machine/Flags.lean ====
section
/-!
DEFINITION. The codes of Table 9-9 and Table 9-5, and every byte of flags the ports carry: the flags byte of a response
(Table 9-4), the condition bytes of the reads, the line byte of READ_LINES, the reset cause byte (R193).
-/

namespace Sys2Proof.Machine

/-! ## Codes (Table 9-9) -/

def deviceCode : Device → Nat
  | .standby => 0 | .configuring => 1 | .running => 2

def roleCode : Role → Nat
  | .dispatch => 0 | .switching => 1 | .telemetry => 2 | .view => 3

def roleOf : Nat → Option Role
  | 0 => some .dispatch | 1 => some .switching | 2 => some .telemetry | 3 => some .view | _ => none

def classCode : NoticeClass → Nat
  | .alarm => 1 | .valve => 2 | .supply => 3 | .plan => 4 | .outage => 5 | .call => 6 | .line => 7

def positionCode : Position → Nat
  | .opened => 0 | .closed => 1 | .closing => 2 | .opening => 3 | .stuck => 4 | .unknown => 5

def positionOf : Nat → Option Position
  | 0 => some .opened | 1 => some .closed | 2 => some .closing | 3 => some .opening | 4 => some .stuck
  | 5 => some .unknown | _ => none

def valveKindCode : ValveKind → Nat
  | .manual => 0 | .actuated => 1

def valveKindOf : Nat → Option ValveKind
  | 0 => some .manual | 1 => some .actuated | _ => none

def directionCode : Direction → Nat
  | .unset => 0 | .closes => 1 | .opens => 2

def supplyCode : Supply → Nat
  | .supplied => 0 | .uncertain => 1 | .unsupplied => 2

def planStateCode : PlanState → Nat
  | .draft => 0 | .assessing => 1 | .assessed => 2 | .checking => 3 | .executing => 4 | .isolated => 5
  | .restoring => 6 | .restored => 7 | .held => 8

/-- RELEASED, the state that only a notice shows (R79). -/
def releasedCode : Nat := 9

def reasonCode : Reason → Nat
  | .requested => 0 | .assessed => 1 | .checkPassed => 2 | .networkBusy => 3 | .consequenceGrew => 4
  | .priorityNotAccepted => 5 | .allClosed => 6 | .allOpen => 7 | .valveFailed => 8 | .valveMoved => 9
  | .takenOver => 10 | .outageLinked => 11 | .outageUnlinked => 12

def outageStateCode : OutageState → Nat
  | .declared => 0 | .active => 1 | .recharging => 2 | .relighting => 3

/-- CLOSED, the outage state that only a notice shows (R108). -/
def outageClosedCode : Nat := 4

def causeCode : Cause → Nat
  | .planned => 0 | .supplyLoss => 1

def callKindCode : CallKind → Nat
  | .odour => 0 | .noGas => 1

def callKindOf : Nat → Option CallKind
  | 0 => some .odour | 1 => some .noGas | _ => none

def callStateCode : CallState → Nat
  | .received => 0 | .assigned => 1 | .onSite => 2 | .madeSafe => 3

def callEndCode : CallEnd → Nat
  | .closed => 4 | .cancelled => 5

def stageCode : Stage → Nat
  | .attend => 0 | .safe => 1

def bandCode : Band → Nat
  | .unset => 0 | .lowlow => 1 | .low => 2 | .normal => 3 | .high => 4 | .highhigh => 5

def entryStateCode : EntryState → Nat
  | .activeUnack => 0 | .activeAck => 1 | .clearedUnack => 2

def changeCodeCode : ChangeCode → Nat
  | .acked => 0 | .cleared => 1 | .reraised => 2 | .removed => 3

/-- Source kinds rank in the order of Table 8-1. -/
def sourceKindCode : SourceKind → Nat
  | .point => 1 | .call => 2 | .sect => 3 | .valve => 4 | .outage => 5 | .source => 6 | .line => 7

def condKindCode : CondKind → Nat
  | .lowBand => 1 | .lowlowBand => 2 | .highBand => 3 | .highhighBand => 4 | .rateOfFall => 5 | .stale => 6
  | .overdueAttend => 7 | .overdueSafe => 8 | .cluster => 9 | .suspectedLoss => 10 | .unrecordedLoss => 11
  | .valveStuck => 12 | .uncommandedMove => 13 | .limitConflict => 14 | .relapse => 15 | .sourceTrip => 16
  | .lineActive => 17

/-- The source kind of a condition kind (Table 8-1). -/
def sourceKindOf : CondKind → SourceKind
  | .lowBand => .point | .lowlowBand => .point | .highBand => .point | .highhighBand => .point | .rateOfFall => .point
  | .stale => .point | .overdueAttend => .call | .overdueSafe => .call | .cluster => .sect | .suspectedLoss => .sect
  | .unrecordedLoss => .sect | .valveStuck => .valve | .uncommandedMove => .valve | .limitConflict => .valve
  | .relapse => .outage | .sourceTrip => .source | .lineActive => .line

def lineRoleCode : LineRole → Nat
  | .limit => 0 | .trip => 1 | .general => 2 | .unused => 3

def lineRoleOf : Nat → Option LineRole
  | 0 => some .limit | 1 => some .trip | 2 => some .general | 3 => some .unused | _ => none

def polarityCode : Polarity → Nat
  | .activeHigh => 0 | .activeLow => 1

def polarityOf : Nat → Option Polarity
  | 0 => some .activeHigh | 1 => some .activeLow | _ => none

def routeCode : Route → Nat
  | .alarm => 0 | .notice => 1

def lampKindCode : LampKind → Nat
  | .valve => 0 | .sect => 1 | .source => 2 | .prioritySummary => 3 | .unbound => 4

def lampKindOf : Nat → Option LampKind
  | 0 => some .valve | 1 => some .sect | 2 => some .source | 3 => some .prioritySummary | 4 => some .unbound
  | _ => none

def lampStateCode : LampState → Nat
  | .off => 0 | .on => 1 | .slow => 2 | .fast => 3

def bufferCode : TrialBuffer → Nat
  | .empty => 0 | .waiting => 1 | .ready _ _ => 2

def recordKindCode : RecordKind → Nat
  | .sect => 1 | .valve => 2 | .source => 3 | .point => 4 | .line => 5 | .lamp => 6 | .port => 7 | .parameters => 8
  | .cadence => 9 | .priorities => 10

def recordKindOf : Nat → Option RecordKind
  | 1 => some .sect | 2 => some .valve | 3 => some .source | 4 => some .point | 5 => some .line | 6 => some .lamp
  | 7 => some .port | 8 => some .parameters | 9 => some .cadence | 10 => some .priorities | _ => none

def portCode : PortId → Nat
  | .p0 => 0 | .p1 => 1 | .p2 => 2 | .p3 => 3

/-- Status values (Table 9-5). -/
def statusCode : Status → Nat
  | .ok => 0 | .accepted => 1 | .frameError => 2 | .checkError => 3 | .unknownRequest => 4 | .notPermitted => 5
  | .notRunning => 6 | .badArgument => 7 | .noSuchObject => 8 | .wrongState => 9 | .notOwner => 10 | .claimed => 11
  | .tableFull => 12 | .queueFull => 13 | .overCount => 14 | .ownerActive => 15 | .configHeld => 16
  | .checksumMismatch => 17 | .configInvalid => 18 | .planOpen => 19 | .tooLarge => 20 | .sectionInOutage => 21
  | .alreadyAcked => 22

/-! ## Flag bytes -/

/-- A set of flags: one byte, one bit per member, from bit 0 (R179). -/
def flagBits : List Bool → Nat
  | [] => 0
  | b :: t => b.toNat + 2 * flagBits t

/-- The flags byte of a response (Table 9-4). -/
def responseFlags (r : Response) : Nat := deviceCode r.device + 4 * flagBits [r.notices, r.lost, r.horn]

/-- The reset cause byte (Table 10-3). -/
def causeFlags (c : Cfu) : Nat := flagBits [c.causePower, c.causeLine]

/-- The condition byte of READ_SECTION (Table 9-6). -/
def sectionFlags (x : Sect) : Nat := flagBits [x.unrecorded, x.cluster, x.suspected]

/-- The condition byte of READ_VALVE (Table 9-6). -/
def valveFlags (x : Valve) : Nat := flagBits [x.stuck, x.uncommanded, x.conflict]

/-- The condition byte of READ_POINT, in the order of Table 6-1 (R179). -/
def pointFlags (x : Point) : Nat :=
  flagBits [x.lowListed, x.lowlowListed, x.highListed, x.highhighListed, x.fallListed, x.staleListed]

/-- The condition byte of READ_CALL, in the order of R129 (R179). -/
def callFlags (x : Call) : Nat := flagBits [x.overdueAttend, x.overdueSafe]

/-- The byte of one input line in READ_LINES: bit 7 raw HIGH, bit 6 debounced ACTIVE, bits 3 to 0 agreement count. -/
def lineByte (x : LineScan) : Nat := 128 * x.rawHigh.toNat + 64 * x.active.toNat + x.count % 16

/-- Does a class set hold a class (R182: set bit = code − 1)? -/
def subscribes (classes : Byte) (c : NoticeClass) : Bool := classes.getLsbD (classCode c - 1)

/-- Saturate an engineering value (Introduction 5.3). -/
def saturate (v : Int) : Nat := if v < 0 then 0 else if 65535 < v then Config.maxPressure else v.toNat

/-- Saturate a history delta at −128 and +127 (R115). -/
def saturateDelta (d : Int) : Int := if d < -128 then -128 else if 127 < d then 127 else d

/-- Saturate a repeat count at 255 (R154). -/
def addRepeat (n : Nat) : Nat := if n < Config.maxRepeat then n + 1 else n

/-- Add one to a 32-bit count that saturates (R174). -/
def addSaturating (w : Word) : Word := if w = BitVec.allOnes 32 then w else w + 1

end Sys2Proof.Machine
end

