-- ==== Sys2Proof/Machine/Model.lean ====
section
/-!
DEFINITION. The network model in force: the defaults that commit applies (R2), and what a record that was never loaded
stands for (R2, R9, R10, R11).
-/

namespace Sys2Proof.Machine

/-- Zero takes the default in a field marked "0 = default" (R2). -/
def orDefault (v d : Nat) : Nat := if v = 0 then d else v

/-- A line with no record is UNUSED, ACTIVE_HIGH, debounce count 3, no route (R2). -/
def LineDef.absent : LineDef :=
  { role := .unused, polarity := .activeHigh, debounce := Config.debounceCount, route := none }

/-- A lamp with no record is NONE (R2). -/
def LampDef.absent : LampDef := { kind := .unbound, object := 0 }

/-- A port with no record is VIEW with no class (R2). -/
def PortDef.absent : PortDef := { role := .view, classes := 0 }

/-- Table 1-11. -/
def Parameters.defaults : Parameters :=
  { attend1 := Config.attend1, attend2 := Config.attend2, attend3 := Config.attend3, safe1 := Config.safe1,
    safe2 := Config.safe2, safe3 := Config.safe3, realarm := Config.realarmInterval,
    clusterThreshold := Config.clusterThreshold, clusterGrade := Config.clusterGrade,
    noGasThreshold := Config.noGasThreshold, grace := Config.takeOverGrace, rechargeHold := Config.rechargeHold,
    hornThreshold := Config.hornThreshold }

/-- Table 1-12. -/
def defaultCadence (p : Nat) : CadenceDef :=
  { onSteps := (Config.cadence p).1, offSteps := (Config.cadence p).2.1,
    extension := BitVec.ofNat 8 (Config.cadence p).2.2 }

def ValveDef.withDefaults (d : ValveDef) : ValveDef :=
  match d.kind with
  | .manual => d
  | .actuated => { d with timeout := d.timeout.map (fun t => orDefault t Config.travelTimeout) }

def PointDef.withDefaults (d : PointDef) : PointDef :=
  { d with
    persistence := orDefault d.persistence Config.persistence
    period := orDefault d.period Config.stalenessPeriod
    window := orDefault d.window Config.fallWindow
    threshold := orDefault d.threshold Config.fallThreshold }

def LineDef.withDefaults (d : LineDef) : LineDef := { d with debounce := orDefault d.debounce Config.debounceCount }

/-- For NONE the object index is returned as 0 (R10). -/
def LampDef.withDefaults (d : LampDef) : LampDef := if d.kind = .unbound then { d with object := 0 } else d

def Parameters.withDefaults (d : Parameters) : Parameters :=
  { attend1 := orDefault d.attend1 Config.attend1, attend2 := orDefault d.attend2 Config.attend2,
    attend3 := orDefault d.attend3 Config.attend3, safe1 := orDefault d.safe1 Config.safe1,
    safe2 := orDefault d.safe2 Config.safe2, safe3 := orDefault d.safe3 Config.safe3,
    realarm := orDefault d.realarm Config.realarmInterval,
    clusterThreshold := orDefault d.clusterThreshold Config.clusterThreshold,
    clusterGrade := orDefault d.clusterGrade Config.clusterGrade,
    noGasThreshold := orDefault d.noGasThreshold Config.noGasThreshold,
    grace := orDefault d.grace Config.takeOverGrace,
    rechargeHold := orDefault d.rechargeHold Config.rechargeHold,
    hornThreshold := orDefault d.hornThreshold Config.hornThreshold }

def CadenceDef.withDefaults (p : Nat) (d : CadenceDef) : CadenceDef :=
  { d with
    onSteps := orDefault d.onSteps (Config.cadence p).1
    offSteps := orDefault d.offSteps (Config.cadence p).2.1 }

/-- Each zero priority takes its kind's default (R13). -/
def prioritiesWithDefaults (l : List Nat) : List Nat :=
  mapFrom (fun n v => orDefault v (itemAt 0 Config.priorities n)) 0 l

/-- The image with its defaults applied, as commit applies them (R2). -/
def Image.withDefaults (m : Image) : Image :=
  { m with
    valves := mapTable (fun _ d => d.withDefaults) m.valves
    points := mapTable (fun _ d => d.withDefaults) m.points
    lines := mapTable (fun _ d => d.withDefaults) m.lines
    lamps := mapTable (fun _ d => d.withDefaults) m.lamps
    parameters := m.parameters.map Parameters.withDefaults
    cadences := mapTable (fun p d => d.withDefaults p) m.cadences
    priorities := m.priorities.map prioritiesWithDefaults }

/-- The line in force (R2). -/
def lineOf (m : Image) (n : Nat) : LineDef := (lookup n m.lines).getD LineDef.absent

/-- The lamp in force (R2). -/
def lampOf (m : Image) (n : Nat) : LampDef := (lookup n m.lamps).getD LampDef.absent

/-- The port in force (R2). -/
def portOf (m : Image) (n : Nat) : PortDef := (lookup n m.ports).getD PortDef.absent

/-- The parameters in force (R2). -/
def paramsOf (m : Image) : Parameters := m.parameters.getD Parameters.defaults

/-- The cadence of a priority in force (R2). -/
def cadenceOf (m : Image) (p : Nat) : CadenceDef := (lookup p m.cadences).getD (defaultCadence p)

/-- The 17 priorities in force (R2). -/
def prioritiesOf (m : Image) : List Nat := m.priorities.getD Config.priorities

/-- The priority of a condition kind (R13, R150). -/
def priorityOf (m : Image) (k : CondKind) : Nat := itemAt 4 (prioritiesOf m) (condKindCode k - 1)

/-- Premises and priority premises of a section; 0 for an index that is not defined (R4). -/
def premisesOf (m : Image) (k : Nat) : Nat := ((lookup k m.sections).map SectionDef.premises).getD 0

def priorityPremisesOf (m : Image) (k : Nat) : Nat := ((lookup k m.sections).map SectionDef.priority).getD 0

/-- Attend deadline of a grade (Table 1-11). -/
def attendDeadline (m : Image) (grade : Nat) : Nat :=
  if grade ≤ 1 then (paramsOf m).attend1 else if grade = 2 then (paramsOf m).attend2 else (paramsOf m).attend3

/-- Make-safe deadline of a grade (Table 1-11). -/
def safeDeadline (m : Image) (grade : Nat) : Nat :=
  if grade ≤ 1 then (paramsOf m).safe1 else if grade = 2 then (paramsOf m).safe2 else (paramsOf m).safe3

/-- The points of a section, in index order (R8). -/
def pointsOf (m : Image) (sect : Nat) : List Nat := keys (m.points.filter (fun x => x.2.sect == sect))

/-- The number of records held (R186). -/
def recordsHeld (m : Image) : Nat :=
  m.sections.length + m.valves.length + m.sources.length + m.points.length + m.lines.length + m.lamps.length
    + m.ports.length + m.parameters.toList.length + m.cadences.length + m.priorities.toList.length

end Sys2Proof.Machine
end

