-- ==== Sys2Proof/Machine/Operands.lean ====
section
/-!
DEFINITION. Every layout at the ports (R179 to R183): the widths and absent values of fields, definition records read
and written, notice entries, response frames, and the records that the reads return.
-/

namespace Sys2Proof.Machine

/-! ## Fields (R179) -/

def be8 (n : Nat) : List Byte := [BitVec.ofNat 8 n]

def be16 (n : Nat) : List Byte := halfBytes (BitVec.ofNat 16 n)

def be32 (n : Nat) : List Byte := wordBytes (BitVec.ofNat 32 n)

/-- A two's complement field of one byte. -/
def signed8 (d : Int) : List Byte := [BitVec.ofInt 8 d]

/-- A two's complement field of two bytes. -/
def signed16 (d : Int) : List Byte := halfBytes (BitVec.ofInt 16 d)

def flag (b : Bool) : List Byte := be8 b.toNat

/-- An optional field of one byte: all ones when absent. -/
def opt8 (v : Option Nat) : List Byte := be8 (v.getD 255)

/-- An optional field of two bytes: all ones when absent. -/
def opt16 (v : Option Nat) : List Byte := be16 (v.getD 65535)

/-- An optional call, outage or alarm number: 0 when absent. -/
def optNumber (v : Option Nat) : List Byte := be16 (v.getD 0)

/-- An optional field of two bytes whose range reaches all ones, carried one width larger. -/
def optWide (v : Option Nat) : List Byte :=
  match v with
  | some n => be32 n
  | none => wordBytes (BitVec.allOnes 32)

/-- An optional four-byte field behind a presence byte. -/
def optWord (v : Option Word) : List Byte :=
  match v with
  | some w => be8 1 ++ wordBytes w
  | none => be8 0 ++ wordBytes 0

/-- A list: a count byte followed by its items. -/
def listOf {α : Type} (item : α → List Byte) (l : List α) : List Byte := be8 l.length ++ l.flatMap item

/-- Read an unsigned field of one, two or four bytes. -/
def nat8 (a : Byte) : Nat := a.toNat

def nat16 (a b : Byte) : Nat := (joinHalf a b).toNat

def nat32 (a b c d : Byte) : Nat := (joinWord a b c d).toNat

/-- An optional index of one byte; 255 is absent. -/
def optOf8 (a : Byte) : Option Nat := if a.toNat = 255 then none else some a.toNat

/-- An optional index of two bytes; 65535 is absent. -/
def optOf16 (a b : Byte) : Option Nat := if nat16 a b = 65535 then none else some (nat16 a b)

/-! ## Definition records (R183, Table 9-10) -/

/-- Length of a record in bytes, its kind byte included. -/
def recordLength : RecordKind → Nat
  | .sect => 8 | .valve => 15 | .source => 7 | .point => 22 | .line => 6 | .lamp => 6 | .port => 4
  | .parameters => 35 | .cadence => 5 | .priorities => 18

/-- Is a key in its kind's key range (Table 1-1)? The key of PARAMETERS and PRIORITIES is the kind alone. -/
def keyInRange (kind : RecordKind) (key : Nat) : Bool :=
  match kind with
  | .sect => key < 512
  | .valve => key < 1024
  | .source => key < 32
  | .point => key < 256
  | .line => key < 64
  | .lamp => key < 288
  | .port => key < 4
  | .parameters => true
  | .cadence => 1 ≤ key && key ≤ 4
  | .priorities => true

/-- The key field of a record, from the bytes after its kind byte. -/
def recordKey (kind : RecordKind) (bytes : List Byte) : Nat :=
  match kind, bytes with
  | .sect, a :: b :: _ => nat16 a b
  | .valve, a :: b :: _ => nat16 a b
  | .lamp, a :: b :: _ => nat16 a b
  | .source, a :: _ => nat8 a
  | .point, a :: _ => nat8 a
  | .line, a :: _ => nat8 a
  | .port, a :: _ => nat8 a
  | .cadence, a :: _ => nat8 a
  | _, _ => 0

/-- Six four-byte deadlines and seven more parameters. -/
def readParameters : List Byte → Option Parameters
  | a1 :: a2 :: a3 :: a4 :: b1 :: b2 :: b3 :: b4 :: c1 :: c2 :: c3 :: c4 :: d1 :: d2 :: d3 :: d4 :: e1 :: e2 :: e3
      :: e4 :: f1 :: f2 :: f3 :: f4 :: [r1, r2, ct, cg, ng, g1, g2, h1, h2, ht] =>
    some { attend1 := nat32 a1 a2 a3 a4, attend2 := nat32 b1 b2 b3 b4, attend3 := nat32 c1 c2 c3 c4,
           safe1 := nat32 d1 d2 d3 d4, safe2 := nat32 e1 e2 e3 e4, safe3 := nat32 f1 f2 f3 f4,
           realarm := nat16 r1 r2, clusterThreshold := nat8 ct, clusterGrade := nat8 cg, noGasThreshold := nat8 ng,
           grace := nat16 g1 g2, rechargeHold := nat16 h1 h2, hornThreshold := nat8 ht }
  | _ => none

/-- The route byte: an assigned code, or 255 for none. -/
def routeOf (a : Byte) : Option (Option Route) :=
  if a.toNat = 255 then some none else if a.toNat = 0 then some (some .alarm)
  else if a.toNat = 1 then some (some .notice) else none

/-- A record from the bytes after its kind byte; `none` where the length is wrong or an enumeration field carries no
assigned code (check 5 of R186). -/
def readRecord (kind : RecordKind) (bytes : List Byte) : Option DefRecord :=
  match kind, bytes with
  | .sect, [k1, k2, p1, p2, q1, q2, s] =>
    some (.sect (nat16 k1 k2) { premises := nat16 p1 p2, priority := nat16 q1 q2, source := optOf8 s })
  | .valve, [k1, k2, a1, a2, b1, b2, kd, rp, t1, t2, co, oo, cl, ol] =>
    match valveKindOf kd.toNat, positionOf rp.toNat with
    | some kind, some pos =>
      some (.valve (nat16 k1 k2)
        { sideA := nat16 a1 a2, sideB := nat16 b1 b2, kind := kind, recorded := pos, timeout := optOf16 t1 t2,
          closeOutput := optOf8 co, openOutput := optOf8 oo, closedLimit := optOf8 cl, openLimit := optOf8 ol })
    | _, _ => none
  | .source, [k, s1, s2, t, o1, o2] =>
    some (.source (nat8 k) { sect := nat16 s1 s2, tripLine := optOf8 t, outlet := optOf16 o1 o2 })
  | .point, [k, s1, s2, f1, f2, a1, a2, b1, b2, c1, c2, d1, d2, e1, e2, p, g1, g2, w, t1, t2] =>
    some (.point (nat8 k)
      { sect := nat16 s1 s2, offset := (joinHalf f1 f2).toInt, ll := nat16 a1 a2, l := nat16 b1 b2, h := nat16 c1 c2,
        hh := nat16 d1 d2, deadband := nat16 e1 e2, persistence := nat8 p, period := nat16 g1 g2, window := nat8 w,
        threshold := nat16 t1 t2 })
  | .line, [k, r, q, d, rt] =>
    match lineRoleOf r.toNat, polarityOf q.toNat, routeOf rt with
    | some role, some polarity, some route =>
      some (.line (nat8 k) { role := role, polarity := polarity, debounce := nat8 d, route := route })
    | _, _, _ => none
  | .lamp, [k1, k2, kd, o1, o2] =>
    (lampKindOf kd.toNat).map (fun kind => .lamp (nat16 k1 k2) { kind := kind, object := nat16 o1 o2 })
  | .port, [k, r, c] => (roleOf r.toNat).map (fun role => .port (nat8 k) { role := role, classes := c })
  | .parameters, l => (readParameters l).map .parameters
  | .cadence, [k, n, f, x] =>
    some (.cadence (nat8 k) { onSteps := nat8 n, offSteps := nat8 f, extension := x })
  | .priorities, l => if l.length = 17 then some (.priorities (l.map nat8)) else none
  | _, _ => none

/-- A record in the layout of Table 9-10, kind byte first (R178, R183). -/
def recordBytes : DefRecord → List Byte
  | .sect k d => be8 1 ++ be16 k ++ be16 d.premises ++ be16 d.priority ++ opt8 d.source
  | .valve k d =>
    be8 2 ++ be16 k ++ be16 d.sideA ++ be16 d.sideB ++ be8 (valveKindCode d.kind) ++ be8 (positionCode d.recorded)
      ++ opt16 d.timeout ++ opt8 d.closeOutput ++ opt8 d.openOutput ++ opt8 d.closedLimit ++ opt8 d.openLimit
  | .source k d => be8 3 ++ be8 k ++ be16 d.sect ++ opt8 d.tripLine ++ opt16 d.outlet
  | .point k d =>
    be8 4 ++ be8 k ++ be16 d.sect ++ signed16 d.offset ++ be16 d.ll ++ be16 d.l ++ be16 d.h ++ be16 d.hh
      ++ be16 d.deadband ++ be8 d.persistence ++ be16 d.period ++ be8 d.window ++ be16 d.threshold
  | .line k d =>
    be8 5 ++ be8 k ++ be8 (lineRoleCode d.role) ++ be8 (polarityCode d.polarity) ++ be8 d.debounce
      ++ opt8 (d.route.map routeCode)
  | .lamp k d => be8 6 ++ be16 k ++ be8 (lampKindCode d.kind) ++ be16 d.object
  | .port k d => be8 7 ++ be8 k ++ be8 (roleCode d.role) ++ [d.classes]
  | .parameters d =>
    be8 8 ++ be32 d.attend1 ++ be32 d.attend2 ++ be32 d.attend3 ++ be32 d.safe1 ++ be32 d.safe2 ++ be32 d.safe3
      ++ be16 d.realarm ++ be8 d.clusterThreshold ++ be8 d.clusterGrade ++ be8 d.noGasThreshold ++ be16 d.grace
      ++ be16 d.rechargeHold ++ be8 d.hornThreshold
  | .cadence k d => be8 9 ++ be8 k ++ be8 d.onSteps ++ be8 d.offSteps ++ [d.extension]
  | .priorities d => be8 10 ++ d.flatMap be8

/-! ## Responses and notices (R180, R181) -/

/-- The complete response frame (Table 9-4). -/
def responseFrame (r : Response) : List Byte :=
  let head := be8 (statusCode r.status) ++ [r.tag] ++ be8 (responseFlags r) ++ wordBytes r.topology ++ wordBytes r.supply
    ++ be8 r.body.length ++ r.body
  head ++ halfBytes (crc16 head)

/-- What data-out carries during `n` clocks: the bits of the frame, each byte's most significant first, then fill of 0
(R168). -/
def shiftedOut (r : Response) (n : Nat) : List Bool :=
  (bitsOf (responseFrame r)).take n ++ List.replicate (n - (bitsOf (responseFrame r)).length) false

/-- Notice kind codes (Table 9-9). -/
def noticeKindCode : NoticeBody → Nat
  | .alarmListed _ _ _ => 1 | .alarmChanged _ _ _ => 2 | .valvePosition _ _ _ => 3 | .supplyPublished _ _ => 4
  | .trialDone _ _ _ => 5 | .planState _ _ _ _ => 6 | .outageState _ _ _ => 7 | .callState _ _ _ _ _ _ => 8
  | .callDeadline _ _ _ => 9 | .lineChange _ _ _ => 10 | .lost _ => 11

/-- The class of a notice; TRIAL_DONE and LOST have none (Table 9-8). -/
def noticeClass : NoticeBody → Option NoticeClass
  | .alarmListed _ _ _ => some .alarm | .alarmChanged _ _ _ => some .alarm | .valvePosition _ _ _ => some .valve
  | .supplyPublished _ _ => some .supply | .trialDone _ _ _ => none | .planState _ _ _ _ => some .plan
  | .outageState _ _ _ => some .outage | .callState _ _ _ _ _ _ => some .call | .callDeadline _ _ _ => some .call
  | .lineChange _ _ _ => some .line | .lost _ => none

/-- The identity of a condition as a notice value: source kind 1, source index 2, condition kind 1 (Table 9-8). -/
def condBytes (c : CondId) : List Byte :=
  be8 (sourceKindCode (sourceKindOf c.kind)) ++ be16 c.index ++ be8 (condKindCode c.kind)

/-- Object index, state and value of a notice (Table 9-8). -/
def noticeContent : NoticeBody → List Byte
  | .alarmListed n st c => be16 n ++ be8 (entryStateCode st) ++ condBytes c
  | .alarmChanged n code c => be16 n ++ be8 (changeCodeCode code) ++ condBytes c
  | .valvePosition v x plan => be16 v ++ be8 (positionCode x) ++ [0, 0, 0] ++ opt8 plan
  | .supplyPublished k rev => be16 k ++ be8 0 ++ wordBytes rev
  | .trialDone k ovf basis => be16 k ++ flag ovf ++ wordBytes basis
  | .planState p st reason owner =>
    be16 p ++ be8 ((st.map planStateCode).getD releasedCode) ++ be8 (reasonCode reason) ++ be8 (portCode owner) ++ [0, 0]
  | .outageState n st off => be16 n ++ be8 ((st.map outageStateCode).getD outageClosedCode) ++ be32 off
  | .callState n st kind linked grade sect =>
    be16 n ++ be8 (match st with | .inl x => callStateCode x | .inr x => callEndCode x)
      ++ be8 (callKindCode kind + 128 * linked.toNat) ++ be8 grade ++ be16 sect
  | .callDeadline n stage elapsed => be16 n ++ be8 (stageCode stage) ++ be32 elapsed
  | .lineChange k active up => be16 k ++ flag active ++ wordBytes up
  | .lost k => be16 0 ++ be8 0 ++ wordBytes k

/-- A notice entry of 12 bytes (Table 9-7). -/
def noticeBytes (n : Notice) : List Byte :=
  be8 (16 * noticeKindCode n.body + ((noticeClass n.body).map classCode).getD 0) ++ noticeContent n.body
    ++ wordBytes n.time

/-! ## Records in reads (R179: the fields in the order of the owner's record table) -/

/-- A trial result (R51). -/
def consequenceBytes (c : Consequence) : List Byte :=
  listOf be16 c.sections ++ flag c.overflow ++ be32 c.premises ++ be32 c.priority ++ wordBytes c.basis

/-- A plan's consequence, behind a presence byte (R179). An absent one is sent with an empty list, so 14 zero bytes
follow (assumption 31). -/
def optConsequence (c : Option Consequence) : List Byte :=
  match c with
  | some x => be8 1 ++ consequenceBytes x
  | none => be8 0 ++ consequenceBytes { sections := [], overflow := false, premises := 0, priority := 0, basis := 0 }

/-- Plan record (R57). -/
def planBytes (slot : Nat) (p : Plan) : List Byte :=
  be8 slot ++ be8 (portCode p.owner) ++ be8 (planStateCode p.state) ++ listOf be16 p.valves
    ++ be8 (directionCode p.direction) ++ optNumber p.reasonCall ++ optConsequence p.consequence ++ optNumber p.outage
    ++ flag p.accepted ++ be8 p.attempts ++ be8 (reasonCode p.lastReason)

/-- A member of an outage: section 2, hold 2, confirmed 1 (Table 9-6). -/
def memberBytes (m : Member) : List Byte := be16 m.sect ++ be16 m.hold ++ flag m.confirmed

/-- Outage record without its members (R86). -/
def outageBytes (o : Outage) : List Byte :=
  be16 o.number ++ be8 (causeCode o.cause) ++ be8 (outageStateCode o.state) ++ be32 o.affected ++ be32 o.priority
    ++ be32 o.off ++ be32 o.relit ++ be32 o.noAccess ++ opt8 o.plan ++ be8 o.linked ++ wordBytes o.created
    ++ flag o.relapse

/-- Call record (R129). -/
def callBytes (c : Call) : List Byte :=
  be16 c.number ++ be8 (callKindCode c.kind) ++ be16 c.sect ++ be8 c.grade ++ opt8 c.pendingGrade
    ++ be8 (callStateCode c.state) ++ wordBytes c.location ++ optWord c.crew ++ wordBytes c.received
    ++ optWord c.arrival ++ be32 c.elapsed ++ be32 c.attend ++ be32 c.safe ++ be16 c.realarm ++ be8 (callFlags c)
    ++ optNumber c.outage

/-- Fields of Table 6-1, then LL, L, H, HH, deadband and P in force (R111). -/
def pointBytes (x : Point) (d : PointDef) : List Byte :=
  optWide x.value ++ be32 x.lastSample ++ be8 (bandCode x.band) ++ opt8 (x.candidate.map bandCode) ++ be8 x.agreement
    ++ listOf signed8 x.ring ++ be16 x.timer ++ flag x.fresh ++ flag x.latch ++ flag x.suppressed
    ++ be8 (pointFlags x) ++ be16 d.ll ++ be16 d.l ++ be16 d.h ++ be16 d.hh ++ be16 d.deadband ++ be8 d.persistence

/-- Alarm list entry, 22 bytes (R152). -/
def entryBytes (x : Entry) : List Byte :=
  be16 x.number ++ condBytes x.cond ++ be8 x.priority ++ be8 (entryStateCode x.state) ++ wordBytes x.firstRaised
    ++ wordBytes x.lastChange ++ be8 x.repeats ++ opt8 (x.ackPort.map portCode) ++ wordBytes x.seq

/-- Withheld record, 14 bytes (R157). -/
def withheldBytes (x : Withheld) : List Byte :=
  condBytes x.cond ++ be8 x.priority ++ wordBytes x.raisedUptime ++ wordBytes x.raisedClock ++ be8 x.repeats

/-- Four lamp states in a byte, the lower lamp index in the higher bits (Table 9-6). -/
def lampBytes : List LampState → List Byte
  | a :: b :: c :: d :: rest =>
    be8 (64 * lampStateCode a + 16 * lampStateCode b + 4 * lampStateCode c + lampStateCode d) ++ lampBytes rest
  | _ => []

/-- The whole items of a page, from a first position on, as many as fit beside a head of `used` bytes (R177). -/
def pageOf {α : Type} (used size first : Nat) (l : List α) : List α :=
  (l.drop first).take ((Config.bodyBytes - used) / size)

end Sys2Proof.Machine
end

