-- ==== Sys2Proof/Machine/Ops.lean ====
section
/-!
DEFINITION. The shared operations: one event and what it gathers (condition reports, notices), the Alarm List Unit's
taking of reports, the horn's judgement, the delivery of notices to the ports, and the taking of a request with its
checks and its response (R150 to R163, R169 to R176).
-/

namespace Sys2Proof.Machine

/-! ## Orders the spec leaves open (assumption 4) -/

/-- One of `k` alternatives: the next free choice, taken only where there are two or more. `cs` counts the choices. -/
def choose (k cs : Nat) : Nat × Nat := if k ≤ 1 then (0, cs) else (Config.freeOrder cs % k, cs + 1)

/-- The blocks that make reports or post notices (Table 3-1). -/
inductive Block where
  | lsc | vlc | srm | wke | plt | ogt | psv | clr | alu
  deriving DecidableEq, Repr

/-- The blocks of a list of items, each once, in order of first appearance. -/
def blocksOf {α : Type} : List (Block × α) → List Block
  | [] => []
  | (b, _) :: t => b :: (blocksOf t).filter (fun c => c != b)

/-- The first item of a block, and the others. -/
def pullFirst {α : Type} (b : Block) : List (Block × α) → Option α × List (Block × α)
  | [] => (none, [])
  | (c, x) :: t => if c = b then (some x, t) else ((pullFirst b t).1, (c, x) :: (pullFirst b t).2)

/-- Merge the items of several blocks: each block's items keep their order, and the blocks come in any order
(R150, R173). -/
def mergePicks {α : Type} : Nat → List (Block × α) → Nat → List α × Nat
  | 0, _, cs => ([], cs)
  | fuel + 1, l, cs =>
    match l with
    | [] => ([], cs)
    | (b0, x0) :: t0 =>
      let bs := blocksOf ((b0, x0) :: t0)
      let (c, cs') := choose bs.length cs
      match pullFirst (itemAt b0 bs c) ((b0, x0) :: t0) with
      | (some x, rest) => let r := mergePicks fuel rest cs'; (x :: r.1, r.2)
      | (none, _) => ([], cs')

/-- Merge all the items. -/
def merge {α : Type} (l : List (Block × α)) (cs : Nat) : List α × Nat := mergePicks l.length l cs

/-! ## One event -/

/-- A notice handed to the Station Port Unit: its contents, and the ports that receive it whatever their class sets. -/
structure Post where
  body : NoticeBody
  also : List PortId
  deriving DecidableEq, Repr

/-- A plan's PLAN_STATE in the making: its reason, whether the reason is fixed by the rule that runs (R70, R74, R76,
R77, R81), the other ports it goes to, the state, owner and link before the event, and the owner if it was released. -/
structure PlanMark where
  plan : Nat
  reason : Reason
  pinned : Bool
  also : List PortId
  before : Option (PlanState × PortId × Option Nat)
  released : Option PortId
  deriving DecidableEq, Repr

/-- An outage's OUTAGE_STATE in the making; `closed` holds premises off where the event freed it (R106, R108). -/
structure OutageMark where
  number : Nat
  closed : Option Nat
  deriving DecidableEq, Repr

/-- A call's CALL_STATE in the making; `freed` holds the call as it stood where the event freed it (R137, R149). -/
structure CallMark where
  number : Nat
  freed : Option (Call × CallEnd)
  deriving DecidableEq, Repr

/-- One event at the network blocks: what they read, their state, and what they hand on. -/
structure Event where
  image : Image
  uptime : Word
  clock : Word
  net : Net
  choices : Nat
  reports : List (Block × Report)
  posts : List (Block × Post)
  plans : List PlanMark
  outages : List OutageMark
  calls : List CallMark
  deriving DecidableEq, Repr

/-- The event as it starts. -/
def Event.start (s : State) : Event :=
  { image := s.cfu.image, uptime := s.tbu.uptime, clock := s.tbu.clock, net := s.net, choices := s.choices,
    reports := [], posts := [], plans := [], outages := [], calls := [] }

/-- Change the network blocks' state. -/
def Event.setNet (e : Event) (n : Net) : Event := { e with net := n }

/-- Send a condition report (R150). -/
def Event.report (b : Block) (k : ReportKind) (c : CondKind) (index : Nat) (e : Event) : Event :=
  { e with reports := e.reports ++ [(b, { kind := k, cond := { kind := c, index := index } })] }

/-- Send a raise or a clear (R150). -/
def Event.signal (b : Block) (active : Bool) (c : CondKind) (index : Nat) (e : Event) : Event :=
  e.report b (if active then .raise else .clear) c index

/-- Post a notice (Introduction 5.8). -/
def Event.post (b : Block) (body : NoticeBody) (also : List PortId) (e : Event) : Event :=
  { e with posts := e.posts ++ [(b, { body := body, also := also })] }

/-- Change the mark of a plan, or add one. -/
def markIn (slot : Nat) (fresh : PlanMark) (f : PlanMark → PlanMark) : List PlanMark → List PlanMark
  | [] => [f fresh]
  | x :: t => if x.plan = slot ∧ x.released.isNone then f x :: t else x :: markIn slot fresh f t

/-- Note that a plan's state, owner or link may have changed (R58). A pinned reason stays; otherwise the last one holds
(assumption 16). Called with the plan as it stands before the change. -/
def Event.markPlan (slot : Nat) (old : Option Plan) (reason : Reason) (pin : Bool) (also : List PortId) (e : Event) :
    Event :=
  let fresh : PlanMark :=
    { plan := slot, reason := reason, pinned := false, also := [],
      before := old.map (fun p => (p.state, p.owner, p.outage)), released := none }
  { e with
    plans := markIn slot fresh
      (fun x => { x with reason := if x.pinned then x.reason else reason, pinned := x.pinned || pin, also := x.also ++ also })
      e.plans }

/-- Note that a plan was released by its owner (R79). -/
def Event.markReleased (slot : Nat) (p : Plan) (e : Event) : Event :=
  let fresh : PlanMark :=
    { plan := slot, reason := .requested, pinned := true, also := [], before := none, released := none }
  { e with plans := markIn slot fresh (fun x => { x with reason := .requested, released := some p.owner }) e.plans }

/-- Note that an outage changed (R108). Several outages' notices come in the order of their first change (assumption
27). -/
def Event.markOutage (n : Nat) (e : Event) : Event :=
  if { number := n, closed := none } ∈ e.outages then e
  else { e with outages := e.outages ++ [{ number := n, closed := none }] }

/-- Note that an outage was freed, with the premises off it held (R106, R107). -/
def Event.markClosed (n off : Nat) (e : Event) : Event :=
  { e with outages := e.outages.filter (fun x => x != { number := n, closed := none })
                        ++ [{ number := n, closed := some off }] }

/-- Note that a call changed (R149). Several calls' notices come in the order of their first change (assumption 27). -/
def Event.markCall (n : Nat) (e : Event) : Event :=
  if { number := n, freed := none } ∈ e.calls then e
  else { e with calls := e.calls ++ [{ number := n, freed := none }] }

/-- Note that a call was freed, with its fields before the freeing (R137). -/
def Event.markFreed (c : Call) (how : CallEnd) (e : Event) : Event :=
  { e with calls := e.calls.filter (fun x => x != { number := c.number, freed := none })
                      ++ [{ number := c.number, freed := some (c, how) }] }

/-! ## The Alarm List Unit (R150 to R160) -/

/-- What an event did to one entry, for its one notice (R158). -/
structure Touch where
  number : Nat
  cond : CondId
  /-- `none`: the event appended the entry; otherwise the code of its last change. -/
  change : Option ChangeCode
  deriving DecidableEq, Repr

/-- The Alarm List Unit within an event, and the entries touched. -/
structure AluWork where
  alu : Alu
  touches : List Touch
  deriving DecidableEq, Repr

/-- Note a change of an entry: an entry appended at this event stays "listed" unless it is removed (R158). The entry's
one notice keeps the place of its first touch (assumption 28). -/
def touchIn (n : Nat) (c : CondId) (code : ChangeCode) : List Touch → List Touch
  | [] => [{ number := n, cond := c, change := some code }]
  | x :: t =>
    if x.number = n ∧ x.change ≠ some .removed then
      { x with change := if code = .removed then some .removed else x.change.map (fun _ => code) } :: t
    else x :: touchIn n c code t

/-- The entry of a condition (R152). -/
def entryOf (c : CondId) (l : List Entry) : Option Entry := l.find? (fun x => x.cond == c)

/-- The entry of an alarm number (R156). -/
def entryNumbered (n : Nat) (l : List Entry) : Option Entry := l.find? (fun x => x.number == n)

/-- Replace the entry of a number. -/
def putEntry (x : Entry) (l : List Entry) : List Entry := l.map (fun y => if y.number = x.number then x else y)

/-- The next alarm number (R152). -/
def nextAlarm (a : Alu) : Nat := nextNumber (a.entries.map Entry.number) (a.entries.length + 1) a.lastNumber

/-- List a condition at the end of the list, with a new number and a new event sequence (R153, R156, R159). -/
def appendEntry (now : Word) (c : CondId) (priority : Nat) (first : Word) (repeats : Nat) (w : AluWork) : AluWork :=
  let n := nextAlarm w.alu
  let q := w.alu.seq + 1
  let x : Entry :=
    { number := n, cond := c, priority := priority, state := .activeUnack, firstRaised := first, lastChange := now,
      repeats := repeats, ackPort := none, seq := q }
  { alu := { w.alu with entries := w.alu.entries ++ [x], seq := q, lastNumber := n },
    touches := w.touches ++ [{ number := n, cond := c, change := none }] }

/-- The key of the listing order of R156; raise times are compared as plain numbers (assumption 18). -/
def withheldKey (x : Withheld) : List Nat :=
  [x.priority, x.raisedUptime.toNat, sourceKindCode (sourceKindOf x.cond.kind), x.cond.index, condKindCode x.cond.kind]

/-- The withheld set in the listing order of R156. -/
def ranked (l : List Withheld) : List Withheld := sortBy (fun a b => lexLess (withheldKey a) (withheldKey b)) l

/-- List the first-ranked withheld condition, if there is one (R156). -/
def listWithheld (now : Word) (w : AluWork) : AluWork :=
  match ranked w.alu.withheld with
  | [] => w
  | x :: _ =>
    appendEntry now x.cond x.priority x.raisedClock x.repeats
      { w with alu := { w.alu with withheld := w.alu.withheld.filter (fun y => y.cond != x.cond) } }

/-- Remove an entry; one withheld condition takes the freed place (R156). -/
def removeEntry (now : Word) (x : Entry) (w : AluWork) : AluWork :=
  listWithheld now
    { alu := { w.alu with entries := w.alu.entries.filter (fun y => y.number != x.number) },
      touches := touchIn x.number x.cond .removed w.touches }

/-- Change an entry and note the code. -/
def changeEntry (x : Entry) (code : ChangeCode) (w : AluWork) : AluWork :=
  { alu := { w.alu with entries := putEntry x w.alu.entries }, touches := touchIn x.number x.cond code w.touches }

/-- A raise or re-raise of a listed condition (R154). -/
def reraiseEntry (now : Word) (x : Entry) (w : AluWork) : AluWork :=
  let q := w.alu.seq + 1
  changeEntry
    { x with state := .activeUnack, repeats := addRepeat x.repeats, ackPort := none, lastChange := now, seq := q }
    .reraised { w with alu := { w.alu with seq := q } }

/-- A clear of a listed condition (R155). -/
def clearEntry (now : Word) (x : Entry) (w : AluWork) : AluWork :=
  match x.state with
  | .activeUnack => changeEntry { x with state := .clearedUnack, lastChange := now } .cleared w
  | .activeAck => removeEntry now x w
  | .clearedUnack => w

/-- A raise of a condition that is neither listed nor withheld (R153). -/
def raiseFresh (m : Image) (up now : Word) (c : CondId) (w : AluWork) : AluWork :=
  if w.alu.entries.length < Config.alarmEntries then appendEntry now c (priorityOf m c.kind) now 1 w
  else
    { w with
      alu := { w.alu with
        withheld := w.alu.withheld ++
          [{ cond := c, priority := priorityOf m c.kind, raisedUptime := up, raisedClock := now, repeats := 1 }] } }

/-- Is the condition withheld? -/
def isWithheld (c : CondId) (a : Alu) : Bool := a.withheld.any (fun x => x.cond == c)

/-- Take one report (R153, R154, R155, R157). -/
def takeReport (m : Image) (up now : Word) (r : Report) (w : AluWork) : AluWork :=
  match entryOf r.cond w.alu.entries, r.kind with
  | some x, .clear => clearEntry now x w
  | some x, _ => reraiseEntry now x w
  | none, .clear =>
    { w with alu := { w.alu with withheld := w.alu.withheld.filter (fun y => y.cond != r.cond) } }
  | none, _ =>
    if isWithheld r.cond w.alu then
      { w with
        alu := { w.alu with
          withheld := w.alu.withheld.map
            (fun y => if y.cond = r.cond then { y with repeats := addRepeat y.repeats } else y) } }
    else raiseFresh m up now r.cond w

/-- Take the reports of an event, one after another (R150). -/
def takeReports (m : Image) (up now : Word) : List Report → AluWork → AluWork
  | [], w => w
  | r :: t, w => takeReports m up now t (takeReport m up now r w)

/-- Is an event sequence later than the silence mark (R159)? -/
def isLater (seq mark : Word) : Bool := 1 ≤ (seq - mark).toNat && (seq - mark).toNat ≤ 2147483647

/-- Is an entry horn-eligible (R160)? -/
def hornEligible (m : Image) (mark : Word) (x : Entry) : Bool :=
  x.state == .activeUnack && x.priority ≤ (paramsOf m).hornThreshold && isLater x.seq mark

/-- The least of a list of numbers. -/
def least : List Nat → Option Nat
  | [] => none
  | x :: t =>
    match least t with
    | none => some x
    | some y => some (min x y)

/-- The most urgent priority among the horn-eligible entries (R163). -/
def hornPriority (m : Image) (a : Alu) : Option Nat :=
  least ((a.entries.filter (hornEligible m a.mark)).map Entry.priority)

/-- On steps of a pulse (R162). -/
def pulseOn (m : Image) (p pulse : Nat) : Nat :=
  (cadenceOf m p).onSteps + ((cadenceOf m p).extension.getLsbD (pulse - 1)).toNat

/-- The horn starts or restarts in the cadence of a priority (R163). -/
def startHorn (m : Image) (p : Nat) (a : Alu) : Alu :=
  { a with horn := .sounding p 1 true (pulseOn m p 1), hornOut := true }

/-- Judge the horn at an event that changed the list, an entry or the mark (R160, R163). -/
def judgeHorn (m : Image) (a : Alu) : Alu :=
  match hornPriority m a, a.horn with
  | none, _ => { a with horn := .silent, hornOut := false }
  | some p, .silent => startHorn m p a
  | some p, .sounding q _ _ _ => if p = q then a else startHorn m p a

/-- The notice of an entry touched (R158). -/
def touchNotice (a : Alu) (x : Touch) : NoticeBody :=
  match x.change with
  | some code => .alarmChanged x.number code x.cond
  | none => .alarmListed x.number (((entryNumbered x.number a.entries).map Entry.state).getD .activeUnack) x.cond

/-! ## Ports (R167, R173 to R176) -/

def Ports.get (ps : Ports) : PortId → Port
  | .p0 => ps.p0
  | .p1 => ps.p1
  | .p2 => ps.p2
  | .p3 => ps.p3

def Ports.set (ps : Ports) (p : PortId) (x : Port) : Ports :=
  match p with
  | .p0 => { ps with p0 := x }
  | .p1 => { ps with p1 := x }
  | .p2 => { ps with p2 := x }
  | .p3 => { ps with p3 := x }

/-- Change every port. -/
def Ports.map (f : PortId → Port → Port) (ps : Ports) : Ports :=
  { p0 := f .p0 ps.p0, p1 := f .p1 ps.p1, p2 := f .p2 ps.p2, p3 := f .p3 ps.p3 }

/-- The attention line follows the queue and the lost flag (R176). -/
def Port.refresh (x : Port) : Port := { x with attention := !x.queue.isEmpty || x.lost }

/-- Put a notice into a port's queue, or discard it (R173, R174). -/
def Port.offer (n : Notice) (x : Port) : Port :=
  Port.refresh
    (if x.queue.length < Config.noticeQueue then { x with queue := x.queue ++ [n] }
     else { x with lost := true, discarded := addSaturating x.discarded })

/-- Is a port entitled to a notice (R173)? -/
def entitled (p : PortId) (x : Port) (n : Post) : Bool :=
  n.also.contains p || ((noticeClass n.body).map (subscribes x.classes)).getD false

/-- Deliver one notice to the ports entitled to it (R173). -/
def deliver (clock : Word) (n : Post) (ps : Ports) : Ports :=
  ps.map (fun p x => if entitled p x n then x.offer { body := n.body, time := clock } else x)

/-- Deliver the notices of an event in order. -/
def deliverAll (clock : Word) : List Post → Ports → Ports
  | [], ps => ps
  | n :: t, ps => deliverAll clock t (deliver clock n ps)

/-! ## The end of an event -/

/-- Does a plan's mark post a notice: does its state, owner or link differ from before (R58)? -/
def PlanMark.posts (n : Net) (x : PlanMark) : Bool :=
  x.released.isSome || (lookup x.plan n.plans).map (fun p => (p.state, p.owner, p.outage)) != x.before

/-- The PLAN_STATE of a mark (R58). -/
def planNotice (n : Net) (x : PlanMark) : List (Block × Post) :=
  match x.released, lookup x.plan n.plans with
  | some owner, _ => [(.plt, { body := .planState x.plan none x.reason owner, also := owner :: x.also })]
  | none, some p =>
    if x.posts n then
      [(.plt, { body := .planState x.plan (some p.state) x.reason p.owner, also := p.owner :: x.also })]
    else []
  | none, none => []

/-- The reason of a PLAN_STATE is written to the last reason field (R58). -/
def writeReasons : List PlanMark → Net → Net
  | [], n => n
  | x :: t, n =>
    writeReasons t
      (if x.posts n then { n with plans := adjust x.plan (fun p => { p with lastReason := x.reason }) n.plans } else n)

/-- The record of an outage number. -/
def outageNumbered (n : Nat) : Table Outage → Option (Nat × Outage)
  | [] => none
  | (i, o) :: t => if o.number = n then some (i, o) else outageNumbered n t

/-- The record of a call number. -/
def callNumbered (n : Nat) : Table Call → Option (Nat × Call)
  | [] => none
  | (i, c) :: t => if c.number = n then some (i, c) else callNumbered n t

/-- The OUTAGE_STATE of a mark (R108). -/
def outageNotice (n : Net) (x : OutageMark) : List (Block × Post) :=
  match x.closed, outageNumbered x.number n.outages with
  | some off, _ => [(.ogt, { body := .outageState x.number none off, also := [] })]
  | none, some (_, o) => [(.ogt, { body := .outageState x.number (some o.state) o.off, also := [] })]
  | none, none => []

/-- The CALL_STATE of a call (R149). -/
def callNotice (c : Call) (st : CallState ⊕ CallEnd) : NoticeBody :=
  .callState c.number st c.kind c.outage.isSome c.grade c.sect

/-- The CALL_STATE of a mark (R149). -/
def callNotices (n : Net) (x : CallMark) : List (Block × Post) :=
  match x.freed, callNumbered x.number n.calls with
  | some (c, how), _ => [(.clr, { body := callNotice c (.inr how), also := [] })]
  | none, some (_, c) => [(.clr, { body := callNotice c (.inl c.state), also := [] })]
  | none, none => []

/-- Everything the event posts, block by block: notices of objects whose notice carries the end of the event come after
their block's others (assumption 17). -/
def eventPosts (e : Event) (w : AluWork) : List (Block × Post) :=
  e.posts ++ e.plans.flatMap (planNotice e.net) ++ e.outages.flatMap (outageNotice e.net)
    ++ e.calls.flatMap (callNotices e.net)
    ++ w.touches.map (fun x => (Block.alu, { body := touchNotice w.alu x, also := [] }))

/-- The alarm list after the event's reports, the horn judged once where the event made any (assumption 19). -/
def takeAll (s : State) (rs : List Report) (w : AluWork) : AluWork :=
  if rs.isEmpty then w
  else
    let v := takeReports s.cfu.image s.tbu.uptime s.tbu.clock rs w
    { v with alu := judgeHorn s.cfu.image v.alu }

/-- The end of an event: reports reach the Alarm List Unit, notices reach the ports. `w` carries what a request did to
the list itself (R156, R161). -/
def finishWith (w : AluWork) (e : Event) (s : State) : State :=
  let r := merge e.reports e.choices
  let v := takeAll s r.1 w
  let q := merge (eventPosts e v) r.2
  { s with
    net := writeReasons e.plans e.net
    alu := v.alu
    ports := deliverAll s.tbu.clock q.1 s.ports
    choices := q.2 }

/-- The items that meet a test give their places to those of a list, one after another; the others stay in theirs. -/
def refill {α : Type} (p : α → Bool) : List α → List α → List α
  | _, [] => []
  | q, x :: t =>
    if p x then
      match q with
      | [] => x :: refill p [] t
      | y :: q' => y :: refill p q' t
    else x :: refill p q t

/-- The reports of one block about objects of one kind in ascending source index, those of one object in the order
made; the other reports keep their places (R150). -/
def inIndexOrder (b : Block) (k : SourceKind) (l : List (Block × Report)) : List (Block × Report) :=
  let mine (x : Block × Report) : Bool := x.1 == b && sourceKindOf x.2.cond.kind == k
  refill mine (sortBy (fun x y => decide (x.2.cond.index ≤ y.2.cond.index)) (l.filter mine)) l

/-- The reports of an event in the order of R150 but for the Pressure Supervisor's own, where the work that brings them
runs by other objects: the Outage Table's of outages in ascending outage number, the Call Register's in ascending call
number and, of sections, in ascending section index. How reports about objects of two kinds mix is assumption 32. -/
def neighbourOrder (l : List (Block × Report)) : List (Block × Report) :=
  inIndexOrder .ogt .outage (inIndexOrder .clr .call (inIndexOrder .clr .sect l))

/-- The reports of an event in the order of R150: the Pressure Supervisor's in ascending point index beside those of its
neighbours. -/
def reportOrder (l : List (Block × Report)) : List (Block × Report) := inIndexOrder .psv .point (neighbourOrder l)

/-- The end of an event that does not touch the alarm list itself, its reports in the order given: where an owner's own
rule gives another order than R150 (R124, R132). -/
def finishAsMade (e : Event) (s : State) : State := finishWith { alu := s.alu, touches := [] } e s

/-- The end of an event that does not touch the alarm list itself. -/
def finish (e : Event) (s : State) : State := finishAsMade { e with reports := reportOrder e.reports } s

/-- One event of the network blocks. -/
def event (f : Event → Event) (s : State) : State := finish (f (Event.start s)) s

/-! ## Requests (R170 to R172) -/

/-- What a request gives: the state after its event, a status and a response body. -/
abbrev Answer := State × Status × List Byte

/-- Change one port. -/
def State.setPort (s : State) (p : PortId) (f : Port → Port) : State :=
  { s with ports := s.ports.set p (f (s.ports.get p)) }

/-- The port's last-request time becomes the uptime (R171). -/
def renew (p : PortId) (s : State) : State := s.setPort p (fun x => { x with lastRequest := s.tbu.uptime })

/-- Is the horn sounding? -/
def hornSounds (a : Alu) : Bool :=
  match a.horn with
  | .silent => false
  | .sounding _ _ _ _ => true

/-- Compose the response at the end of the request's event (R172). -/
def composed (p : PortId) (tag : Byte) (st : Status) (body : List Byte) (s : State) : Response :=
  { status := st, tag := tag, device := s.cfu.device, notices := !(s.ports.get p).queue.isEmpty,
    lost := (s.ports.get p).lost, horn := hornSounds s.alu, topology := s.net.topology, supply := s.net.supply,
    body := body }

/-- The new response replaces the pending response (R168, R172). -/
def respond (p : PortId) (tag : Byte) (st : Status) (body : List Byte) (s : State) : State :=
  s.setPort p (fun x => { x with response := composed p tag st body s })

/-- Table 9-1: does a role permit a class of requests? -/
def permits (r : Role) (c : ReqClass) : Bool :=
  match c with
  | .null => true
  | .identity => true
  | .beginConfig => true
  | .config => true
  | .read => true
  | .readNotices => true
  | .plan => r == .switching
  | .switching => r == .switching
  | .relight => r == .dispatch || r == .switching
  | .alarm => r == .dispatch || r == .switching
  | .trial => r == .dispatch || r == .switching
  | .call => r == .dispatch
  | .sample => r == .telemetry

/-- Requests taken before RUNNING (check 2 of R170). -/
def beforeRunning : ReqClass → Bool
  | .null => true
  | .identity => true
  | .beginConfig => true
  | .config => true
  | .read => false
  | .readNotices => false
  | .plan => false
  | .switching => false
  | .relight => false
  | .alarm => false
  | .trial => false
  | .call => false
  | .sample => false

/-- Checks 2 and 3 of R170: device state, then permission. -/
def refusalOf (s : State) (c : ReqClass) (p : PortId) : Option Status :=
  if s.cfu.device = .running then
    if ((s.ports.get p).role.map (fun r => permits r c)).getD false then none else some .notPermitted
  else if beforeRunning c then
    if c = .config ∧ s.cfu.authority ≠ some p then some .notPermitted else none
  else some .notRunning

/-- The event of a request that passes framing and carries a code of Table 9-6: the last-request time, checks 2 and 3,
the owner's act, the response (R170 to R172). Nothing is taken while nRESET holds the part in reset (R190). -/
def request (c : ReqClass) (p : PortId) (tag : Byte) (act : State → Answer) (s : State) : State :=
  if s.cfu.inReset then s else
    match refusalOf (renew p s) c p with
    | some st => respond p tag st [] (renew p s)
    | none => let r := act (renew p s); respond p tag r.2.1 r.2.2 r.1

/-- An owner refuses a request: nothing changes. -/
def refuse (st : Status) (s : State) : Answer := (s, st, [])

/-- A request taken and answered OK with a body, its effect one event of the network blocks. -/
def taken (f : Event → Event) (body : List Byte) (s : State) : Answer := (event f s, .ok, body)

/-- Is the part out of reset and RUNNING? -/
def isRunning (s : State) : Bool := !s.cfu.inReset && s.cfu.device == .running

/-- An event of the part itself, which exists only in RUNNING (R184, R191). -/
def whenRunning (f : State → State) (s : State) : State := if isRunning s then f s else s

end Sys2Proof.Machine
end

