-- ==== Sys2Proof/Machine/Walk.lean ====
section
/-!
DEFINITION. The Walk Engine and the Source Monitor (Chapter 3): change reports and revisions, snapshots, the three-way
classification, trials and their result, the trial queue and the arbiter, source liveness.
-/

namespace Sys2Proof.Machine

/-! ## Classes of a valve (Table 2-2) -/

/-- The conducting class, read by a live walk (R20). -/
def conducting : Position → Flow
  | .opened => .conducts
  | .closed => .blocks
  | .closing => .uncertain
  | .opening => .uncertain
  | .stuck => .uncertain
  | .unknown => .uncertain

/-- The intended class, read by a trial: open, closed or uncertain (R20, R50). -/
def intended : Position → Flow
  | .opened => .conducts
  | .closed => .blocks
  | .closing => .blocks
  | .opening => .conducts
  | .stuck => .uncertain
  | .unknown => .uncertain

/-- Is a source live (R37)? -/
def liveness (x : Source) : Bool := !x.tripped && !x.outletLow && !x.out

/-- The numbers of the live sources. -/
def liveSources (n : Net) : List Nat := keys (n.sources.filter (fun x => x.2.live))

/-- A snapshot of the network under a reading of positions (R44, R50). -/
def snapshotOf (read : Position → Flow) (n : Net) : Snapshot :=
  { valves := mapTable (fun _ v => read v.position) n.valves, live := liveSources n, revision := n.topology }

/-! ## Classification (R45) -/

/-- The edges whose valve has an admitted class; a valve is passed in either direction (R5). -/
def edgesOf (m : Image) (admits : Flow → Bool) (flows : Table Flow) : List (Nat × Nat) :=
  flows.filterMap (fun x =>
    if admits x.2 then (lookup x.1 m.valves).map (fun d => (d.sideA, d.sideB)) else none)

/-- Add the sections that one pass over the edges reaches. -/
def reachOnce : List (Nat × Nat) → List Nat → List Nat
  | [], l => l
  | (a, b) :: t, l =>
    reachOnce t
      (if a ∈ l ∧ b ∉ l then b :: l else if b ∈ l ∧ a ∉ l then a :: l else l)

/-- Repeat the pass; as many passes as there are edges reach every chain. -/
def reachN (edges : List (Nat × Nat)) : Nat → List Nat → List Nat
  | 0, l => l
  | k + 1, l => reachN edges k (reachOnce edges l)

/-- The sections reached from a set of sections over a list of edges. -/
def reach (edges : List (Nat × Nat)) (start : List Nat) : List Nat := reachN edges edges.length start

/-- The sections of the live sources of a snapshot. -/
def feeding (m : Image) (live : List Nat) : List Nat := live.filterMap (fun k => (lookup k m.sources).map SourceDef.sect)

/-- Passes a conducting valve. -/
def conductsOnly (f : Flow) : Bool := f == .conducts

/-- Passes a valve that conducts or is uncertain. -/
def notBlocked (f : Flow) : Bool := f != .blocks

/-- The SUPPLIED sections (R45). -/
def suppliedBy (m : Image) (flows : Table Flow) (live : List Nat) : List Nat :=
  reach (edgesOf m conductsOnly flows) (feeding m live)

/-- The SUPPLIED and the UNCERTAIN sections (R45). -/
def reachedBy (m : Image) (flows : Table Flow) (live : List Nat) : List Nat :=
  reach (edgesOf m notBlocked flows) (suppliedBy m flows live)

/-- The class of a section (R45). -/
def classOf (supplied reached : List Nat) (k : Nat) : Supply :=
  if k ∈ supplied then .supplied else if k ∈ reached then .uncertain else .unsupplied

/-- A snapshot's classification of a section (R45). -/
def classify (m : Image) (x : Snapshot) (k : Nat) : Supply :=
  classOf (suppliedBy m x.valves x.live) (reachedBy m x.valves x.live) k

/-- Every valve of a closure set treated as closed (R50). -/
def closeIn (closure : List Nat) (flows : Table Flow) : Table Flow :=
  mapTable (fun k f => if k ∈ closure then .blocks else f) flows

/-- Sum of a count over sections. -/
def total (f : Nat → Nat) : List Nat → Nat
  | [] => 0
  | k :: t => f k + total f t

/-- The consequence of a trial: SUPPLIED in the baseline and not in the hypothetical, in ascending index (R51). -/
def consequenceSections (m : Image) (x : Snapshot) (closure : List Nat) : List Nat :=
  let before := suppliedBy m x.valves x.live
  let after := suppliedBy m (closeIn closure x.valves) x.live
  (keys m.sections).filter (fun k => before.contains k && !after.contains k)

/-- The result of a trial (R51). -/
def trialResult (m : Image) (x : Snapshot) (closure : List Nat) : Consequence :=
  let l := consequenceSections m x closure
  { sections := l.take Config.consequenceList, overflow := decide (Config.consequenceList < l.length),
    premises := total (premisesOf m) l, priority := total (priorityPremisesOf m) l, basis := x.revision }

/-! ## The engine (R42, R44, R50, R53, R54) -/

/-- A live walk starts: a snapshot is taken and live-walk-pending cleared (R44). -/
def startWalk (n : Net) : Net :=
  { n with engine := .walking (snapshotOf conducting n), walkPending := false }

/-- The closure set of a trial, fixed at its start (R50). -/
def closureOf (n : Net) (t : TrialEntry) : List Nat :=
  match t.requester with
  | .plan p => ((lookup p n.plans).map Plan.valves).getD []
  | .port _ => t.closure

/-- The oldest queued trial starts and leaves the queue (R50, R53). -/
def startTrial (n : Net) : Net :=
  match n.trials with
  | [] => n
  | t :: rest =>
    { n with engine := .trial (snapshotOf intended n) t.requester (closureOf n t), trials := rest }

/-- A change report: the topology revision counts it, and an idle engine starts a walk at once (R42, R54). -/
def countChange (n : Net) : Net :=
  let n1 := { n with topology := n.topology + 1, walkPending := true }
  if n1.engine = .idle then startWalk n1 else n1

/-- A change report reaches the Walk Engine. -/
def Event.changed (e : Event) : Event := e.setNet (countChange e.net)

/-- A trial request: refused when 8 wait; an idle engine starts it at once (R53, R54). -/
def queueTrial (t : TrialEntry) (n : Net) : Option Net :=
  if Config.trialQueue ≤ n.trials.length then none
  else
    let n1 := { n with trials := n.trials ++ [t] }
    some (if n1.engine = .idle then startTrial n1 else n1)

/-- The arbiter after a live walk: trials first (R54). -/
def grantAfterWalk (n : Net) : Net :=
  let n1 := { n with engine := .idle }
  if n.trials = [] then (if n.walkPending then startWalk n1 else n1) else startTrial n1

/-- The arbiter after a trial: the pending walk first (R54). -/
def grantAfterTrial (n : Net) : Net :=
  let n1 := { n with engine := .idle }
  if n.walkPending then startWalk n1 else if n.trials = [] then n1 else startTrial n1

/-! ## The Source Monitor (R37 to R41) -/

/-- Change a source's items; a change of liveness is reported at the event (R41). Each entry of a SAMPLE_BATCH counts as
an event of its own here (assumption 29). -/
def Event.source (k : Nat) (f : Source → Source) (e : Event) : Event :=
  match lookup k e.net.sources with
  | none => e
  | some x =>
    let y := { f x with live := liveness (f x) }
    let e1 := e.setNet { e.net with sources := put k y e.net.sources }
    if y.live = x.live then e1 else e1.changed

/-- A level of a source's trip line (R38). -/
def Event.trip (k : Nat) (active : Bool) (e : Event) : Event :=
  match lookup k e.net.sources with
  | none => e
  | some x =>
    if x.tripped = active then e
    else ((e.source k (fun y => { y with tripped := active })).signal .srm active .sourceTrip k)

/-- The source that a point is the outlet point of, if any (R7). -/
def outletSource (m : Image) (point : Nat) : Option Nat :=
  (keys (m.sources.filter (fun x => x.2.outlet == some point))).head?

/-- Outlet low, or outlet not low, of a point (R39, R126). -/
def Event.outlet (point : Nat) (low : Bool) (e : Event) : Event :=
  match outletSource e.image point with
  | none => e
  | some k => e.source k (fun y => { y with outletLow := low })

/-- SOURCE_OUT and SOURCE_IN (R40). A number over 31 lies outside the key range and denotes no source. -/
def actSourceService (out : Bool) (k : Nat) (s : State) : Answer :=
  match lookup k s.net.sources with
  | none => refuse .noSuchObject s
  | some _ => taken (fun e => e.source k (fun y => { y with out := out })) [] s

/-- SOURCE_OUT. -/
def execSourceOut (p : PortId) (tag : Byte) (source : Byte) (s : State) : Host.Outcome State Fault Refusal :=
  .next (request .switching p tag (actSourceService true source.toNat) s)

/-- SOURCE_IN. -/
def execSourceIn (p : PortId) (tag : Byte) (source : Byte) (s : State) : Host.Outcome State Fault Refusal :=
  .next (request .switching p tag (actSourceService false source.toNat) s)

/-! ## TRIAL (R55) -/

/-- Two-byte indices from a body; `none` where the body is no whole number of them. -/
def indicesOf : List Byte → Option (List Nat)
  | [] => some []
  | [_] => none
  | a :: b :: t => (indicesOf t).map (fun l => nat16 a b :: l)

/-- No item is given twice. -/
def distinct : List Nat → Bool
  | [] => true
  | x :: t => !t.contains x && distinct t

/-- Has a port a standalone trial queued or running (R55)? -/
def hasTrial (p : PortId) (n : Net) : Bool :=
  n.trials.any (fun t => t.requester == .port p) ||
    (match n.engine with
     | .idle => false
     | .walking _ => false
     | .trial _ r _ => r == .port p)

/-- TRIAL's checks and effect (R55). -/
def actTrial (p : PortId) (body : List Byte) (s : State) : Answer :=
  match indicesOf body with
  | none => refuse .badArgument s
  | some l =>
    if l = [] ∨ 16 < l.length ∨ distinct l = false then refuse .badArgument s
    else if l.all (fun v => (lookup v s.net.valves).isSome) = false then refuse .noSuchObject s
    else if hasTrial p s.net then refuse .wrongState s
    else
      match queueTrial { requester := .port p, closure := l } s.net with
      | none => refuse .queueFull s
      | some n => (({ s with net := n } : State).setPort p (fun x => { x with buffer := .waiting }), .accepted, [])

/-- TRIAL. -/
def execTrial (p : PortId) (tag : Byte) (body : List Byte) (s : State) : Host.Outcome State Fault Refusal :=
  .next (request .trial p tag (actTrial p body) s)

end Sys2Proof.Machine
end

