-- ==== Sys2Proof/Machine/PlanCore.lean ====
section
/-!
DEFINITION. What the Plan Table does with the reports of its neighbours: position reports and order outcomes of plan
valves (R72, R73, R75, R78), a freed reason call (R83), a freed outage (R84), the link of a declaration (R65).
-/

namespace Sys2Proof.Machine

/-- Change a plan record, marking its PLAN_STATE (R58). -/
def Event.plan (slot : Nat) (reason : Reason) (pin : Bool) (f : Plan → Plan) (e : Event) : Event :=
  (e.markPlan slot (lookup slot e.net.plans) reason pin []).setNet
    { e.net with plans := adjust slot f e.net.plans }

/-- Change a field of a plan record that no notice reports. -/
def Event.planQuietly (slot : Nat) (f : Plan → Plan) (e : Event) : Event :=
  e.setNet { e.net with plans := adjust slot f e.net.plans }

/-- The end that a direction moves the valves to. -/
def endOf : Direction → Position
  | .unset => .unknown
  | .closes => .closed
  | .opens => .opened

/-- The position of a valve under an order in a direction. -/
def travelOf : Direction → Position
  | .unset => .unknown
  | .closes => .closing
  | .opens => .opening

/-- The state of a plan whose orders in a direction are out. -/
def movingState : Direction → PlanState
  | .unset => .held
  | .closes => .executing
  | .opens => .restoring

/-- The state of a plan whose valves all stand at the end of a direction. -/
def settledState : Direction → PlanState
  | .unset => .held
  | .closes => .isolated
  | .opens => .restored

/-- The reason with which a plan settles. -/
def settledReason : Direction → Reason
  | .unset => .requested
  | .closes => .allClosed
  | .opens => .allOpen

/-- The position of a valve. -/
def positionAt (n : Net) (v : Nat) : Option Position := (lookup v n.valves).map Valve.position

/-- Does every valve of a list stand at a position? -/
def allAt (n : Net) (x : Position) (l : List Nat) : Bool := l.all (fun v => positionAt n v == some x)

/-- A report that fails an order, or takes a valve off its path (R72, R78). -/
def isFailure (d : Direction) (moved : Option Position) (outcome : Option Ending) : Bool :=
  outcome == some .failed ||
    (match moved with
     | none => false
     | some x => x != endOf d && x != travelOf d)

/-- A report about a valve of a plan whose orders are out (R72, R78). -/
def Event.movingReport (slot : Nat) (p : Plan) (d : Direction) (moved : Option Position) (outcome : Option Ending)
    (e : Event) : Event :=
  if isFailure d moved outcome then e.plan slot .valveFailed false (fun q => { q with state := .held, direction := d })
  else if allAt e.net (endOf d) p.valves then
    e.plan slot (settledReason d) false (fun q => { q with state := settledState d })
  else e

/-- A report about a valve of a settled plan (R73). -/
def Event.settledReport (slot : Nat) (d : Direction) (moved : Option Position) (e : Event) : Event :=
  match moved with
  | none => e
  | some _ => e.plan slot .valveMoved false (fun q => { q with state := .held, direction := d })

/-- A report about a valve of a HELD plan (R75). -/
def Event.heldReport (slot : Nat) (p : Plan) (e : Event) : Event :=
  if p.direction ≠ .unset ∧ allAt e.net (endOf p.direction) p.valves = true then
    e.plan slot (settledReason p.direction) false (fun q => { q with state := settledState p.direction })
  else e

/-- A position report or an order outcome reaches the claiming plan (R22, R23, R85). -/
def Event.planReport (slot : Nat) (moved : Option Position) (outcome : Option Ending) (e : Event) : Event :=
  match lookup slot e.net.plans with
  | none => e
  | some p =>
    match p.state with
    | .executing => e.movingReport slot p .closes moved outcome
    | .restoring => e.movingReport slot p .opens moved outcome
    | .isolated => e.settledReport slot .closes moved
    | .restored => e.settledReport slot .opens moved
    | .held => e.heldReport slot p
    | .draft => e
    | .assessing => e
    | .assessed => e
    | .checking => e

/-- Once orders or aborts are out: a plan whose valves all stand at the end is settled (R70, R74, R76, R77). -/
def Event.settleIfAll (slot : Nat) (reason : Reason) (e : Event) : Event :=
  match lookup slot e.net.plans with
  | none => e
  | some p =>
    if (p.state = .executing ∨ p.state = .restoring ∨ p.state = .held) ∧ p.direction ≠ .unset
        ∧ allAt e.net (endOf p.direction) p.valves = true then
      e.plan slot reason false (fun q => { q with state := settledState p.direction })
    else e

/-- A freed call is named by no plan (R83). -/
def Event.forgetCall (call : Nat) (e : Event) : Event :=
  e.setNet
    { e.net with
      plans := mapTable (fun _ p => if p.reasonCall = some call then { p with reasonCall := none } else p) e.net.plans }

/-- Is a call held by a plan in CHECKING, EXECUTING, ISOLATED or HELD (R83)? -/
def planOpen (call : Nat) (n : Net) : Bool :=
  n.plans.any (fun x => x.2.reasonCall == some call &&
    (x.2.state == .checking || x.2.state == .executing || x.2.state == .isolated || x.2.state == .held))

/-- The linked outage of a plan is freed (R84). -/
def Event.unlinkPlan (slot : Nat) (e : Event) : Event :=
  e.plan slot .outageUnlinked false (fun p => { p with outage := none })

/-- Does a port own the plan that claims a valve (R24)? -/
def ownsClaim (p : PortId) (claim : Option Nat) (n : Net) : Bool :=
  match claim with
  | none => false
  | some k => ((lookup k n.plans).map (fun x => decide (x.owner = p))).getD false

end Sys2Proof.Machine
end

