-- ==== Sys2Proof/Machine/Valves.lean ====
section
/-!
DEFINITION. The Valve Controller and the line changes (Chapter 2): output lines, every change of a valve's position, the
orders, limit reports, travel timers, aborts, the crew's requests and VERIFY_POSITION.
-/

namespace Sys2Proof.Machine

/-! ## Lines -/

/-- Drive or release an output line (R19). -/
def driveLine (n : Nat) (b : Bool) (o : BitVec 32) : BitVec 32 :=
  if b then o ||| BitVec.twoPow 32 n else o &&& ~~~(BitVec.twoPow 32 n)

/-- The debounced level of an input line: ACTIVE? -/
def lineActive (n : Net) (line : Option Nat) : Bool :=
  match line with
  | none => false
  | some k => ((n.lines[k]?).map LineScan.active).getD false

/-- The outputs of an actuated valve at a position: the release is ordered first (R29, Table 2-4). -/
def settleOutputs (d : ValveDef) (x : Position) (o : BitVec 32) : BitVec 32 :=
  match d.kind, d.closeOutput, d.openOutput with
  | .actuated, some c, some p =>
    if x = .closing then driveLine c true (driveLine p false o)
    else driveLine p (x == .opening) (driveLine c false o)
  | _, _, _ => o

/-! ## Conditions (R33, R34) -/

/-- Set VALVE_STUCK; what is already so is not sent. -/
def Event.setStuck (v : Nat) (b : Bool) (e : Event) : Event :=
  match lookup v e.net.valves with
  | none => e
  | some x =>
    if x.stuck = b then e
    else (e.setNet { e.net with valves := adjust v (fun y => { y with stuck := b }) e.net.valves }).signal .vlc b .valveStuck v

/-- Set UNCOMMANDED_MOVE. -/
def Event.setUncommanded (v : Nat) (b : Bool) (e : Event) : Event :=
  match lookup v e.net.valves with
  | none => e
  | some x =>
    if x.uncommanded = b then e
    else (e.setNet { e.net with valves := adjust v (fun y => { y with uncommanded := b }) e.net.valves }).signal .vlc b
      .uncommandedMove v

/-- Set LIMIT_CONFLICT. -/
def Event.setConflict (v : Nat) (b : Bool) (e : Event) : Event :=
  match lookup v e.net.valves with
  | none => e
  | some x =>
    if x.conflict = b then e
    else (e.setNet { e.net with valves := adjust v (fun y => { y with conflict := b }) e.net.valves }).signal .vlc b
      .limitConflict v

/-- VALVE_STUCK follows a new position: raised at STUCK, cleared at OPEN and CLOSED (R33). -/
def Event.stuckFollows (v : Nat) (x : Position) (e : Event) : Event :=
  match x with
  | .stuck => e.setStuck v true
  | .opened => e.setStuck v false
  | .closed => e.setStuck v false
  | .closing => e
  | .opening => e
  | .unknown => e

/-! ## Changes of position (R22, R23) -/

/-- Report to the claiming plan, if there is one. -/
def Event.claimReport (claim : Option Nat) (moved : Option Position) (outcome : Option Ending) (e : Event) : Event :=
  match claim with
  | none => e
  | some k => e.planReport k moved outcome

/-- Set a valve's position, travel remaining and outputs. -/
def placeValve (d : ValveDef) (v : Nat) (pos : Position) (travel : Nat) (n : Net) : Net :=
  { n with
    valves := adjust v (fun y => { y with position := pos, travel := travel }) n.valves
    outputs := settleOutputs d pos n.outputs }

/-- A valve takes a position at an event: outputs and timer follow it, VALVE_STUCK follows it, and a change is reported
to the Walk Engine, the consoles and the claiming plan (R22, R29). -/
def Event.moveValve (v : Nat) (pos : Position) (travel : Nat) (outcome : Option Ending) (e : Event) : Event :=
  match lookup v e.net.valves, lookup v e.image.valves with
  | some x, some d =>
    let e1 := e.setNet (placeValve d v pos travel e.net)
    if x.position = pos then
      (match outcome with
       | none => e1
       | some _ => e1.claimReport x.claim none outcome)
    else
      (((e1.stuckFollows v pos).changed).post .vlc (.valvePosition v pos x.claim) []).claimReport x.claim (some pos)
        outcome
  | _, _ => e

/-! ## Orders (R25, R29) -/

/-- The pair of limit levels of a valve: closed-limit, open-limit (R17). -/
def limitPair (d : ValveDef) (n : Net) : Bool × Bool := (lineActive n d.closedLimit, lineActive n d.openLimit)

/-- The position that a limit pair shows (R32). -/
def shownBy : Bool × Bool → Option Position
  | (true, false) => some .closed
  | (false, true) => some .opened
  | _ => none

/-- An order to a manual valve (R25). -/
def Event.orderManual (v : Nat) (x : Valve) (dir : Direction) (e : Event) : Event :=
  if x.position = endOf dir then e.claimReport x.claim none (some .done)
  else if x.position = travelOf dir then e
  else e.moveValve v (travelOf dir) 0 none

/-- An order to an actuated valve (R29). -/
def Event.orderActuated (v : Nat) (x : Valve) (d : ValveDef) (dir : Direction) (e : Event) : Event :=
  if shownBy (limitPair d e.net) = some (endOf dir) ∨ x.position = endOf dir then
    e.moveValve v (endOf dir) 0 (some .done)
  else if x.position = travelOf dir then e
  else e.moveValve v (travelOf dir) (d.timeout.getD 0) none

/-- A close order or an open order from the Plan Table; every order clears UNCOMMANDED_MOVE (R25, R29), and does so
before the valve moves (assumption 25). -/
def Event.order (dir : Direction) (v : Nat) (e : Event) : Event :=
  match lookup v e.net.valves, lookup v e.image.valves with
  | some x, some d =>
    match d.kind with
    | .manual => (e.setUncommanded v false).orderManual v x dir
    | .actuated => (e.setUncommanded v false).orderActuated v x d dir
  | _, _ => e

/-- Orders to a list of valves, in list order. -/
def Event.orders (dir : Direction) : List Nat → Event → Event
  | [], e => e
  | v :: t, e => Event.orders dir t (e.order dir v)

/-- Is a valve under an order? -/
def isTravelling (x : Position) : Bool := x == .closing || x == .opening

/-- An abort from the Plan Table (R35). -/
def Event.abort (v : Nat) (e : Event) : Event :=
  match lookup v e.net.valves, lookup v e.image.valves with
  | some x, some d =>
    if d.kind = .actuated ∧ isTravelling x.position = true then
      e.moveValve v ((shownBy (limitPair d e.net)).getD .unknown) 0 none
    else e
  | _, _ => e

/-- Aborts to a list of valves. -/
def Event.aborts : List Nat → Event → Event
  | [], e => e
  | v :: t, e => Event.aborts t (e.abort v)

/-! ## Limit reports (R30, R32, R34) -/

/-- Both limits ACTIVE (R34). -/
def Event.conflictReport (v : Nat) (x : Valve) (e : Event) : Event :=
  (e.setConflict v true).moveValve v .unknown 0 (if isTravelling x.position then some .failed else none)

/-- The report that ends a conflict, evaluated against UNKNOWN at rest (R34). Under an order given meanwhile the order is
done where its target is shown, and failed where the valve is left UNKNOWN (R23, assumption 15). LIMIT_CONFLICT is cleared
before VALVE_STUCK follows the position (assumption 25). -/
def Event.afterConflict (v : Nat) (x : Valve) (shown : Option Position) (e : Event) : Event :=
  (e.setConflict v false).moveValve v (shown.getD .unknown) 0
    (if isTravelling x.position then
       (if shown = none then some .failed
        else if (x.position = .closing ∧ shown = some .closed) ∨ (x.position = .opening ∧ shown = some .opened) then
          some .done
        else none)
     else none)

/-- A limit report at rest (R32, Table 2-5). -/
def Event.restReport (v : Nat) (x : Valve) (shown : Option Position) (e : Event) : Event :=
  match x.position, shown with
  | .opened, some .closed => (e.setUncommanded v true).moveValve v .closed 0 none
  | .opened, none => (e.setUncommanded v true).moveValve v .unknown 0 none
  | .closed, some .opened => (e.setUncommanded v true).moveValve v .opened 0 none
  | .closed, none => (e.setUncommanded v true).moveValve v .unknown 0 none
  | .stuck, some y => e.moveValve v y 0 none
  | .unknown, some y => e.moveValve v y 0 none
  | _, _ => e

/-- A limit report for an actuated valve (R30, R32, R34). -/
def Event.limitReport (v : Nat) (e : Event) : Event :=
  match lookup v e.net.valves, lookup v e.image.valves with
  | some x, some d =>
    let pair := limitPair d e.net
    if pair.1 && pair.2 then e.conflictReport v x
    else if x.conflict then e.afterConflict v x (shownBy pair)
    else
      match x.position with
      | .closing => if shownBy pair = some .closed then e.moveValve v .closed 0 (some .done) else e
      | .opening => if shownBy pair = some .opened then e.moveValve v .opened 0 (some .done) else e
      | .opened => e.restReport v x (shownBy pair)
      | .closed => e.restReport v x (shownBy pair)
      | .stuck => e.restReport v x (shownBy pair)
      | .unknown => e.restReport v x (shownBy pair)
  | _, _ => e

/-! ## Travel timers (R31) -/

/-- Is a valve an actuated valve under an order? -/
def isDriven (m : Image) (v : Nat) (x : Valve) : Bool :=
  ((lookup v m.valves).map (fun d => d.kind == .actuated)).getD false && isTravelling x.position

/-- The travel timer of a valve has expired (R31). -/
def Event.travelExpiry (v : Nat) (e : Event) : Event :=
  match lookup v e.net.valves with
  | none => e
  | some x =>
    if isDriven e.image v x = true ∧ x.travel = 0 then e.moveValve v .stuck 0 (some .failed) else e

/-- One travel timer at the 1 s tick (R31). -/
def Event.travelTick (v : Nat) (e : Event) : Event :=
  match lookup v e.net.valves with
  | none => e
  | some x =>
    if isDriven e.image v x then
      (e.setNet { e.net with valves := adjust v (fun y => { y with travel := y.travel - 1 }) e.net.valves }).travelExpiry v
    else e

/-- The travel timers at the 1 s tick, in valve order (assumption 25). -/
def Event.travelTicks : List Nat → Event → Event
  | [], e => e
  | v :: t, e => Event.travelTicks t (e.travelTick v)

/-! ## Requests (R26, R27, R28, R36) -/

/-- The first three checks of R36 for a crew request, then the state check, then the effect. -/
def actCrew (p : PortId) (v : Nat) (act : Valve → Option (Event → Event)) (s : State) : Answer :=
  match lookup v s.net.valves, lookup v s.cfu.image.valves with
  | some x, some d =>
    if d.kind = .actuated then refuse .badArgument s
    else if ownsClaim p x.claim s.net = false then refuse .notOwner s
    else
      match act x with
      | none => refuse .wrongState s
      | some f => taken f [] s
  | _, _ => refuse .noSuchObject s

/-- CONFIRM_CLOSED is taken in CLOSING (R26). -/
def confirmClosedIn (v : Nat) (x : Valve) : Option (Event → Event) :=
  if x.position = .closing then some (fun e => e.moveValve v .closed 0 (some .done)) else none

/-- CONFIRM_OPEN is taken in OPENING, and in CLOSING for a crew that stood down (R26). -/
def confirmOpenIn (v : Nat) (x : Valve) : Option (Event → Event) :=
  if x.position = .opening then some (fun e => e.moveValve v .opened 0 (some .done))
  else if x.position = .closing then some (fun e => e.moveValve v .opened 0 (some .failed))
  else none

/-- REPORT_INOPERABLE is taken in CLOSING and OPENING (R27). -/
def inoperableIn (v : Nat) (x : Valve) : Option (Event → Event) :=
  if isTravelling x.position then some (fun e => e.moveValve v .stuck 0 (some .failed)) else none

/-- CONFIRM_CLOSED. -/
def execConfirmClosed (p : PortId) (tag : Byte) (valve : Half) (s : State) : Host.Outcome State Fault Refusal :=
  .next (request .plan p tag (actCrew p valve.toNat (confirmClosedIn valve.toNat)) s)

/-- CONFIRM_OPEN. -/
def execConfirmOpen (p : PortId) (tag : Byte) (valve : Half) (s : State) : Host.Outcome State Fault Refusal :=
  .next (request .plan p tag (actCrew p valve.toNat (confirmOpenIn valve.toNat)) s)

/-- REPORT_INOPERABLE. -/
def execReportInoperable (p : PortId) (tag : Byte) (valve : Half) (s : State) : Host.Outcome State Fault Refusal :=
  .next (request .plan p tag (actCrew p valve.toNat (inoperableIn valve.toNat)) s)

/-- The position argument: OPEN or CLOSED (Table 9-9). -/
def positionArgument (x : Byte) : Option Position :=
  if x.toNat = 0 then some .opened else if x.toNat = 1 then some .closed else none

/-- Is the plan that claims a valve HELD? -/
def claimHeld (claim : Option Nat) (n : Net) : Bool :=
  match claim with
  | none => true
  | some k => ((lookup k n.plans).map (fun x => x.state == .held)).getD false

/-- The effect of a taken VERIFY_POSITION (R28): VALVE_STUCK is cleared before UNCOMMANDED_MOVE (assumption 25). -/
def Event.verify (v : Nat) (x : Position) (e : Event) : Event :=
  ((e.setStuck v false).setUncommanded v false).moveValve v x 0 none

/-- VERIFY_POSITION's checks (R28, R36). -/
def actVerify (p : PortId) (v : Nat) (arg : Byte) (s : State) : Answer :=
  match lookup v s.net.valves, lookup v s.cfu.image.valves with
  | some x, some d =>
    match positionArgument arg with
    | none => refuse .badArgument s
    | some y =>
      if x.claim ≠ none ∧ ownsClaim p x.claim s.net = false then refuse .notOwner s
      else if claimHeld x.claim s.net = false
          ∨ (d.kind = .actuated ∧ x.position ≠ .stuck ∧ x.position ≠ .unknown) then refuse .wrongState s
      else taken (fun e => e.verify v y) [] s
  | _, _ => refuse .noSuchObject s

/-- VERIFY_POSITION. -/
def execVerifyPosition (p : PortId) (tag : Byte) (valve : Half) (position : Byte) (s : State) :
    Host.Outcome State Fault Refusal :=
  .next (request .switching p tag (actVerify p valve.toNat position) s)

/-! ## The row of a travel timer's expiry -/

/-- TRAVEL_TIMER_EXPIRY: a timer that stands at 0 under an order (assumption 3). -/
def execTravelTimerExpiry (valve : Nat) (s : State) : Host.Outcome State Fault Refusal :=
  .next (whenRunning (event (fun e => e.travelExpiry valve)) s)

end Sys2Proof.Machine
end

