-- ==== Sys2Proof/Machine/Calls.lean ====
section
/-!
DEFINITION. The Call Register (Chapter 7): stages and deadlines, upgrades, section counters with CLUSTER and
SUSPECTED_LOSS, links to outages, freeing, and the call requests.
-/

namespace Sys2Proof.Machine

/-! ## Records -/

/-- Change the call record of a number, marking its CALL_STATE (R149). -/
def Event.call (n : Nat) (f : Call → Call) (e : Event) : Event :=
  (e.setNet { e.net with calls := mapTable (fun _ c => if c.number = n then f c else c) e.net.calls }).markCall n

/-- Change fields of a call that no CALL_STATE reports. -/
def Event.callQuietly (n : Nat) (f : Call → Call) (e : Event) : Event :=
  e.setNet { e.net with calls := mapTable (fun _ c => if c.number = n then f c else c) e.net.calls }

/-- Change the call fields of a section. -/
def Event.sectFields (k : Nat) (f : Sect → Sect) (e : Event) : Event :=
  e.setNet { e.net with sections := adjust k f e.net.sections }

/-- The numbers of the calls that meet a test, ascending. -/
def callsWhere (f : Call → Bool) (n : Net) : List Nat :=
  ascending ((n.calls.filter (fun x => f x.2)).map (fun x => x.2.number))

/-- The running stage of a call (R129). -/
def stageOf : CallState → Option Stage
  | .received => some .attend
  | .assigned => some .attend
  | .onSite => some .safe
  | .madeSafe => none

/-- Remaining time of a stage. -/
def remaining (c : Call) : Stage → Nat
  | .attend => c.attend
  | .safe => c.safe

/-- Overdue condition of a stage. -/
def overdue (c : Call) : Stage → Bool
  | .attend => c.overdueAttend
  | .safe => c.overdueSafe

def setRemaining (r : Nat) (c : Call) : Stage → Call
  | .attend => { c with attend := r }
  | .safe => { c with safe := r }

def setOverdue (b : Bool) (c : Call) : Stage → Call
  | .attend => { c with overdueAttend := b }
  | .safe => { c with overdueSafe := b }

/-- The condition of an overdue stage (R140). -/
def overdueKind : Stage → CondKind
  | .attend => .overdueAttend
  | .safe => .overdueSafe

/-- The deadline of a stage at a grade (R12). -/
def deadline (m : Image) (g : Nat) : Stage → Nat
  | .attend => attendDeadline m g
  | .safe => safeDeadline m g

/-! ## Deadlines (R139, R140) -/

/-- A deadline of a running stage expires (R140). -/
def Event.expire (n : Nat) (stage : Stage) (e : Event) : Event :=
  match callNumbered n e.net.calls with
  | none => e
  | some (_, c) =>
    ((e.callQuietly n (fun y => { setOverdue true y stage with realarm := (paramsOf e.image).realarm })).report .clr .raise
      (overdueKind stage) n).post .clr (.callDeadline n stage c.elapsed) []

/-- A re-alarm timer expires (R140). -/
def Event.realarmed (n : Nat) (stage : Stage) (e : Event) : Event :=
  match callNumbered n e.net.calls with
  | none => e
  | some (_, c) =>
    ((e.callQuietly n (fun y => { y with realarm := (paramsOf e.image).realarm })).report .clr .reraise
      (overdueKind stage) n).post .clr (.callDeadline n stage c.elapsed) []

/-- A stage whose remaining time is 0, not yet overdue, its timing not stopped, expires (R132, R142, R147). -/
def Event.expireIfDue (n : Nat) (e : Event) : Event :=
  match callNumbered n e.net.calls with
  | none => e
  | some (_, c) =>
    match stageOf c.state with
    | none => e
    | some g => if remaining c g = 0 ∧ overdue c g = false ∧ c.outage = none then e.expire n g else e

/-- A re-alarm remaining that stands at 0 under an overdue condition expires (R140). -/
def Event.realarmIfDue (n : Nat) (e : Event) : Event :=
  match callNumbered n e.net.calls with
  | none => e
  | some (_, c) =>
    match stageOf c.state with
    | none => e
    | some g => if c.realarm = 0 ∧ overdue c g = true ∧ c.outage = none then e.realarmed n g else e

/-- Stage elapsed saturates (R139). -/
def addElapsed (n : Nat) : Nat := if n < 4294967295 then n + 1 else n

/-- One call at the 1 s tick (R139). -/
def Event.callTick (n : Nat) (e : Event) : Event :=
  match callNumbered n e.net.calls with
  | none => e
  | some (_, c) =>
    match stageOf c.state, c.outage with
    | some g, none =>
      if overdue c g then
        (e.callQuietly n
          (fun y => setRemaining (remaining y g - 1)
            { y with elapsed := addElapsed y.elapsed, realarm := y.realarm - 1 } g)).realarmIfDue n
      else if remaining c g = 0 then e.callQuietly n (fun y => { y with elapsed := addElapsed y.elapsed })
      else
        (e.callQuietly n
          (fun y => setRemaining (remaining y g - 1) { y with elapsed := addElapsed y.elapsed } g)).expireIfDue n
    | _, _ => e

/-- The calls at the 1 s tick, in ascending number: for the condition reports R150's order, for their CALL_DEADLINE notices
the model's choice (R140; assumption 27). -/
def Event.callTicks : List Nat → Event → Event
  | [], e => e
  | n :: t, e => Event.callTicks t (e.callTick n)

/-! ## Upgrades (R142, R145) -/

/-- The fields of a call after an upgrade to a grade (R142). -/
def upgraded (m : Image) (g : Nat) (c : Call) : Call :=
  match stageOf c.state with
  | none => { c with grade := g, pendingGrade := none }
  | some st =>
    setRemaining (min (remaining c st) (deadline m g st - c.elapsed)) { c with grade := g, pendingGrade := none } st

/-- Upgrade a call; a grade that is not more urgent is no upgrade (R142). -/
def Event.upgrade (g : Nat) (n : Nat) (e : Event) : Event :=
  match callNumbered n e.net.calls with
  | none => e
  | some (_, c) => if g < c.grade then (e.call n (upgraded e.image g)).expireIfDue n else e

/-- Upgrade a list of calls. -/
def Event.upgrades (g : Nat) : List Nat → Event → Event
  | [], e => e
  | n :: t, e => Event.upgrades g t (e.upgrade g n)

/-- The open ODOUR calls of a section, ascending. -/
def odourCalls (k : Nat) (n : Net) : List Nat := callsWhere (fun c => c.kind == .odour && c.sect == k) n

/-- A rate-of-fall onset in a section (R145). -/
def Event.fallOnset (k : Nat) (e : Event) : Event := e.upgrades 1 (odourCalls k e.net)

/-! ## Section counters (R144, R148) -/

/-- Set CLUSTER; what is already so is not sent. -/
def Event.setCluster (k : Nat) (b : Bool) (e : Event) : Event :=
  match lookup k e.net.sections with
  | none => e
  | some x => if x.cluster = b then e else (e.sectFields k (fun y => { y with cluster := b })).signal .clr b .cluster k

/-- Set SUSPECTED_LOSS. -/
def Event.setSuspected (k : Nat) (b : Bool) (e : Event) : Event :=
  match lookup k e.net.sections with
  | none => e
  | some x =>
    if x.suspected = b then e else (e.sectFields k (fun y => { y with suspected := b })).signal .clr b .suspectedLoss k

/-- A new ODOUR call is counted, and the cluster test follows (R144). -/
def Event.odourJoins (k n : Nat) (e : Event) : Event :=
  match lookup k e.net.sections with
  | none => e
  | some x =>
    let t := (paramsOf e.image).clusterThreshold
    let g := (paramsOf e.image).clusterGrade
    let e1 := e.sectFields k (fun y => { y with odour := y.odour + 1 })
    if x.odour + 1 < t then e1
    else if x.odour < t then (e1.setCluster k true).upgrades g (odourCalls k e1.net)
    else e1.upgrade g n

/-- An ODOUR call leaves the count (R144). -/
def Event.odourLeaves (k : Nat) (e : Event) : Event :=
  match lookup k e.net.sections with
  | none => e
  | some x =>
    let e1 := e.sectFields k (fun y => { y with odour := y.odour - 1 })
    if x.odour - 1 < (paramsOf e.image).clusterThreshold then e1.setCluster k false else e1

/-- The unlinked NO_GAS count changes, and SUSPECTED_LOSS follows it (R148). -/
def Event.noGasCount (k : Nat) (f : Nat → Nat) (e : Event) : Event :=
  match lookup k e.net.sections with
  | none => e
  | some x =>
    (e.sectFields k (fun y => { y with noGas := f y.noGas })).setSuspected k
      (decide ((paramsOf e.image).noGasThreshold ≤ f x.noGas))

/-! ## Links (R109, R146, R147) -/

/-- The linked call count of an outage changes (R109). -/
def Event.countLink (o : Nat) (f : Nat → Nat) (e : Event) : Event :=
  e.setNet
    { e.net with
      outages := mapTable (fun _ x => if x.number = o then { x with linked := f x.linked } else x) e.net.outages }

/-- End the overdue conditions of a call (R134, R135, R137, R146). -/
def Event.clearOverdue (c : Call) (e : Event) : Event :=
  let e1 := if c.overdueAttend then e.report .clr .clear .overdueAttend c.number else e
  if c.overdueSafe then e1.report .clr .clear .overdueSafe c.number else e1

/-- Timing stops: an overdue condition ends and the re-alarm remaining becomes 0 (R146). -/
def stopTiming (c : Call) : Call :=
  if c.overdueAttend || c.overdueSafe then { c with overdueAttend := false, overdueSafe := false, realarm := 0 } else c

/-- Link a NO_GAS call to an outage (R146). A new call was never in the unlinked count. -/
def Event.link (o : Nat) (isNew : Bool) (n : Nat) (e : Event) : Event :=
  match callNumbered n e.net.calls with
  | none => e
  | some (_, c) =>
    let e1 := e.call n (fun y => stopTiming { y with outage := some o })
    let e2 := if isNew then e1 else e1.noGasCount c.sect (fun k => k - 1)
    (e2.clearOverdue c).countLink o (fun k => k + 1)

/-- Link a list of calls. -/
def Event.links (o : Nat) : List Nat → Event → Event
  | [], e => e
  | n :: t, e => Event.links o t (e.link o false n)

/-- A section joins an outage: its open NO_GAS calls are linked, ascending (R146). -/
def Event.linkSection (o k : Nat) (e : Event) : Event :=
  e.links o (callsWhere (fun c => c.kind == .noGas && c.sect == k && c.outage.isNone) e.net)

/-- Unlink a call (R147). -/
def Event.unlink (o : Nat) (n : Nat) (e : Event) : Event :=
  match callNumbered n e.net.calls with
  | none => e
  | some (_, c) =>
    (((e.call n (fun y => { y with outage := none })).noGasCount c.sect (fun k => k + 1)).countLink o
      (fun k => k - 1)).expireIfDue n

/-- Unlink a list of calls. -/
def Event.unlinks (o : Nat) : List Nat → Event → Event
  | [], e => e
  | n :: t, e => Event.unlinks o t (e.unlink o n)

/-- A section leaves an outage: its calls linked to it are unlinked, ascending (R147). -/
def Event.unlinkSection (o k : Nat) (e : Event) : Event :=
  e.unlinks o (callsWhere (fun c => c.sect == k && c.outage == some o) e.net)

/-! ## Freeing (R137) -/

/-- Remove the record of a number. -/
def Event.dropCall (n : Nat) (e : Event) : Event :=
  e.setNet { e.net with calls := e.net.calls.filter (fun x => x.2.number != n) }

/-- A call is freed (R137). `byRequest` is false at its outage's completion, which frees the outage record too. -/
def Event.freeCall (how : CallEnd) (byRequest : Bool) (n : Nat) (e : Event) : Event :=
  match callNumbered n e.net.calls with
  | none => e
  | some (_, c) =>
    let e1 := (e.clearOverdue c).dropCall n
    let e2 :=
      match c.kind, c.outage with
      | .odour, _ => e1.odourLeaves c.sect
      | .noGas, none => e1.noGasCount c.sect (fun k => k - 1)
      | .noGas, some o => if byRequest then e1.countLink o (fun k => k - 1) else e1
    (e2.forgetCall n).markFreed c how

/-- Free a list of calls at their outage's completion (R147). -/
def Event.completeCalls : List Nat → Event → Event
  | [], e => e
  | n :: t, e => Event.completeCalls t (e.freeCall .closed false n)

/-! ## CALL_NEW (R130 to R132) -/

/-- The outage whose member a section is, if any. -/
def outageOf (k : Nat) : Table Outage → Option Outage
  | [] => none
  | (_, o) :: t => if o.members.any (fun x => x.sect == k) then some o else outageOf k t

/-- The next call number (R130). -/
def nextCall (n : Net) : Nat := nextNumber (n.calls.map (fun x => x.2.number)) (n.calls.length + 1) n.lastCall

/-- The record of a new call (R132, steps 1 to 3). -/
def newCall (m : Image) (clock : Word) (number : Nat) (kind : CallKind) (sect grade : Nat) (location : Word)
    (receipt : Option Word) : Call :=
  let elapsed := match receipt with | some t => (clock - t).toNat | none => 0
  { number := number, kind := kind, sect := sect, grade := grade, pendingGrade := none, state := .received,
    location := location, crew := none, received := receipt.getD clock, arrival := none, elapsed := elapsed,
    attend := attendDeadline m grade - elapsed, safe := 0, realarm := 0, overdueAttend := false, overdueSafe := false,
    outage := none }

/-- Step 4 of R132: counted, or linked. -/
def Event.enterCall (c : Call) (e : Event) : Event :=
  match c.kind with
  | .odour => e.odourJoins c.sect c.number
  | .noGas =>
    match outageOf c.sect e.net.outages with
    | some o => e.link o.number true c.number
    | none => e.noGasCount c.sect (fun k => k + 1)

/-- The event of a taken CALL_NEW (R132). -/
def Event.newCall (idx : Nat) (c : Call) (e : Event) : Event :=
  ((((e.setNet { e.net with calls := put idx c e.net.calls, lastCall := c.number }).markCall c.number).enterCall
    c).expireIfDue c.number)

/-- The response body of CALL_NEW: number, grade in force after the event, linked outage (R131). -/
def newCallBody (n : Nat) (net : Net) : List Byte :=
  match callNumbered n net.calls with
  | none => be16 n ++ be8 0 ++ optNumber none
  | some (_, c) => be16 n ++ be8 c.grade ++ optNumber c.outage

/-- The receipt time given, by its presence byte; `none` where the byte is neither 0 nor 1 (R179). The time's own bytes
are not judged where it is absent (assumption 24). -/
def receiptOf (present : Byte) (t : Word) : Option (Option Word) :=
  if present.toNat = 0 then some none else if present.toNat = 1 then some (some t) else none

/-- CALL_NEW's checks and effect (R131, R132). The presence byte is judged with the time (assumption 24). Its reports go
out in the order of R132's steps: those of the cluster's calls, then the new call's own expiry (R150). -/
def actCallNew (kind : Byte) (sect : Nat) (grade : Byte) (location : Word) (present : Byte) (receipt : Word)
    (s : State) : Answer :=
  match callKindOf kind.toNat with
  | none => refuse .badArgument s
  | some k =>
    if grade.toNat < 1 ∨ 3 < grade.toNat then refuse .badArgument s
    else if (lookup sect s.net.sections).isNone then refuse .noSuchObject s
    else
      match receiptOf present receipt with
      | none => refuse .badArgument s
      | some t =>
        if t.isSome ∧ (s.tbu.clockSet = false ∨ s.tbu.clock < receipt) then refuse .badArgument s
        else
          match lowestFree s.net.calls 0 Config.callRecords with
          | none => refuse .tableFull s
          | some idx =>
            let n := nextCall s.net
            let s1 := finishAsMade
              ((Event.start s).newCall idx (newCall s.cfu.image s.tbu.clock n k sect grade.toNat location t)) s
            (s1, .ok, newCallBody n s1.net)

/-- CALL_NEW. -/
def execCallNew (p : PortId) (tag : Byte) (kind : Byte) (sect : Half) (grade : Byte) (location : Word) (present : Byte)
    (receipt : Word) (s : State) : Host.Outcome State Fault Refusal :=
  .next (request .call p tag (actCallNew kind sect.toNat grade location present receipt) s)

/-! ## The other call requests (§7.3) -/

/-- The checks of §7.3: number in range, held, state taken; then the request's own check and effect. -/
def actCall (n : Nat) (takes : Call → Bool) (act : Call → State → Answer) (s : State) : Answer :=
  if n = 0 then refuse .badArgument s
  else
    match callNumbered n s.net.calls with
    | none => refuse .noSuchObject s
    | some (_, c) => if takes c then act c s else refuse .wrongState s

/-- Is a call RECEIVED or ASSIGNED? -/
def beforeArrival (c : Call) : Bool := c.state == .received || c.state == .assigned

/-- CALL_ASSIGN's effect (R133). -/
def assignCall (n : Nat) (crew : Word) (c : Call) (s : State) : Answer :=
  if c.state = .assigned ∧ c.crew = some crew then taken (fun e => e) [] s
  else taken (fun e => e.call n (fun y => { y with crew := some crew, state := .assigned })) [] s

/-- The fields of a call after CALL_ARRIVED (R134). -/
def arrived (m : Image) (clock : Word) (c : Call) : Call :=
  let g := c.pendingGrade.getD c.grade
  { c with
    arrival := some clock
    overdueAttend := false
    grade := g
    pendingGrade := none
    elapsed := 0
    safe := safeDeadline m g
    realarm := 0
    state := .onSite }

/-- The fields of a call after CALL_MADE_SAFE (R135). -/
def madeSafe (c : Call) : Call :=
  { c with
    overdueSafe := false
    realarm := 0
    grade := c.pendingGrade.getD c.grade
    pendingGrade := none
    state := .madeSafe }

/-- CALL_ARRIVED's effect (R134). -/
def arriveCall (n : Nat) (c : Call) (s : State) : Answer :=
  taken (fun e => (e.clearOverdue c).call n (arrived s.cfu.image s.tbu.clock)) [] s

/-- CALL_MADE_SAFE's effect (R135). -/
def safeCall (n : Nat) (c : Call) (s : State) : Answer := taken (fun e => (e.clearOverdue c).call n madeSafe) [] s

/-- CALL_CLOSE and CALL_CANCEL after the state check (R136). -/
def endCall (n : Nat) (how : CallEnd) (_c : Call) (s : State) : Answer :=
  if planOpen n s.net then refuse .planOpen s else taken (fun e => e.freeCall how true n) [] s

/-- Is CALL_CLOSE taken (R136)? -/
def closable (c : Call) : Bool := c.kind == .noGas || c.state == .madeSafe

/-- The effect of CALL_REGRADE on the call (R141, R143). -/
def Event.regrade (n g : Nat) (c : Call) (e : Event) : Event :=
  if g < c.grade then e.upgrade g n
  else if g = c.grade then (if c.pendingGrade = none then e else e.call n (fun y => { y with pendingGrade := none }))
  else if c.state = .madeSafe then e.call n (fun y => { y with grade := g })
  else if c.pendingGrade = some g then e
  else e.call n (fun y => { y with pendingGrade := some g })

/-- CALL_REGRADE's own check and effect (R141). -/
def regradeCall (n : Nat) (grade : Byte) (c : Call) (s : State) : Answer :=
  if grade.toNat < 1 ∨ 3 < grade.toNat then refuse .badArgument s
  else taken (fun e => e.regrade n grade.toNat c) [] s

/-- CALL_ASSIGN. -/
def execCallAssign (p : PortId) (tag : Byte) (call : Half) (crew : Word) (s : State) : Host.Outcome State Fault Refusal :=
  .next (request .call p tag (actCall call.toNat beforeArrival (assignCall call.toNat crew)) s)

/-- CALL_ARRIVED. -/
def execCallArrived (p : PortId) (tag : Byte) (call : Half) (s : State) : Host.Outcome State Fault Refusal :=
  .next (request .call p tag (actCall call.toNat beforeArrival (arriveCall call.toNat)) s)

/-- CALL_MADE_SAFE. -/
def execCallMadeSafe (p : PortId) (tag : Byte) (call : Half) (s : State) : Host.Outcome State Fault Refusal :=
  .next (request .call p tag (actCall call.toNat (fun c => c.state == .onSite) (safeCall call.toNat)) s)

/-- CALL_CLOSE. -/
def execCallClose (p : PortId) (tag : Byte) (call : Half) (s : State) : Host.Outcome State Fault Refusal :=
  .next (request .call p tag (actCall call.toNat closable (endCall call.toNat .closed)) s)

/-- CALL_CANCEL. -/
def execCallCancel (p : PortId) (tag : Byte) (call : Half) (s : State) : Host.Outcome State Fault Refusal :=
  .next (request .call p tag (actCall call.toNat beforeArrival (endCall call.toNat .cancelled)) s)

/-- CALL_REGRADE. -/
def execCallRegrade (p : PortId) (tag : Byte) (call : Half) (grade : Byte) (s : State) :
    Host.Outcome State Fault Refusal :=
  .next (request .call p tag (actCall call.toNat (fun _ => true) (regradeCall call.toNat grade)) s)

/-! ## The rows of the Call Register's expiries -/

/-- DEADLINE_EXPIRY: a running stage whose time stands at 0 (assumption 3). -/
def execDeadlineExpiry (call : Nat) (s : State) : Host.Outcome State Fault Refusal :=
  .next (whenRunning (event (fun e => e.expireIfDue call)) s)

/-- REALARM_EXPIRY: a re-alarm remaining that stands at 0 under an overdue condition (assumption 3). -/
def execRealarmExpiry (call : Nat) (s : State) : Host.Outcome State Fault Refusal :=
  .next (whenRunning (event (fun e => e.realarmIfDue call)) s)

end Sys2Proof.Machine
end

