-- ==== Sys2Proof/Machine/Points.lean ====
section
/-!
DEFINITION. The Pressure Supervisor's own work (Chapter 6): scaling, ring, candidate band and persistence, rate of fall,
listed conditions, suppression, what a sample or an expiry makes of a point record, and SET_LIMITS. What its neighbours
do with its reports stands in Outages.lean.
-/

namespace Sys2Proof.Machine

/-! ## Records -/

/-- Change a point record. -/
def Event.point (n : Nat) (f : Point → Point) (e : Event) : Event :=
  e.setNet { e.net with points := adjust n f e.net.points }

/-- Effective limits LL', L', H', HH' by the present band (Table 6-3). -/
def effectiveLimits (d : PointDef) (b : Band) : Nat × Nat × Nat × Nat :=
  let up (v : Nat) := min (v + d.deadband) 65535
  match b with
  | .unset => (d.ll, d.l, d.h, d.hh)
  | .normal => (d.ll, d.l, d.h, d.hh)
  | .low => (d.ll, up d.l, d.h, d.hh)
  | .lowlow => (up d.ll, up d.l, d.h, d.hh)
  | .high => (d.ll, d.l, d.h - d.deadband, d.hh)
  | .highhigh => (d.ll, d.l, d.h - d.deadband, d.hh - d.deadband)

/-- The candidate band of a value (R118). -/
def candidateBand (d : PointDef) (b : Band) (v : Nat) : Band :=
  let x := effectiveLimits d b
  if v < x.1 then .lowlow else if v < x.2.1 then .low else if x.2.2.2 < v then .highhigh
  else if x.2.2.1 < v then .high else .normal

/-- Persistence (R119): band, pending band and agreement count after a candidate. -/
def persist (p : Nat) (c : Band) (x : Point) : Point :=
  if c = x.band then { x with candidate := none, agreement := 0 }
  else
    let k := if x.candidate = some c then x.agreement + 1 else 1
    if p ≤ k then { x with band := c, candidate := none, agreement := 0 }
    else { x with candidate := some c, agreement := k }

/-- Sum of deltas, exact (R121). -/
def sumOf : List Int → Int
  | [] => 0
  | d :: t => d + sumOf t

/-- The fall latch after a sample (R121). -/
def fallLatch (w t : Nat) (ring : List Int) (latch : Bool) : Bool :=
  if ring.length < w then latch
  else if latch then !decide (-((t / 2 : Nat) : Int) < sumOf (ring.take w))
  else decide (sumOf (ring.take w) ≤ -(t : Int))

/-- The scaled value (R114). -/
def scaled (d : PointDef) (raw : Nat) : Nat := saturate ((raw : Int) + d.offset)

/-- The ring after a new value (R115). -/
def pushDelta (previous : Option Nat) (v : Nat) (ring : List Int) : List Int :=
  match previous with
  | none => ring
  | some u => (saturateDelta ((v : Int) - (u : Int)) :: ring).take Config.historyRing

/-- Steps 1 to 6 of R124: value, delta, timer and freshness, band, latch. -/
def sampled (d : PointDef) (raw age sampleTime : Nat) (x : Point) : Point :=
  let v := scaled d raw
  let y := persist d.persistence (candidateBand d x.band v)
    { x with
      value := some v
      lastSample := sampleTime
      ring := pushDelta x.value v x.ring
      timer := d.period - age
      fresh := true }
  { y with latch := fallLatch d.window d.threshold y.ring y.latch }

/-- A point that goes stale (R117). -/
def staled (x : Point) : Point :=
  { x with
    fresh := false
    value := none
    ring := []
    band := .unset
    candidate := none
    agreement := 0
    latch := false }

/-! ## Listed conditions (R120, R122) -/

/-- A condition of a point as it should stand at the Alarm List Unit (Table 6-4, R122). STALE is underlying while the
timer has expired and no sample was taken since. -/
def wanted (x : Point) : CondKind → Bool
  | .lowBand => (x.band == .low || x.band == .lowlow) && !x.suppressed
  | .lowlowBand => x.band == .lowlow && !x.suppressed
  | .highBand => x.band == .high || x.band == .highhigh
  | .highhighBand => x.band == .highhigh
  | .rateOfFall => x.latch && !x.suppressed
  | .stale => !x.fresh && x.timer == 0
  | _ => false

/-- The listed state of a condition. -/
def listed (x : Point) : CondKind → Bool
  | .lowBand => x.lowListed
  | .lowlowBand => x.lowlowListed
  | .highBand => x.highListed
  | .highhighBand => x.highhighListed
  | .rateOfFall => x.fallListed
  | .stale => x.staleListed
  | _ => false

def setListed (b : Bool) (x : Point) : CondKind → Point
  | .lowBand => { x with lowListed := b }
  | .lowlowBand => { x with lowlowListed := b }
  | .highBand => { x with highListed := b }
  | .highhighBand => { x with highhighListed := b }
  | .rateOfFall => { x with fallListed := b }
  | .stale => { x with staleListed := b }
  | _ => x

/-- The six conditions of a point, in code order. -/
def pointKinds : List CondKind := [.lowBand, .lowlowBand, .highBand, .highhighBand, .rateOfFall, .stale]

/-- The six conditions in the order of a staleness expiry: STALE is raised first, the five others cleared last (R117). -/
def staleKinds : List CondKind := [.stale, .lowBand, .lowlowBand, .highBand, .highhighBand, .rateOfFall]

/-- One condition takes its listed state; a change is sent (R122). -/
def Event.relistOne (n : Nat) (k : CondKind) (e : Event) : Event :=
  match lookup n e.net.points with
  | none => e
  | some x =>
    if listed x k = wanted x k then e
    else (e.point n (fun y => setListed (wanted x k) y k)).signal .psv (wanted x k) k n

/-- A list of conditions takes its listed state, in its order. -/
def Event.relistAll (n : Nat) : List CondKind → Event → Event
  | [], e => e
  | k :: t, e => Event.relistAll n t (e.relistOne n k)

/-- Is RATE_OF_FALL listed? -/
def fallIsListed (n : Nat) (net : Net) : Bool := ((lookup n net.points).map Point.fallListed).getD false

/-- Relist a point's conditions (R122), in code order (assumption 21). -/
def Event.relist (n : Nat) (e : Event) : Event := e.relistAll n pointKinds

/-! ## Suppression (R110, R123) -/

/-- One point takes a suppression status; a RATE_OF_FALL that is raised is an onset in its section (R123, R127). -/
def Event.suppressPoint (b : Bool) (n : Nat) (e : Event) : Event :=
  match lookup n e.net.points, lookup n e.image.points with
  | some x, some d =>
    if x.suppressed = b then e
    else
      let e1 := (e.point n (fun y => { y with suppressed := b })).relist n
      if fallIsListed n e1.net && !x.fallListed then e1.fallOnset d.sect else e1
  | _, _ => e

/-- A list of points takes a suppression status. -/
def Event.suppressPoints (b : Bool) : List Nat → Event → Event
  | [], e => e
  | n :: t, e => Event.suppressPoints b t (e.suppressPoint b n)

/-- The Outage Table's report for a section (R110). -/
def Event.suppress (sect : Nat) (b : Bool) (e : Event) : Event := e.suppressPoints b (pointsOf e.image sect)

/-- The Outage Table's reports for several sections whose status changes at one event (R110, R123). Their points take it
in ascending point index, whichever sections they are in: for the condition reports R150's order, for the onsets to the
Call Register the model's choice (R127; assumption 33). -/
def Event.suppressAll (b : Bool) (sections : List Nat) (e : Event) : Event :=
  e.suppressPoints b (ascending (sections.flatMap (pointsOf e.image)))

/-! ## SET_LIMITS (R128) -/

/-- Does a definition of limits satisfy R8? -/
def limitsValid (ll l h hh deadband persistence : Nat) : Bool :=
  ll ≤ l && l ≤ h && h ≤ hh && deadband ≤ 6553 && 1 ≤ persistence && persistence ≤ 8

/-- SET_LIMITS's checks and effect (R8, R128). -/
def actSetLimits (n ll l h hh deadband k : Nat) (s : State) : Answer :=
  match lookup n s.net.points with
  | none => refuse .noSuchObject s
  | some _ =>
    if limitsValid ll l h hh deadband (orDefault k Config.persistence) = false then refuse .badArgument s
    else
      let f (d : PointDef) : PointDef :=
        { d with ll := ll, l := l, h := h, hh := hh, deadband := deadband, persistence := orDefault k Config.persistence }
      ({ s with
         cfu := { s.cfu with image := { s.cfu.image with points := adjust n f s.cfu.image.points } }
         net := { s.net with points := adjust n (fun x => { x with candidate := none, agreement := 0 }) s.net.points } },
       .ok, [])

/-- SET_LIMITS. -/
def execSetLimits (p : PortId) (tag : Byte) (point : Byte) (ll l h hh deadband : Half) (persistence : Byte)
    (s : State) : Host.Outcome State Fault Refusal :=
  .next (request .switching p tag
    (actSetLimits point.toNat ll.toNat l.toNat h.toNat hh.toNat deadband.toNat persistence.toNat) s)

end Sys2Proof.Machine
end

