-- ==== Sys2Proof/Machine/Outages.lean ====
section
/-!
DEFINITION. The Outage Table (Chapter 5), and the events of the Pressure Supervisor that reach it: samples (R112 to R116)
and staleness (R117).
-/

namespace Sys2Proof.Machine

/-! ## Records -/

/-- Change the outage record of a number, marking its OUTAGE_STATE (R108). -/
def Event.outage (n : Nat) (f : Outage → Outage) (e : Event) : Event :=
  (e.setNet { e.net with outages := mapTable (fun _ o => if o.number = n then f o else o) e.net.outages }).markOutage n

/-- Change fields of an outage that no notice reports: holds, confirmations, links, RELAPSE (R108). -/
def Event.outageQuietly (n : Nat) (f : Outage → Outage) (e : Event) : Event :=
  e.setNet { e.net with outages := mapTable (fun _ o => if o.number = n then f o else o) e.net.outages }

/-- The outage of a number. -/
def outageAt (n : Nat) (net : Net) : Option Outage := (outageNumbered n net.outages).map (fun x => x.2)

/-- The member sections of an outage, ascending. -/
def memberSections (o : Outage) : List Nat := o.members.map Member.sect

/-- Does an outage in a state suppress its members' points (R110)? -/
def suppresses : OutageState → Bool
  | .declared => false
  | .active => true
  | .recharging => true
  | .relighting => false

/-- Published state of a section; a section without a record is UNCERTAIN (R47). -/
def supplyAt (n : Net) (k : Nat) : Supply := ((lookup k n.sections).map Sect.supply).getD .uncertain

/-- Is a point fresh in band LOWLOW? -/
def isFreshLow (x : Point) : Bool := x.fresh && x.band == .lowlow

/-- The point records of a section. -/
def pointRecords (m : Image) (n : Net) (k : Nat) : List Point := (pointsOf m k).filterMap (fun i => lookup i n.points)

/-- Has a section a fresh point in band LOWLOW (R98)? -/
def hasFreshLow (m : Image) (n : Net) (k : Nat) : Bool := (pointRecords m n k).any isFreshLow

/-- Is a member qualifying (R99)? -/
def qualifying (m : Image) (n : Net) (k : Nat) : Bool :=
  let fresh := (pointRecords m n k).filter Point.fresh
  !fresh.isEmpty && fresh.all (fun x => x.band == .normal)

/-! ## Flags of a section (R48, R95) -/

/-- Set UNRECORDED_LOSS; what is already so is not sent (R95). -/
def Event.setUnrecorded (k : Nat) (b : Bool) (e : Event) : Event :=
  match lookup k e.net.sections with
  | none => e
  | some x =>
    if x.unrecorded = b then e else (e.sectFields k (fun y => { y with unrecorded := b })).signal .ogt b .unrecordedLoss k

/-- The awaiting-outage flag is cleared at a join, and UNRECORDED_LOSS with it (R48, R88, R95). -/
def Event.stopAwaiting (k : Nat) (e : Event) : Event :=
  match lookup k e.net.sections with
  | none => e
  | some x => if x.awaiting then (e.sectFields k (fun y => { y with awaiting := false })).setUnrecorded k false else e

/-- The awaiting-outage flag is set at a leave (R48, R89). -/
def Event.startAwaiting (k : Nat) (e : Event) : Event := e.sectFields k (fun y => { y with awaiting := true })

/-- The sections whose awaiting-outage flag is set, ascending. -/
def waiting (n : Net) : List Nat := keys (n.sections.filter (fun x => x.2.awaiting))

/-! ## Joins and leaves (R88, R89, R90) -/

/-- Insert a member at its place in ascending index. -/
def insertMember (k : Nat) (l : List Member) : List Member :=
  insertBy (fun a b => decide (a.sect ≤ b.sect)) { sect := k, hold := 0, confirmed := false } l

/-- The fields of an outage after a join of a section (R88, R90). -/
def joined (m : Image) (k : Nat) (o : Outage) : Outage :=
  { o with
    members := insertMember k o.members
    affected := o.affected + premisesOf m k
    off := o.off + premisesOf m k
    priority := o.priority + priorityPremisesOf m k }

/-- The fields of an outage after a leave: premises are taken from off, then relit, then no-access (R89, R90). -/
def left (m : Image) (k : Nat) (o : Outage) : Outage :=
  let p := premisesOf m k
  let a := min p o.off
  let b := min (p - a) o.relit
  { o with
    members := o.members.filter (fun x => x.sect != k)
    affected := o.affected - p
    off := o.off - a
    relit := o.relit - b
    noAccess := o.noAccess - (p - a - b)
    priority := o.priority - priorityPremisesOf m k }

/-- A section joins an outage (R88). -/
def Event.join (n k : Nat) (e : Event) : Event :=
  match outageAt n e.net with
  | none => e
  | some o =>
    let e1 := ((e.outage n (joined e.image k)).stopAwaiting k).linkSection n k
    if suppresses o.state then e1.suppress k true else e1

/-- A section leaves an outage (R89). -/
def Event.leave (n k : Nat) (e : Event) : Event :=
  match outageAt n e.net with
  | none => e
  | some o =>
    let e1 := e.outage n (left e.image k)
    let e2 := if supplyAt e.net k = .unsupplied then e1.startAwaiting k else e1
    let e3 := e2.unlinkSection n k
    if suppresses o.state then e3.suppress k false else e3

/-- Joins of a list of sections. -/
def Event.joins (n : Nat) : List Nat → Event → Event
  | [], e => e
  | k :: t, e => Event.joins n t (e.join n k)

/-- Leaves of a list of sections. -/
def Event.leaves (n : Nat) : List Nat → Event → Event
  | [], e => e
  | k :: t, e => Event.leaves n t (e.leave n k)

/-! ## State rules (R97, R98, R100, R102, R104, R105) -/

/-- DECLARED becomes ACTIVE where a member is UNSUPPLIED (R97). -/
def Event.ruleDeclared (n : Nat) (e : Event) : Event :=
  match outageAt n e.net with
  | none => e
  | some o =>
    if o.state = .declared ∧ (memberSections o).any (fun k => supplyAt e.net k == .unsupplied) = true then
      (e.outage n (fun x => { x with state := .active })).suppressAll true (memberSections o)
    else e

/-- The members of an outage, each with a full hold and no confirmation (R98). -/
def loadHolds (h : Nat) (l : List Member) : List Member := l.map (fun x => { x with hold := h, confirmed := false })

/-- ACTIVE becomes RECHARGING where every member is SUPPLIED and none has a fresh LOWLOW point (R98). -/
def Event.ruleActive (n : Nat) (e : Event) : Event :=
  match outageAt n e.net with
  | none => e
  | some o =>
    if o.state = .active
        ∧ (memberSections o).all (fun k => supplyAt e.net k == .supplied && !hasFreshLow e.image e.net k) = true then
      e.outage n (fun x =>
        { x with state := .recharging, members := loadHolds (paramsOf e.image).rechargeHold x.members })
    else e

/-- RECHARGING returns to ACTIVE where a member has left SUPPLIED (R100). -/
def Event.ruleRecharging (n : Nat) (e : Event) : Event :=
  match outageAt n e.net with
  | none => e
  | some o =>
    if o.state = .recharging ∧ (memberSections o).any (fun k => supplyAt e.net k != .supplied) = true then
      e.outage n (fun x => { x with state := .active, members := loadHolds 0 x.members })
    else e

/-- Set RELAPSE; what is already so is not sent (R105). -/
def Event.setRelapse (n : Nat) (b : Bool) (e : Event) : Event :=
  match outageAt n e.net with
  | none => e
  | some o =>
    if o.relapse = b then e else (e.outageQuietly n (fun x => { x with relapse := b })).signal .ogt b .relapse n

/-- A relapse (R104). -/
def Event.relapse (n : Nat) (e : Event) : Event :=
  match outageAt n e.net with
  | none => e
  | some o =>
    if o.state = .relighting then
      ((e.outage n (fun x =>
          { x with state := .active, off := x.off + x.relit, relit := 0, members := loadHolds 0 x.members })).setRelapse n
        true).suppressAll true (memberSections o)
    else e

/-- RELIGHTING relapses where a member is no longer SUPPLIED (R104). -/
def Event.ruleRelighting (n : Nat) (e : Event) : Event :=
  match outageAt n e.net with
  | none => e
  | some o => if (memberSections o).any (fun k => supplyAt e.net k != .supplied) then e.relapse n else e

/-! ## Creation and gathering (R87, R91, R94) -/

/-- The next outage number (R87). -/
def nextOutage (n : Net) : Nat :=
  nextNumber (n.outages.map (fun x => x.2.number)) (n.outages.length + 1) n.lastOutage

/-- A new outage without members (R91, R94). -/
def newOutage (number : Nat) (cause : Cause) (st : OutageState) (plan : Option Nat) (clock : Word) : Outage :=
  { number := number, cause := cause, state := st, members := [], affected := 0, priority := 0, off := 0, relit := 0,
    noAccess := 0, plan := plan, linked := 0, created := clock, relapse := false }

/-- Create an outage in the lowest-indexed free record, and join sections to it, in the order given (R87). -/
def Event.createOutage (idx : Nat) (cause : Cause) (st : OutageState) (plan : Option Nat) (sections : List Nat)
    (e : Event) : Event :=
  let n := nextOutage e.net
  ((e.setNet
      { e.net with
        outages := put idx (newOutage n cause st plan e.clock) e.net.outages
        lastOutage := n }).markOutage n).joins n sections

/-- The groups of a gathering, while a record is free (R94). -/
def Event.gatherGroups : List (List Nat) → Event → Event
  | [], e => e
  | g :: t, e =>
    match lowestFree e.net.outages 0 Config.outageRecords with
    | none => e
    | some idx => Event.gatherGroups t (e.createOutage idx .supplyLoss .active none g)

/-- Every section still waiting raises UNRECORDED_LOSS (R95). -/
def Event.raiseUnrecorded : List Nat → Event → Event
  | [], e => e
  | k :: t, e => Event.raiseUnrecorded t (e.setUnrecorded k true)

/-- Gathering (R94). -/
def Event.gather (e : Event) : Event :=
  let l := waiting e.net
  let e1 := Event.gatherGroups (groupsOf Config.outageMembers l.length l) e
  Event.raiseUnrecorded (waiting e1.net) e1

/-! ## Freeing (R106, R107) -/

/-- Remove the record of a number. -/
def Event.dropOutage (n : Nat) (e : Event) : Event :=
  e.setNet { e.net with outages := e.net.outages.filter (fun x => x.2.number != n) }

/-- The plan that an outage names learns that its outage is freed (R84, R106, R107). -/
def Event.unlinkOutage (o : Outage) (e : Event) : Event :=
  match o.plan with
  | none => e
  | some p => (e.outageQuietly o.number (fun x => { x with plan := none })).unlinkPlan p

/-- Relighting is complete; gathering is left to the end of the Outage Table's event (R106). -/
def Event.complete (n : Nat) (e : Event) : Event :=
  match outageAt n e.net with
  | none => e
  | some o =>
    (((((Event.completeCalls (callsWhere (fun c => c.outage == some n) e.net) e).unlinkOutage o).setRelapse n
      false).leaves n (memberSections o)).markClosed n o.off).dropOutage n

/-- An outage is freed without completing its relighting; gathering is left to the end of the Outage Table's event
(R107). `byTrim` is false where the plan itself is freed. The remaining members leave in the order of the member list,
ascending section index, which is the model's choice: R93 gives that order to a trim alone (assumption 34). -/
def Event.abandon (byTrim : Bool) (n : Nat) (e : Event) : Event :=
  match outageAt n e.net with
  | none => e
  | some o =>
    let e1 := (e.leaves n (memberSections o)).setRelapse n false
    ((if byTrim then e1.unlinkOutage o else e1).markClosed n (((outageAt n e1.net).map Outage.off).getD 0)).dropOutage n

/-- RECHARGING becomes RELIGHTING once every member is confirmed, and is freed where nothing is off (R102). -/
def Event.ruleConfirmed (n : Nat) (e : Event) : Event :=
  match outageAt n e.net with
  | none => e
  | some o =>
    if o.state = .recharging ∧ o.members.all Member.confirmed = true then
      let e1 := ((e.outage n (fun x => { x with state := .relighting })).setRelapse n false).suppressAll false
        (memberSections o)
      if o.off = 0 then e1.complete n else e1
    else e

/-- The state rules after a trim that leaves members (R93). -/
def Event.ruleTrimmed (n : Nat) (e : Event) : Event :=
  match outageAt n e.net with
  | none => e
  | some o =>
    match o.state with
    | .declared => e
    | .active => e.ruleActive n
    | .recharging => e.ruleConfirmed n
    | .relighting => if o.off = 0 then e.complete n else e

/-- A trim (R93). -/
def Event.trim (n : Nat) (sections : List Nat) (e : Event) : Event :=
  if sections = [] then e
  else
    let e1 := e.leaves n sections
    match outageAt n e1.net with
    | none => e1
    | some o => (if o.members = [] then e1.abandon true n else e1.ruleTrimmed n).gather

/-! ## Publication (R96) -/

/-- The outage numbers that meet a test, ascending. -/
def outagesWhere (f : Outage → Bool) (n : Net) : List Nat :=
  ascending ((n.outages.filter (fun x => f x.2)).map (fun x => x.2.number))

/-- The state rule of an outage's present state (R96). -/
def Event.rulePublished (n : Nat) (e : Event) : Event :=
  match outageAt n e.net with
  | none => e
  | some o =>
    match o.state with
    | .declared => e.ruleDeclared n
    | .active => e.ruleActive n
    | .recharging => e.ruleRecharging n
    | .relighting => e.ruleRelighting n

/-- The state rules of a list of outages. -/
def Event.rulesPublished : List Nat → Event → Event
  | [], e => e
  | n :: t, e => Event.rulesPublished t (e.rulePublished n)

/-- Clear UNRECORDED_LOSS of a list of sections. -/
def Event.clearUnrecorded : List Nat → Event → Event
  | [], e => e
  | k :: t, e => Event.clearUnrecorded t (e.setUnrecorded k false)

/-- The Outage Table takes a publication: sections whose flag was cleared, sections changed (R96). Several outages take
their state rules in ascending outage number (assumption 26). -/
def Event.takePublication (cleared changed : List Nat) (e : Event) : Event :=
  let e1 := Event.clearUnrecorded cleared e
  (Event.rulesPublished
    (outagesWhere (fun o => (memberSections o).any (fun k => changed.contains k)) e1.net) e1).gather

/-! ## Point reports (R98, R99, R104, R125) -/

/-- The hold of one member of an outage is loaded (R99). -/
def reloadHold (k h : Nat) (o : Outage) : Outage :=
  { o with
    members := o.members.map (fun x => if x.sect = k ∧ x.confirmed = false then { x with hold := h } else x) }

/-- A report of a change of band or freshness: section, whether it entered LOWLOW while fresh, and whether the point left
LOWLOW or went stale (R125). -/
def Event.pointReport (k : Nat) (entered leftLow : Bool) (e : Event) : Event :=
  match outageOf k e.net.outages with
  | none => e
  | some o =>
    match o.state with
    | .declared => e
    | .active => if leftLow then e.ruleActive o.number else e
    | .recharging =>
      if qualifying e.image e.net k then e
      else e.outageQuietly o.number (reloadHold k (paramsOf e.image).rechargeHold)
    | .relighting => if entered then e.relapse o.number else e

/-- The reports of R125 to R127 from a point's record before and after one sample or expiry, and from whether the event
listed RATE_OF_FALL (R124, assumption 21). -/
def Event.pointReports (n : Nat) (d : PointDef) (x y : Point) (onset : Bool) (e : Event) : Event :=
  let e1 :=
    if x.band = y.band ∧ x.fresh = y.fresh then e
    else
      e.pointReport d.sect (isFreshLow y && !isFreshLow x)
        ((isFreshLow x && !isFreshLow y) || (x.fresh && !y.fresh))
  let e2 := if isFreshLow x = isFreshLow y then e1 else e1.outlet n (isFreshLow y)
  if onset then e2.fallOnset d.sect else e2

/-- A point takes a new record: conditions relisted in the order given, reports made (R117, R122, R124). -/
def Event.repoint (kinds : List CondKind) (n : Nat) (d : PointDef) (x y : Point) (e : Event) : Event :=
  let e1 := (e.point n (fun _ => y)).relistAll n kinds
  e1.pointReports n d x y (fallIsListed n e1.net && !x.fallListed)

/-! ## Samples (R112 to R116) -/

/-- What becomes of an entry (R113). -/
inductive Verdict where
  | taken | undefined | tooOld | outOfOrder
  deriving DecidableEq, Repr

/-- An entry of a batch: point index, raw value, age (R112). -/
structure Sample where
  point : Nat
  raw : Nat
  age : Nat
  deriving DecidableEq, Repr

/-- Entries of four bytes; `none` where the body is no whole number of them (R112). -/
def samplesOf : List Byte → Option (List Sample)
  | [] => some []
  | a :: b :: c :: d :: t =>
    (samplesOf t).map (fun l => { point := nat8 a, raw := nat16 b c, age := nat8 d } :: l)
  | _ => none

/-- The checks of R113. -/
def judge (m : Image) (uptime : Word) (n : Net) (x : Sample) : Verdict :=
  match lookup x.point n.points, lookup x.point m.points with
  | some p, some d =>
    if d.period ≤ x.age then .tooOld
    else if uptime.toNat < p.lastSample + x.age then .outOfOrder
    else .taken
  | _, _ => .undefined

/-- One entry (R113 to R116, R124). -/
def Event.sample (x : Sample) (e : Event) : Event :=
  match judge e.image e.uptime e.net x, lookup x.point e.net.points, lookup x.point e.image.points with
  | .taken, some p, some d => e.repoint pointKinds x.point d p (sampled d x.raw x.age (e.uptime.toNat - x.age) p)
  | _, _, _ => e

/-- The entries of a batch, one after another, and the verdicts (R112). -/
def Event.samples : List Sample → Event → Event × List Verdict
  | [], e => (e, [])
  | x :: t, e =>
    let r := Event.samples t (e.sample x)
    (r.1, judge e.image e.uptime e.net x :: r.2)

/-- The four counts (R112). -/
def verdictBytes (l : List Verdict) : List Byte :=
  be8 (l.count .taken) ++ be8 (l.count .undefined) ++ be8 (l.count .tooOld) ++ be8 (l.count .outOfOrder)

/-- SAMPLE_BATCH's check and effect (R112). The batch is one event for notices, and each entry is a change of its own
for the reports of its neighbours (assumption 29). The Pressure Supervisor's condition reports stay in entry order, each
entry's before the next (R124); those of the Call Register and the Outage Table go in ascending index (R150). -/
def actSampleBatch (body : List Byte) (s : State) : Answer :=
  match samplesOf body with
  | none => refuse .badArgument s
  | some l =>
    if l = [] ∨ 16 < l.length then refuse .badArgument s
    else
      let r := Event.samples l (Event.start s)
      (finishAsMade { r.1 with reports := neighbourOrder r.1.reports } s, .ok, verdictBytes r.2)

/-- SAMPLE_BATCH. -/
def execSampleBatch (p : PortId) (tag : Byte) (body : List Byte) (s : State) : Host.Outcome State Fault Refusal :=
  .next (request .sample p tag (actSampleBatch body) s)

/-! ## Staleness (R117) -/

/-- A point goes stale: STALE first, then the clears (R117). -/
def Event.stale (n : Nat) (e : Event) : Event :=
  match lookup n e.net.points, lookup n e.image.points with
  | some x, some d => e.repoint staleKinds n d x (staled x)
  | _, _ => e

/-- One staleness timer at the 1 s tick (R117). -/
def Event.staleTick (n : Nat) (e : Event) : Event :=
  match lookup n e.net.points with
  | none => e
  | some x =>
    if x.timer = 0 then e
    else
      let e1 := e.point n (fun y => { y with timer := y.timer - 1 })
      if x.timer = 1 then e1.stale n else e1

/-- The staleness timers at the 1 s tick, in ascending point index. For the reports to the Alarm List Unit that is R150's
order; for those to the Outage Table and of a source's liveness to the Walk Engine it is the model's choice
(R41, R126; assumption 30). -/
def Event.staleTicks : List Nat → Event → Event
  | [], e => e
  | n :: t, e => Event.staleTicks t (e.staleTick n)

/-- A timer that stands at 0 while STALE is not listed (assumption 3). -/
def Event.staleIfDue (n : Nat) (e : Event) : Event :=
  match lookup n e.net.points with
  | none => e
  | some x => if x.timer = 0 ∧ x.staleListed = false then e.stale n else e

/-- STALENESS_EXPIRY. -/
def execStalenessExpiry (point : Nat) (s : State) : Host.Outcome State Fault Refusal :=
  .next (whenRunning (event (fun e => e.staleIfDue point)) s)

/-! ## Recharge holds (R99) -/

/-- One member at the 1 s tick (R99). -/
def tickMember (m : Image) (n : Net) (x : Member) : Member :=
  if x.confirmed then x
  else if qualifying m n x.sect then { x with hold := x.hold - 1, confirmed := decide (x.hold ≤ 1) }
  else { x with hold := (paramsOf m).rechargeHold }

/-- The holds of one outage at the 1 s tick (R99, R102). -/
def Event.holdTick (n : Nat) (e : Event) : Event :=
  match outageAt n e.net with
  | none => e
  | some o =>
    if o.state = .recharging then
      (e.outageQuietly n (fun x => { x with members := x.members.map (tickMember e.image e.net) })).ruleConfirmed n
    else e

/-- The holds of a list of outages. -/
def Event.holdTicks : List Nat → Event → Event
  | [], e => e
  | n :: t, e => Event.holdTicks t (e.holdTick n)

/-- Gather where records were freed since (R94). -/
def Event.gatherIfFreed (before : Nat) (e : Event) : Event := if e.net.outages.length < before then e.gather else e

/-- The Outage Table at the 1 s tick, in ascending outage number (assumption 26); gathering ends it (R94, R99). -/
def Event.outageTick (e : Event) : Event :=
  (Event.holdTicks (outagesWhere (fun o => o.state == .recharging) e.net) e).gatherIfFreed e.net.outages.length

/-- A member is confirmed (R99, R101). -/
def confirmMember (k : Nat) (o : Outage) : Outage :=
  { o with members := o.members.map (fun x => if x.sect = k then { x with hold := 0, confirmed := true } else x) }

/-- An unconfirmed member of a RECHARGING outage whose hold stands at 0 (assumption 3). -/
def Event.holdIfDue (n k : Nat) (e : Event) : Event :=
  match outageAt n e.net with
  | none => e
  | some o =>
    if o.state = .recharging ∧ o.members.any (fun x => x.sect == k && !x.confirmed && x.hold == 0) = true then
      ((e.outageQuietly n (confirmMember k)).ruleConfirmed n).gatherIfFreed e.net.outages.length
    else e

/-- RECHARGE_HOLD_EXPIRY. -/
def execRechargeHoldExpiry (outage sect : Nat) (s : State) : Host.Outcome State Fault Refusal :=
  .next (whenRunning (event (fun e => e.holdIfDue outage sect)) s)

/-! ## Requests (R101, R103) -/

/-- The effect of a taken OUTAGE_CONFIRM_SECTION (R101, R102). -/
def Event.confirmSection (n k : Nat) (e : Event) : Event :=
  ((e.outageQuietly n (confirmMember k)).ruleConfirmed n).gatherIfFreed e.net.outages.length

/-- OUTAGE_CONFIRM_SECTION's checks and effect (R101). -/
def actConfirmSection (n k : Nat) (s : State) : Answer :=
  match outageAt n s.net with
  | none => refuse .noSuchObject s
  | some o =>
    if (memberSections o).contains k = false then refuse .badArgument s
    else if o.state ≠ .recharging then refuse .wrongState s
    else taken (fun e => e.confirmSection n k) [] s

/-- OUTAGE_CONFIRM_SECTION. -/
def execOutageConfirmSection (p : PortId) (tag : Byte) (outage sect : Half) (s : State) :
    Host.Outcome State Fault Refusal :=
  .next (request .switching p tag (actConfirmSection outage.toNat sect.toNat) s)

/-- A count of premises moves (R90, R103): from off to relit, or from off to no-access. -/
def movePremises (relit : Bool) (k : Nat) (o : Outage) : Outage :=
  if relit then { o with off := o.off - k, relit := o.relit + k }
  else { o with off := o.off - k, noAccess := o.noAccess + k }

/-- The effect of a taken count; an outage with nothing off is freed (R103, R106). -/
def Event.countPremises (relit : Bool) (n k : Nat) (o : Outage) (e : Event) : Event :=
  let e1 := e.outage n (movePremises relit k)
  if o.off = k then (e1.complete n).gather else e1

/-- The figures after the event, or those held before the members left (R103). -/
def premisesBody (o : Outage) : List Byte := be32 o.off ++ be32 o.relit ++ be32 o.noAccess

/-- OUTAGE_RELIT and OUTAGE_NO_ACCESS: checks and effect (R103). -/
def actPremises (relit : Bool) (n k : Nat) (s : State) : Answer :=
  match outageAt n s.net with
  | none => refuse .noSuchObject s
  | some o =>
    if k = 0 then refuse .badArgument s
    else if o.state ≠ .relighting then refuse .wrongState s
    else if o.off < k then refuse .overCount s
    else taken (fun e => e.countPremises relit n k o) (premisesBody (movePremises relit k o)) s

/-- OUTAGE_RELIT. -/
def execOutageRelit (p : PortId) (tag : Byte) (outage : Half) (n : Word) (s : State) : Host.Outcome State Fault Refusal :=
  .next (request .relight p tag (actPremises true outage.toNat n.toNat) s)

/-- OUTAGE_NO_ACCESS. -/
def execOutageNoAccess (p : PortId) (tag : Byte) (outage : Half) (n : Word) (s : State) :
    Host.Outcome State Fault Refusal :=
  .next (request .relight p tag (actPremises false outage.toNat n.toNat) s)

end Sys2Proof.Machine
end

