-- ==== Sys2Proof/Machine/Plans.lean ====
section
/-!
DEFINITION. The Plan Table's requests (Chapter 4) and what it does with the result of a plan's trial: assessment (R64) and
the execute check (R68 to R71).
-/

namespace Sys2Proof.Machine

/-! ## Checks (R59) -/

/-- Checks 1 to 4 of R59, then the request's own checks and effect. -/
def actPlan (p : PortId) (slot : Nat) (takes : PlanState → Bool) (act : Plan → State → Answer) (s : State) : Answer :=
  if 15 < slot then refuse .badArgument s
  else
    match lookup slot s.net.plans with
    | none => refuse .noSuchObject s
    | some x =>
      if x.owner ≠ p then refuse .notOwner s
      else if takes x.state then act x s
      else refuse .wrongState s

/-- Is a plan's valve list open to change (R61, R62)? -/
def editable : PlanState → Bool
  | .draft => true
  | .assessed => true
  | _ => false

/-- A plan request that is answered OK, its effect one event. -/
def planTaken (f : Event → Event) (s : State) : Answer := taken f [] s

/-! ## PLAN_CREATE (R60) -/

/-- A new record (R60). -/
def newPlan (p : PortId) (reasonCall : Option Nat) : Plan :=
  { owner := p, state := .draft, valves := [], direction := .unset, reasonCall := reasonCall, consequence := none,
    outage := none, accepted := false, attempts := 0, lastReason := .requested }

/-- PLAN_CREATE's checks and effect (R60). -/
def actPlanCreate (p : PortId) (call : Nat) (s : State) : Answer :=
  if call ≠ 0 ∧ (callNumbered call s.net.calls).isNone = true then refuse .noSuchObject s
  else
    match lowestFree s.net.plans 0 Config.planSlots with
    | none => refuse .tableFull s
    | some slot =>
      taken (fun e =>
          (e.markPlan slot none .requested true []).setNet
            { e.net with plans := put slot (newPlan p (if call = 0 then none else some call)) e.net.plans })
        (be8 slot) s

/-- PLAN_CREATE. -/
def execPlanCreate (p : PortId) (tag : Byte) (reasonCall : Half) (s : State) : Host.Outcome State Fault Refusal :=
  .next (request .plan p tag (actPlanCreate p reasonCall.toNat) s)

/-! ## The valve list (R24, R61, R62) -/

/-- Set or release a claim (R24). -/
def Event.claim (v : Nat) (c : Option Nat) (e : Event) : Event :=
  e.setNet { e.net with valves := adjust v (fun x => { x with claim := c }) e.net.valves }

/-- Release the claims of a list of valves. -/
def Event.unclaim : List Nat → Event → Event
  | [], e => e
  | v :: t, e => Event.unclaim t (e.claim v none)

/-- A change of the valve list; an ASSESSED plan returns to DRAFT (R61, R62). -/
def Event.editPlan (slot : Nat) (x : Plan) (valves : List Nat) (e : Event) : Event :=
  if x.state = .assessed then
    e.plan slot .requested true
      (fun q => { q with valves := valves, state := .draft, consequence := none, accepted := false })
  else e.planQuietly slot (fun q => { q with valves := valves })

/-- The body of CLAIMED: the holding plan and its owner port (R61). -/
def claimedBody (holder : Nat) (n : Net) : List Byte :=
  be8 holder ++ opt8 ((lookup holder n.plans).map (fun x => portCode x.owner))

/-- PLAN_ADD_VALVE's own checks and effect (R61). -/
def addValve (slot v : Nat) (x : Plan) (s : State) : Answer :=
  match lookup v s.net.valves with
  | none => refuse .noSuchObject s
  | some y =>
    if x.valves.contains v then refuse .badArgument s
    else if Config.planValves ≤ x.valves.length then refuse .tooLarge s
    else
      match y.claim with
      | some holder => (s, .claimed, claimedBody holder s.net)
      | none => planTaken (fun e => (e.claim v (some slot)).editPlan slot x (x.valves ++ [v])) s

/-- PLAN_REMOVE_VALVE's own check and effect (R62). -/
def removeValve (slot v : Nat) (x : Plan) (s : State) : Answer :=
  if x.valves.contains v then
    planTaken (fun e => (e.claim v none).editPlan slot x (x.valves.filter (fun y => y != v))) s
  else refuse .badArgument s

/-- PLAN_ADD_VALVE. -/
def execPlanAddValve (p : PortId) (tag : Byte) (plan : Byte) (valve : Half) (s : State) :
    Host.Outcome State Fault Refusal :=
  .next (request .plan p tag (actPlan p plan.toNat editable (addValve plan.toNat valve.toNat)) s)

/-- PLAN_REMOVE_VALVE. -/
def execPlanRemoveValve (p : PortId) (tag : Byte) (plan : Byte) (valve : Half) (s : State) :
    Host.Outcome State Fault Refusal :=
  .next (request .plan p tag (actPlan p plan.toNat editable (removeValve plan.toNat valve.toNat)) s)

/-! ## Assessment and execution requests (R63, R67) -/

/-- Ask the Walk Engine for the plan's trial, then change the plan; QUEUE_FULL where the queue is full. -/
def askTrial (slot : Nat) (f : Plan → Plan) (s : State) : Answer :=
  match queueTrial { requester := .plan slot, closure := [] } s.net with
  | none => refuse .queueFull s
  | some n => (event (fun e => (e.setNet n).plan slot .requested true f) s, .accepted, [])

/-- PLAN_ASSESS's own checks and effect (R63). -/
def assessPlan (slot : Nat) (x : Plan) (s : State) : Answer :=
  if x.valves = [] then refuse .wrongState s else askTrial slot (fun q => { q with state := .assessing }) s

/-- PLAN_EXECUTE's own check and effect (R67). -/
def executePlan (slot : Nat) (_x : Plan) (s : State) : Answer :=
  askTrial slot (fun q => { q with state := .checking, attempts := 1 }) s

/-- PLAN_ASSESS. -/
def execPlanAssess (p : PortId) (tag : Byte) (plan : Byte) (s : State) : Host.Outcome State Fault Refusal :=
  .next (request .plan p tag (actPlan p plan.toNat editable (assessPlan plan.toNat)) s)

/-- PLAN_EXECUTE. -/
def execPlanExecute (p : PortId) (tag : Byte) (plan : Byte) (s : State) : Host.Outcome State Fault Refusal :=
  .next (request .plan p tag (actPlan p plan.toNat (fun x => x == .assessed) (executePlan plan.toNat)) s)

/-! ## PLAN_DECLARE_OUTAGE (R65, R66, R91, R92) -/

/-- The lowest section of a list that belongs to an outage other than the one named, with that outage's number. -/
def otherOutage (own : Option Nat) (n : Net) : List Nat → Option (Nat × Nat)
  | [] => none
  | k :: t =>
    match outageOf k n.outages with
    | none => otherOutage own n t
    | some o => if some o.number = own then otherOutage own n t else some (k, o.number)

/-- The priority-accepted argument; `none` where it is neither 0 nor 1 (assumption 24). -/
def acceptedOf (b : Byte) : Option Bool := if b.toNat = 0 then some false else if b.toNat = 1 then some true else none

/-- A declaration that creates the outage (R65, R91). -/
def declareNew (slot : Nat) (sections : List Nat) (accepted : Bool) (s : State) : Answer :=
  match lowestFree s.net.outages 0 Config.outageRecords with
  | none => refuse .tableFull s
  | some idx =>
    let n := nextOutage s.net
    taken (fun e =>
        ((e.createOutage idx .planned .declared (some slot) sections).ruleDeclared n).plan slot .outageLinked true
          (fun q => { q with outage := some n, accepted := accepted }))
      (be16 n) s

/-- A declaration for a plan with a linked outage (R66, R92). -/
def declareMore (slot : Nat) (o : Outage) (sections : List Nat) (accepted : Bool) (s : State) : Answer :=
  let missing := sections.filter (fun k => !(memberSections o).contains k)
  let accept (e : Event) : Event := e.planQuietly slot (fun q => { q with accepted := accepted })
  if missing = [] then taken accept (be16 o.number) s
  else if o.state ≠ .declared then refuse .wrongState s
  else if Config.outageMembers < o.members.length + missing.length then refuse .tooLarge s
  else taken (fun e => accept ((e.joins o.number missing).ruleDeclared o.number)) (be16 o.number) s

/-- PLAN_DECLARE_OUTAGE's own checks and effect (R65). -/
def declarePlan (slot : Nat) (accepted : Byte) (x : Plan) (s : State) : Answer :=
  match acceptedOf accepted, x.consequence with
  | none, _ => refuse .badArgument s
  | some _, none => refuse .wrongState s
  | some a, some c =>
    if c.sections = [] then refuse .wrongState s
    else if c.overflow then refuse .tooLarge s
    else
      match otherOutage x.outage s.net c.sections with
      | some (k, n) => (s, .sectionInOutage, be16 k ++ be16 n)
      | none =>
        match x.outage with
        | none => declareNew slot c.sections a s
        | some n =>
          match outageAt n s.net with
          | none => declareNew slot c.sections a s
          | some o => declareMore slot o c.sections a s

/-- PLAN_DECLARE_OUTAGE. -/
def execPlanDeclareOutage (p : PortId) (tag : Byte) (plan : Byte) (accepted : Byte) (s : State) :
    Host.Outcome State Fault Refusal :=
  .next (request .plan p tag (actPlan p plan.toNat (fun x => x == .assessed) (declarePlan plan.toNat accepted)) s)

/-! ## Abort, retry, restore (R74, R76, R77) -/

/-- PLAN_ABORT's effect (R74). The aborts go out in ascending valve index, so that the Valve Controller's reports do
(R150, assumption 25). -/
def Event.abortPlan (slot : Nat) (x : Plan) (e : Event) : Event :=
  (Event.aborts (ascending x.valves) (e.plan slot .requested true (fun q => { q with state := .held }))).settleIfAll slot .requested

/-- Orders in a direction to the plan valves that do not stand at its end (R76, R77). -/
def Event.orderPending (dir : Direction) : List Nat → Event → Event
  | [], e => e
  | v :: t, e =>
    Event.orderPending dir t (if positionAt e.net v = some (endOf dir) then e else e.order dir v)

/-- A plan sets out in a direction (R76, R77). -/
def Event.setOut (slot : Nat) (x : Plan) (dir : Direction) (e : Event) : Event :=
  (Event.orderPending dir x.valves
    (e.plan slot .requested true (fun q => { q with state := movingState dir, direction := dir }))).settleIfAll slot
    .requested

/-- Is a plan moving its valves? -/
def isMoving : PlanState → Bool
  | .executing => true
  | .restoring => true
  | _ => false

/-- Is PLAN_RESTORE taken (R77)? -/
def restorable : PlanState → Bool
  | .isolated => true
  | .held => true
  | _ => false

/-- PLAN_ABORT. -/
def execPlanAbort (p : PortId) (tag : Byte) (plan : Byte) (s : State) : Host.Outcome State Fault Refusal :=
  .next (request .plan p tag
    (actPlan p plan.toNat isMoving (fun x => planTaken (fun e => e.abortPlan plan.toNat x))) s)

/-- PLAN_RETRY. -/
def execPlanRetry (p : PortId) (tag : Byte) (plan : Byte) (s : State) : Host.Outcome State Fault Refusal :=
  .next (request .plan p tag
    (actPlan p plan.toNat (fun x => x == .held) (fun x => planTaken (fun e => e.setOut plan.toNat x x.direction))) s)

/-- PLAN_RESTORE. -/
def execPlanRestore (p : PortId) (tag : Byte) (plan : Byte) (s : State) : Host.Outcome State Fault Refusal :=
  .next (request .plan p tag
    (actPlan p plan.toNat restorable (fun x => planTaken (fun e => e.setOut plan.toNat x .opens))) s)

/-! ## Release (R79, R80, R107) -/

/-- Does a valve of a list travel? -/
def anyTravelling (n : Net) (l : List Nat) : Bool := l.any (fun v => ((positionAt n v).map isTravelling).getD false)

/-- Is PLAN_RELEASE taken, but for travelling valves (R79)? -/
def releasable : PlanState → Bool
  | .draft => true
  | .assessed => true
  | .isolated => true
  | .restored => true
  | .held => true
  | _ => false

/-- The linked outage at a plan's release (R80). -/
def Event.releaseOutage (x : Plan) (e : Event) : Event :=
  match x.outage with
  | none => e
  | some n =>
    match outageAt n e.net with
    | none => e
    | some o =>
      if o.state = .declared then (e.abandon false n).gather
      else e.outageQuietly n (fun y => { y with plan := none })

/-- PLAN_RELEASE's effect (R79). -/
def Event.releasePlan (slot : Nat) (x : Plan) (e : Event) : Event :=
  let e1 := ((Event.unclaim x.valves e).releaseOutage x).markReleased slot x
  e1.setNet { e1.net with plans := remove slot e1.net.plans }

/-- PLAN_RELEASE's own check and effect (R79). -/
def releasePlan (slot : Nat) (x : Plan) (s : State) : Answer :=
  if x.state = .held ∧ anyTravelling s.net x.valves = true then refuse .wrongState s
  else planTaken (fun e => e.releasePlan slot x) s

/-- PLAN_RELEASE. -/
def execPlanRelease (p : PortId) (tag : Byte) (plan : Byte) (s : State) : Host.Outcome State Fault Refusal :=
  .next (request .plan p tag (actPlan p plan.toNat releasable (releasePlan plan.toNat)) s)

/-! ## Take-over (R81) -/

/-- Seconds since a port's last request, counted modulo 2^32 (R171, R178). -/
def silentFor (s : State) (q : PortId) : Nat := (s.tbu.uptime - (s.ports.get q).lastRequest).toNat

/-- The effect of a taken take-over: owner only (R81). -/
def Event.takeOver (slot : Nat) (p : PortId) (x : Plan) (e : Event) : Event :=
  (e.markPlan slot (some x) .takenOver true [x.owner]).setNet
    { e.net with plans := adjust slot (fun q => { q with owner := p }) e.net.plans }

/-- PLAN_TAKE_OVER's checks and effect (R59, R81). -/
def actTakeOver (p : PortId) (slot : Nat) (s : State) : Answer :=
  if 15 < slot then refuse .badArgument s
  else
    match lookup slot s.net.plans with
    | none => refuse .noSuchObject s
    | some x =>
      if x.owner = p then refuse .badArgument s
      else if (paramsOf s.cfu.image).grace ≤ silentFor s x.owner then planTaken (fun e => e.takeOver slot p x) s
      else (s, .ownerActive, be16 ((paramsOf s.cfu.image).grace - silentFor s x.owner))

/-- PLAN_TAKE_OVER. -/
def execPlanTakeOver (p : PortId) (tag : Byte) (plan : Byte) (s : State) : Host.Outcome State Fault Refusal :=
  .next (request .plan p tag (actTakeOver p plan.toNat) s)

/-! ## The result of a plan's trial (R64, R68 to R71) -/

/-- An assessment keeps whatever result it gets (R64). -/
def Event.assessed (slot : Nat) (r : Consequence) (e : Event) : Event :=
  e.plan slot .assessed true
    (fun q => { q with consequence := some r, accepted := false, attempts := 0, state := .assessed })

/-- A check that ends without a settled trial (R68). -/
def Event.checkEnded (slot : Nat) (e : Event) : Event :=
  e.plan slot .networkBusy true (fun q => { q with state := .assessed, attempts := 0 })

/-- The revisions differ: a fresh trial, or the end of the check (R68). -/
def Event.recheck (slot : Nat) (x : Plan) (e : Event) : Event :=
  if x.attempts < Config.checkAttempts then
    match queueTrial { requester := .plan slot, closure := [] } e.net with
    | some n => (e.setNet n).planQuietly slot (fun q => { q with attempts := q.attempts + 1 })
    | none => e.checkEnded slot
  else e.checkEnded slot

/-- The members of a plan's linked outage. -/
def linkedMembers (x : Plan) (n : Net) : List Nat :=
  match x.outage with
  | none => []
  | some k => ((outageAt k n).map memberSections).getD []

/-- Every section of the fresh consequence lies within the linked outage (R69). -/
def withinOutage (x : Plan) (r : Consequence) (n : Net) : Bool :=
  !r.overflow && r.sections.all (fun k => (linkedMembers x n).contains k)

/-- The priority condition of R69. -/
def priorityMet (x : Plan) (r : Consequence) : Bool := r.priority == 0 || x.accepted

/-- The consequence is empty (R51). -/
def isEmpty (r : Consequence) : Bool := r.sections.isEmpty && !r.overflow

/-- A check passes (R70). -/
def Event.checkPassed (slot : Nat) (x : Plan) (r : Consequence) (e : Event) : Event :=
  let e1 :=
    match x.outage with
    | none => e
    | some n => e.trim n ((linkedMembers x e.net).filter (fun k => !r.sections.contains k))
  (Event.orders .closes x.valves
    (e1.plan slot .checkPassed true
      (fun q => { q with consequence := some r, attempts := 0, direction := .closes, state := .executing }))).settleIfAll
    slot .checkPassed

/-- A check fails (R71). -/
def Event.checkFailed (slot : Nat) (reason : Reason) (r : Consequence) (e : Event) : Event :=
  e.plan slot reason true
    (fun q => { q with consequence := some r, accepted := false, attempts := 0, state := .assessed })

/-- A check result with equal revisions is judged against the linked outage (R69). -/
def Event.judgeCheck (slot : Nat) (x : Plan) (r : Consequence) (e : Event) : Event :=
  if isEmpty r then e.checkPassed slot x r
  else if withinOutage x r e.net = false then e.checkFailed slot .consequenceGrew r
  else if priorityMet x r then e.checkPassed slot x r
  else e.checkFailed slot .priorityNotAccepted r

/-- The result of a plan's trial, with the topology revision at completion (R52). -/
def Event.planResult (slot : Nat) (r : Consequence) (completion : Word) (e : Event) : Event :=
  match lookup slot e.net.plans with
  | none => e
  | some x =>
    match x.state with
    | .assessing => e.assessed slot r
    | .checking => if r.basis = completion then e.judgeCheck slot x r else e.recheck slot x
    | _ => e

end Sys2Proof.Machine
end

