-- ==== Sys2Proof/Machine/Engine.lean ====
section
/-!
DEFINITION. The completions of the Walk Engine: a live walk publishes (R47 to R49), a trial hands its result to its
requester (R52, R56).
-/

namespace Sys2Proof.Machine

/-! ## Publication (R47, R48, R49) -/

/-- A section's record after a publication that gives it a state; `member` says whether an outage holds it (R47, R48). -/
def published (state : Supply) (member : Bool) (x : Sect) : Sect :=
  { x with
    supply := state
    awaiting :=
      match state with
      | .supplied => false
      | .uncertain => false
      | .unsupplied => if x.supply ≠ .unsupplied ∧ member = false then true else x.awaiting }

/-- The sections of a table after a publication. -/
def publishAll (m : Image) (x : Snapshot) (outages : Table Outage) (l : Table Sect) : Table Sect :=
  let supplied := suppliedBy m x.valves x.live
  let reached := reachedBy m x.valves x.live
  mapTable (fun k y => published (classOf supplied reached k) (outageOf k outages).isSome y) l

/-- The keys at which two tables of sections differ by a test. -/
def sectionsWhere (f : Sect → Sect → Bool) (before after : Table Sect) : List Nat :=
  (keys before).filter (fun k =>
    match lookup k before, lookup k after with
    | some x, some y => f x y
    | _, _ => false)

/-- The sections that changed at a publication (R47). -/
def changedSections (before after : Table Sect) : List Nat := sectionsWhere (fun x y => x.supply != y.supply) before after

/-- The sections whose awaiting-outage flag a publication cleared (R48). -/
def clearedSections (before after : Table Sect) : List Nat :=
  sectionsWhere (fun x y => x.awaiting && !y.awaiting) before after

/-- A live walk publishes its result (R47 to R49, R96). -/
def Event.publish (x : Snapshot) (e : Event) : Event :=
  let after := publishAll e.image x e.net.outages e.net.sections
  let changed := changedSections e.net.sections after
  let cleared := clearedSections e.net.sections after
  let e1 := e.setNet { e.net with sections := after, supply := x.revision }
  let e2 := if changed = [] then e1 else e1.post .wke (.supplyPublished changed.length x.revision) []
  e2.takePublication cleared changed

/-- The arbiter acts on an event's network. -/
def Event.grant (f : Net → Net) (e : Event) : Event := e.setNet (f e.net)

/-- A completed walk publishes and the engine frees (R47, R54). -/
def completeWalk (s : State) : State :=
  match s.net.engine with
  | .walking x => event (fun e => (e.publish x).grant grantAfterWalk) s
  | .idle => s
  | .trial _ _ _ => s

/-- LIVE_WALK_COMPLETES; without a running walk there is nothing to complete (assumption 22). -/
def execLiveWalkCompletes (s : State) : Host.Outcome State Fault Refusal := .next (whenRunning completeWalk s)

/-! ## A trial's completion (R52, R56) -/

/-- The TRIAL_DONE notice of a result (R56). -/
def trialDone (r : Consequence) : NoticeBody := .trialDone r.sections.length r.overflow r.basis

/-- The result reaches its requester: the Plan Table, or the port's buffer with its notice (R52, R56). -/
def Event.handOver (r : Consequence) (completion : Word) (who : Requester) (e : Event) : Event :=
  match who with
  | .plan slot => e.planResult slot r completion
  | .port p => e.post .wke (trialDone r) [p]

/-- The requesting port's buffer becomes READY (R56). -/
def fillBuffer (r : Consequence) (completion : Word) (who : Requester) (s : State) : State :=
  match who with
  | .plan _ => s
  | .port p => s.setPort p (fun x => { x with buffer := .ready r completion })

/-- A plan's result can bring requests to the engine, so that its order with the grant matters; a port's cannot. -/
def handOverOrders : Requester → Nat
  | .plan _ => 2
  | .port _ => 1

/-- Hand-over and grant at the completion, in either order (R52, R54, assumption 5). -/
def Event.trialEnds (r : Consequence) (completion : Word) (who : Requester) (e : Event) : Event :=
  let c := choose (handOverOrders who) e.choices
  let e1 := { e with choices := c.2 }
  if c.1 = 0 then (e1.handOver r completion who).grant grantAfterTrial
  else (e1.grant grantAfterTrial).handOver r completion who

/-- A completed trial (R52). -/
def completeTrial (s : State) : State :=
  match s.net.engine with
  | .trial x who closure =>
    let r := trialResult s.cfu.image x closure
    event (fun e => e.trialEnds r s.net.topology who) (fillBuffer r s.net.topology who s)
  | .idle => s
  | .walking _ => s

/-- TRIAL_COMPLETES; without a running trial there is nothing to complete (assumption 22). -/
def execTrialCompletes (s : State) : Host.Outcome State Fault Refusal := .next (whenRunning completeTrial s)

end Sys2Proof.Machine
end

