-- ==== Sys2Proof/Machine/Alarms.lean ====
section
/-!
DEFINITION. The Alarm List Unit's requests (R156, R161) and the horn's cadence (R162, R163).
-/

namespace Sys2Proof.Machine

/-! ## ALARM_ACK (R155, R156) -/

/-- The acknowledgement of an entry by a port. -/
def ackEntry (p : PortId) (now : Word) (x : Entry) (w : AluWork) : AluWork :=
  match x.state with
  | .activeUnack => changeEntry { x with state := .activeAck, ackPort := some p, lastChange := now } .acked w
  | .activeAck => w
  | .clearedUnack => removeEntry now x w

/-- An event at the list itself: the horn is judged, the notices go out (R158, R160). -/
def listEvent (f : AluWork → AluWork) (s : State) : State :=
  let w := f { alu := s.alu, touches := [] }
  finishWith { w with alu := judgeHorn s.cfu.image w.alu } (Event.start s) s

/-- The response body: the entry's state after the event, 3 for removed (Table 9-6). -/
def ackBody (n : Nat) (a : Alu) : List Byte := be8 (((entryNumbered n a.entries).map (fun x => entryStateCode x.state)).getD 3)

/-- ALARM_ACK's checks and effect (R156). -/
def actAlarmAck (p : PortId) (n : Nat) (s : State) : Answer :=
  if n = 0 then refuse .badArgument s
  else
    match entryNumbered n s.alu.entries with
    | none => refuse .noSuchObject s
    | some x =>
      if x.state = .activeAck then refuse .alreadyAcked s
      else
        let s1 := listEvent (ackEntry p s.tbu.clock x) s
        (s1, .ok, if x.state = .clearedUnack then be8 3 else ackBody n s1.alu)

/-- ALARM_ACK. -/
def execAlarmAck (p : PortId) (tag : Byte) (alarm : Half) (s : State) : Host.Outcome State Fault Refusal :=
  .next (request .alarm p tag (actAlarmAck p alarm.toNat) s)

/-! ## HORN_SILENCE (R161) -/

/-- The silence mark takes the present event sequence. -/
def silence (w : AluWork) : AluWork := { w with alu := { w.alu with mark := w.alu.seq } }

/-- HORN_SILENCE. -/
def execHornSilence (p : PortId) (tag : Byte) (s : State) : Host.Outcome State Fault Refusal :=
  .next (request .alarm p tag (fun t => (listEvent silence t, .ok, [])) s)

/-! ## The cadence (R162) -/

/-- The next part of a cadence, the output following it; after pulse 4 the group repeats (R162). -/
def nextPart (m : Image) (p pulse : Nat) (on : Bool) : Horn :=
  if on then .sounding p pulse false (cadenceOf m p).offSteps
  else
    let k := if 4 ≤ pulse then 1 else pulse + 1
    .sounding p k true (pulseOn m p k)

/-- Is the horn in an on part? -/
def inOnPart : Horn → Bool
  | .silent => false
  | .sounding _ _ on _ => on

/-- A part whose steps stand at 0 ends (R162). -/
def endPart (m : Image) (a : Alu) : Alu :=
  match a.horn with
  | .silent => a
  | .sounding p pulse on steps =>
    if steps = 0 then { a with horn := nextPart m p pulse on, hornOut := inOnPart (nextPart m p pulse on) } else a

/-- A step tick: the steps remaining decrease, and at 0 the position moves on (R162). -/
def stepHorn (m : Image) (a : Alu) : Alu :=
  match a.horn with
  | .silent => a
  | .sounding p pulse on steps => endPart m { a with horn := .sounding p pulse on (steps - 1) }

/-- A step tick that is due: the divider has counted ten scan ticks (R162). -/
def stepIfDue (m : Image) (a : Alu) : Alu :=
  if a.divider = Config.stepTicks then stepHorn m { a with divider := 0 } else a

/-- The step divider at a scan tick (R162). -/
def divide (m : Image) (a : Alu) : Alu := stepIfDue m { a with divider := a.divider + 1 }

/-- STEP_TICK: due while the divider stands at ten (assumption 3). -/
def execStepTick (s : State) : Host.Outcome State Fault Refusal :=
  .next (whenRunning (fun t => { t with alu := stepIfDue t.cfu.image t.alu }) s)

/-- CADENCE_PART_END: due while the steps remaining stand at 0 (assumption 3). -/
def execCadencePartEnd (s : State) : Host.Outcome State Fault Refusal :=
  .next (whenRunning (fun t => { t with alu := endPart t.cfu.image t.alu }) s)

end Sys2Proof.Machine
end

