-- ==== Sys2Proof/Machine/Mimic.lean ====
section
/-!
DEFINITION. The Mimic Scanner (R164 to R166): displayed states, the row scan, the lamp test.
-/

namespace Sys2Proof.Machine

/-- The lamp of a valve (Table 8-5). -/
def valveLamp : Position → LampState
  | .opened => .off
  | .closed => .on
  | .closing => .slow
  | .opening => .slow
  | .stuck => .fast
  | .unknown => .fast

/-- The lamp of a section (Table 8-5). -/
def sectionLamp (x : Supply) (membership : Option OutageState) : LampState :=
  match x with
  | .supplied => if membership = some .recharging ∨ membership = some .relighting then .slow else .off
  | .unsupplied => .on
  | .uncertain => .fast

/-- The lamp of a priority summary (Table 8-5). -/
def summaryLamp (p : Nat) (l : List Entry) : LampState :=
  if l.any (fun x => x.priority == p && (x.state == .activeUnack || x.state == .clearedUnack)) then .fast
  else if l.any (fun x => x.priority == p && x.state == .activeAck) then .on
  else .off

/-- The state that live state gives a lamp (R165). -/
def derivedLamp (d : LampDef) (n : Net) (a : Alu) : LampState :=
  match d.kind with
  | .valve => ((positionAt n d.object).map valveLamp).getD .off
  | .sect =>
    ((lookup d.object n.sections).map
      (fun x => sectionLamp x.supply ((outageOf d.object n.outages).map Outage.state))).getD .off
  | .source => ((lookup d.object n.sources).map (fun x => if x.live then LampState.on else .fast)).getD .off
  | .prioritySummary => summaryLamp d.object a.entries
  | .unbound => .off

/-- The displayed state of a lamp: ON during a test, otherwise as derived (R165, R166). -/
def displayed (s : State) (lamp : Nat) : LampState :=
  if 0 < s.msc.testTimer then .on else derivedLamp (lampOf s.cfu.image lamp) s.net s.alu

/-- Is a lamp lit at a flash phase (R164)? -/
def isLit (phase : Nat) : LampState → Bool
  | .off => false
  | .on => true
  | .slow => phase < 50
  | .fast => phase % 25 < 13

/-- The lamps of a row as displayed. -/
def rowStates (s : State) (row : Nat) : List LampState :=
  (List.range Config.lampColumns).map (fun c => displayed s (row * Config.lampColumns + c))

/-- Bit c is set where item c of a list of flags is. -/
def columnsOf : List Bool → Nat
  | [] => 0
  | b :: t => b.toNat + 2 * columnsOf t

/-- Replace the items from a position on. -/
def replaceFrom {α : Type} (n : Nat) (new l : List α) : List α := l.take n ++ new ++ l.drop (n + new.length)

/-- The scan of the next row (R164). -/
def scanRow (s : State) : State :=
  let row := s.msc.nextRow
  let l := rowStates s row
  { s with
    msc := { s.msc with
      lamps := replaceFrom (row * Config.lampColumns) l s.msc.lamps
      drivenRow := some row
      drivenColumns := BitVec.ofNat 24 (columnsOf (l.map (isLit s.msc.flash)))
      nextRow := if row + 1 < Config.lampRows then row + 1 else 0 } }

/-- MIMIC_ROW_SCAN. -/
def execMimicRowScan (s : State) : Host.Outcome State Fault Refusal := .next (whenRunning scanRow s)

/-- LAMP_TEST's effect: the timer is loaded and every lamp shows ON (R166, assumption 20). -/
def startLampTest (s : State) : State :=
  { s with msc := { s.msc with testTimer := Config.lampTestTicks, lamps := List.replicate Config.lamps .on } }

/-- LAMP_TEST. -/
def execLampTest (p : PortId) (tag : Byte) (s : State) : Host.Outcome State Fault Refusal :=
  .next (request .switching p tag (fun t => (startLampTest t, .ok, [])) s)

/-- LAMP_TEST_END: with the timer at 0 nothing changes at the event; each lamp returns to its derived state at the next
scan of its row (R166). -/
def execLampTestEnd (s : State) : Host.Outcome State Fault Refusal := .next s

/-- The flash phase and the lamp-test timer at a scan tick (R164, R166). -/
def tickMimic (x : Msc) : Msc :=
  { x with flash := if x.flash + 1 < Config.flashCycle then x.flash + 1 else 0, testTimer := x.testTimer - 1 }

end Sys2Proof.Machine
end

