-- ==== Sys2Proof/Machine/Configuration.lean ====
section
/-!
DEFINITION. The Configuration Unit and the Timebase's requests (Chapters 1 and 10): the configuration session, the
validation of an image, commit, the resets, SET_CLOCK.
-/

namespace Sys2Proof.Machine

/-! ## LOAD_RECORDS (R1, R186, R187) -/

/-- A body cut into records. -/
inductive Cut where
  | whole (l : List (RecordKind × List Byte))
  | unknownKind (position : Nat)
  | wrongLength
  deriving DecidableEq, Repr

/-- Cut a body into a number of records, each its kind and the bytes after its kind byte (checks 2 and 3 of R186). -/
def cutRecords : Nat → Nat → List Byte → Cut
  | 0, _, rest => if rest = [] then .whole [] else .wrongLength
  | _ + 1, _, [] => .wrongLength
  | n + 1, pos, b :: t =>
    match recordKindOf b.toNat with
    | none => .unknownKind pos
    | some k =>
      match cutRecords n (pos + 1) (t.drop (recordLength k - 1)) with
      | .whole l =>
        if t.length < recordLength k - 1 then .wrongLength else .whole ((k, t.take (recordLength k - 1)) :: l)
      | .unknownKind i => .unknownKind i
      | .wrongLength => .wrongLength

/-- The position of the first record that fails a test, counted from `pos`. -/
def firstBad (ok : RecordKind × List Byte → Bool) : Nat → List (RecordKind × List Byte) → Option Nat
  | _, [] => none
  | pos, x :: t => if ok x then firstBad ok (pos + 1) t else some pos

/-- The records of a list that are readable. -/
def readAll : List (RecordKind × List Byte) → List DefRecord
  | [] => []
  | (k, b) :: t => (readRecord k b).toList ++ readAll t

/-- The records of a body, or the position that a refusal names (R186). -/
def parseBody : List Byte → List DefRecord ⊕ Nat
  | [] => .inr 0
  | c :: rest =>
    if c.toNat < 1 ∨ 8 < c.toNat then .inr 0
    else
      match cutRecords c.toNat 1 rest with
      | .unknownKind i => .inr i
      | .wrongLength => .inr 0
      | .whole l =>
        match firstBad (fun x => keyInRange x.1 (recordKey x.1 x.2)) 1 l with
        | some i => .inr i
        | none =>
          match firstBad (fun x => (readRecord x.1 x.2).isSome) 1 l with
          | some i => .inr i
          | none => .inl (readAll l)

/-- Hold a record: one with the same kind and key is replaced whole (R1). -/
def holdRecord (m : Image) : DefRecord → Image
  | .sect k d => { m with sections := put k d m.sections }
  | .valve k d => { m with valves := put k d m.valves }
  | .source k d => { m with sources := put k d m.sources }
  | .point k d => { m with points := put k d m.points }
  | .line k d => { m with lines := put k d m.lines }
  | .lamp k d => { m with lamps := put k d m.lamps }
  | .port k d => { m with ports := put k d m.ports }
  | .parameters d => { m with parameters := some d }
  | .cadence k d => { m with cadences := put k d m.cadences }
  | .priorities d => { m with priorities := some d }

/-- Change the Configuration Unit. -/
def State.setCfu (s : State) (c : Cfu) : State := { s with cfu := c }

/-- LOAD_RECORDS's checks and effect (R186, R187). -/
def actLoadRecords (body : List Byte) (s : State) : Answer :=
  if s.cfu.device = .running then refuse .wrongState s
  else
    match parseBody body with
    | .inr i => (s, .badArgument, be8 i)
    | .inl l =>
      let m := l.foldl holdRecord s.cfu.image
      let c := crcFrom s.cfu.checksum body
      (s.setCfu { s.cfu with image := m, checksum := c }, .ok, be16 (recordsHeld m) ++ halfBytes c)

/-! ## The session (R185) -/

/-- An emptied session: no record, checksum FFFF, no failure (R185). -/
def freshSession (c : Cfu) (device : Device) (authority : Option PortId) : Cfu :=
  { c with image := Image.empty, checksum := 0xFFFF, failure := none, device := device, authority := authority }

/-- BEGIN_CONFIG's checks and effect (R184, R185). -/
def actBeginConfig (p : PortId) (s : State) : Answer :=
  match s.cfu.device with
  | .standby => (s.setCfu (freshSession s.cfu .configuring (some p)), .ok, [])
  | .configuring => if s.cfu.authority = some p then refuse .wrongState s else refuse .configHeld s
  | .running => refuse .wrongState s

/-- ABANDON_CONFIG's check and effect (R184, R185). -/
def actAbandonConfig (s : State) : Answer :=
  if s.cfu.device = .running then refuse .wrongState s
  else (s.setCfu (freshSession s.cfu .standby none), .ok, [])

/-! ## Validation (R3 to R13)

`m` is the image with its defaults applied. -/

def isDefined {α : Type} (k : Nat) (t : Table α) : Bool := (lookup k t).isSome

/-- R4. -/
def validSection (m : Image) (k : Nat) (d : SectionDef) : Bool :=
  d.priority ≤ d.premises &&
    (match d.source with
     | none => true
     | some n => ((lookup n m.sources).map (fun x => x.sect == k)).getD false)

/-- The actuated valves of lower index. -/
def actuatedBelow (m : Image) (k : Nat) : List ValveDef :=
  (m.valves.filter (fun x => x.1 < k && x.2.kind == .actuated)).map (fun x => x.2)

/-- Is an output line named by a valve? -/
def namesOutput (n : Nat) (d : ValveDef) : Bool := d.closeOutput == some n || d.openOutput == some n

/-- Is an input line named as a limit by a valve? -/
def namesLimit (n : Nat) (d : ValveDef) : Bool := d.closedLimit == some n || d.openLimit == some n

/-- Is a line defined by a LINE record of a role? -/
def hasRole (m : Image) (n : Nat) (r : LineRole) : Bool := ((lookup n m.lines).map (fun x => x.role == r)).getD false

/-- R6. -/
def validActuated (m : Image) (k : Nat) (d : ValveDef) : Bool :=
  match d.timeout, d.closeOutput, d.openOutput, d.closedLimit, d.openLimit with
  | some t, some co, some oo, some cl, some ol =>
    let below := actuatedBelow m k
    10 ≤ t && t ≤ 600 && co < Config.outputLines && oo < Config.outputLines && co != oo
      && below.all (fun x => !namesOutput co x && !namesOutput oo x)
      && cl != ol && below.all (fun x => !namesLimit cl x && !namesLimit ol x)
      && hasRole m cl .limit && hasRole m ol .limit && below.length < Config.actuatedValves
  | _, _, _, _, _ => false

/-- R5. -/
def validManual (d : ValveDef) : Bool :=
  d.timeout.isNone && d.closeOutput.isNone && d.openOutput.isNone && d.closedLimit.isNone && d.openLimit.isNone

/-- R5, R6. -/
def validValve (m : Image) (k : Nat) (d : ValveDef) : Bool :=
  isDefined d.sideA m.sections && isDefined d.sideB m.sections && d.sideA != d.sideB
    && (d.recorded == .opened || d.recorded == .closed)
    && (match d.kind with
        | .manual => validManual d
        | .actuated => validActuated m k d)

/-- The sources of lower number. -/
def sourcesBelow (m : Image) (k : Nat) : List SourceDef := (m.sources.filter (fun x => x.1 < k)).map (fun x => x.2)

/-- R7. -/
def validSource (m : Image) (k : Nat) (d : SourceDef) : Bool :=
  ((lookup d.sect m.sections).map (fun x => x.source == some k)).getD false
    && (sourcesBelow m k).all (fun x => x.sect != d.sect)
    && (match d.tripLine with
        | none => true
        | some n => hasRole m n .trip && (sourcesBelow m k).all (fun x => x.tripLine != some n))
    && (match d.outlet with
        | none => true
        | some n =>
          ((lookup n m.points).map (fun x => x.sect == d.sect)).getD false
            && (sourcesBelow m k).all (fun x => x.outlet != some n))

/-- R8. -/
def validPoint (m : Image) (_k : Nat) (d : PointDef) : Bool :=
  isDefined d.sect m.sections && limitsValid d.ll d.l d.h d.hh d.deadband d.persistence
    && 5 ≤ d.period && d.period ≤ 3600 && 1 ≤ d.window && d.window ≤ 8 && 1 ≤ d.threshold && d.threshold ≤ 1024

/-- R9. -/
def validLine (m : Image) (k : Nat) (d : LineDef) : Bool :=
  1 ≤ d.debounce && d.debounce ≤ 15 &&
    (match d.role with
     | .limit => d.route.isNone && m.valves.any (fun x => x.2.kind == .actuated && namesLimit k x.2)
     | .trip => d.route.isNone && m.sources.any (fun x => x.2.tripLine == some k)
     | .general => d.route.isSome
     | .unused => d.route.isNone)

/-- R10. -/
def validLamp (m : Image) (_k : Nat) (d : LampDef) : Bool :=
  match d.kind with
  | .valve => isDefined d.object m.valves
  | .sect => isDefined d.object m.sections
  | .source => isDefined d.object m.sources
  | .prioritySummary => 1 ≤ d.object && d.object ≤ 4
  | .unbound => true

/-- Does a number lie in a range? -/
def within (low high n : Nat) : Bool := low ≤ n && n ≤ high

/-- R12. -/
def validParameters (d : Parameters) : Bool :=
  [d.attend1, d.attend2, d.attend3, d.safe1, d.safe2, d.safe3].all (within 60 86400)
    && d.attend1 ≤ d.attend2 && d.attend2 ≤ d.attend3 && d.safe1 ≤ d.safe2 && d.safe2 ≤ d.safe3
    && within 60 3600 d.realarm && within 2 8 d.clusterThreshold && within 1 2 d.clusterGrade
    && within 2 16 d.noGasThreshold && within 30 600 d.grace && within 60 1800 d.rechargeHold
    && within 1 4 d.hornThreshold

/-- R13. -/
def validCadence (_k : Nat) (d : CadenceDef) : Bool := within 1 20 d.onSteps && within 1 20 d.offSteps

/-- The first record of a table that breaks its constraint, in ascending key order (R3). -/
def offenderIn {α : Type} (kind : RecordKind) (ok : Nat → α → Bool) : Table α → Option Offender
  | [] => none
  | (k, d) :: t => if ok k d then offenderIn kind ok t else some { kind := kind, key := some k }

/-- A constraint on a kind as a whole (R3). -/
def offenderIf (kind : RecordKind) (bad : Bool) : Option Offender := if bad then some { kind := kind, key := none } else none

/-- The first offender of a list of judgements. -/
def firstOf : List (Option Offender) → Option Offender
  | [] => none
  | some x :: _ => some x
  | none :: t => firstOf t

/-- The offending record of an image, kinds in the order of Table 1-1 (R3). -/
def offender (m : Image) : Option Offender :=
  firstOf
    [offenderIn .sect (validSection m) m.sections,
     offenderIn .valve (validValve m) m.valves,
     offenderIf .source m.sources.isEmpty,
     offenderIn .source (validSource m) m.sources,
     offenderIn .point (validPoint m) m.points,
     offenderIn .line (validLine m) m.lines,
     offenderIn .lamp (validLamp m) m.lamps,
     offenderIf .port (!m.ports.any (fun x => x.2.role == .switching)),
     offenderIf .parameters (!(m.parameters.map validParameters).getD true),
     offenderIn .cadence validCadence m.cadences,
     offenderIf .priorities (!(m.priorities.map (fun l => l.all (within 1 4))).getD true)]

/-! ## Commit (R189) -/

/-- The logical level of an electrical level by polarity (R15). -/
def logical (d : LineDef) (high : Bool) : Bool :=
  match d.polarity with
  | .activeHigh => high
  | .activeLow => !high

/-- The seeding scan (R15). -/
def seedLines (m : Image) (pins : BitVec 64) : List LineScan :=
  (List.range Config.inputLines).map (fun n =>
    { rawHigh := pins.getLsbD n, active := logical (lineOf m n) (pins.getLsbD n), count := 0 })

/-- A line's level in a list of scans. -/
def levelIn (l : List LineScan) (line : Option Nat) : Bool :=
  match line with
  | none => false
  | some k => ((l[k]?).map LineScan.active).getD false

/-- A valve at commit (R21). -/
def seedValve (l : List LineScan) (d : ValveDef) : Valve :=
  let pair := (levelIn l d.closedLimit, levelIn l d.openLimit)
  match d.kind with
  | .manual =>
    { position := d.recorded, claim := none, travel := 0, stuck := false, uncommanded := false, conflict := false }
  | .actuated =>
    { position := (shownBy pair).getD .unknown, claim := none, travel := 0, stuck := false, uncommanded := false,
      conflict := pair.1 && pair.2 }

/-- A source at commit (R37). -/
def seedSource (l : List LineScan) (d : SourceDef) : Source :=
  { tripped := levelIn l d.tripLine, outletLow := false, out := false, live := !levelIn l d.tripLine }

/-- A section at commit (R47, R95, R144). -/
def seedSect : Sect :=
  { supply := .uncertain, awaiting := false, unrecorded := false, odour := 0, noGas := 0, cluster := false,
    suspected := false }

/-- A point at commit (R111). -/
def seedPoint (uptime : Word) (d : PointDef) : Point :=
  { value := none, lastSample := uptime.toNat, band := .unset, candidate := none, agreement := 0, ring := [],
    timer := d.period, fresh := false, latch := false, suppressed := false, lowListed := false, lowlowListed := false,
    highListed := false, highhighListed := false, fallListed := false, staleListed := false }

/-- The network blocks at commit, before the first walk (R189, stages 2 and 3). -/
def seedNet (m : Image) (pins : BitVec 64) (uptime : Word) : Net :=
  let l := seedLines m pins
  { Net.reset with
    pins := pins
    lines := l
    valves := mapTable (fun _ d => seedValve l d) m.valves
    sources := mapTable (fun _ d => seedSource l d) m.sources
    sections := mapTable (fun _ _ => seedSect) m.sections
    points := mapTable (fun _ d => seedPoint uptime d) m.points
    walkPending := true }

/-- The lower of two limit lines. -/
def lowerLimit (d : ValveDef) : Option Nat :=
  match d.closedLimit, d.openLimit with
  | some a, some b => some (min a b)
  | _, _ => none

/-- The condition that a line's initial level raises (R18, R21, R37, R189). -/
def initialCondition (m : Image) (n : Net) (line : Nat) : List CondId :=
  match (lineOf m line).role with
  | .limit =>
    (keys (m.valves.filter (fun x => x.2.kind == .actuated && lowerLimit x.2 == some line))).filterMap (fun v =>
      if ((lookup v n.valves).map Valve.conflict).getD false then some { kind := .limitConflict, index := v } else none)
  | .trip =>
    (keys (m.sources.filter (fun x => x.2.tripLine == some line))).filterMap (fun k =>
      if ((lookup k n.sources).map Source.tripped).getD false then some { kind := .sourceTrip, index := k } else none)
  | .general =>
    if (lineOf m line).route = some .alarm ∧ lineActive n (some line) = true then
      [{ kind := .lineActive, index := line }]
    else []
  | .unused => []

/-- The conditions active at commit, in ascending line order (R151, R189). -/
def initialConditions (m : Image) (n : Net) : List CondId := (List.range Config.inputLines).flatMap (initialCondition m n)

/-- A port at commit (R56, R167). -/
def seedPort (m : Image) (uptime : Word) (p : PortId) (x : Port) : Port :=
  { x with
    role := some (portOf m (portCode p)).role
    classes := (portOf m (portCode p)).classes
    lastRequest := uptime
    buffer := .empty }

/-- Stages 1 to 3 of commit, before the conditions reach the alarm list (R189). -/
def committed (m : Image) (s : State) : State :=
  { s with
    cfu := { s.cfu with
      device := .running, image := m, authority := none, failure := none, causePower := false, causeLine := false }
    tbu := { s.tbu with clock := 0, clockSet := false }
    net := seedNet m s.net.pins s.tbu.uptime
    alu := Alu.reset
    msc := Msc.reset
    ports := s.ports.map (seedPort m s.tbu.uptime) }

/-- The conditions of a list are raised, in its order. -/
def Event.raiseList : List CondId → Event → Event
  | [], e => e
  | c :: t, e => Event.raiseList t (e.report .lsc .raise c.kind c.index)

/-- The commit event of a valid image (R189). -/
def commit (m : Image) (s : State) : State :=
  let s1 := committed m s
  event (fun e => (Event.raiseList (initialConditions m s1.net) e).grant startWalk) s1

/-- The body of CONFIG_INVALID (R188). -/
def offenderBody (o : Offender) : List Byte := be8 (recordKindCode o.kind) ++ opt16 o.key

/-- COMMIT_CONFIG's checks and effect (R188, R189). -/
def actCommitConfig (expected : Half) (s : State) : Answer :=
  if s.cfu.device = .running then refuse .wrongState s
  else if expected ≠ s.cfu.checksum then
    (s.setCfu { s.cfu with failure := some .checksumMismatch }, .checksumMismatch, [])
  else
    match offender s.cfu.image.withDefaults with
    | some o => (s.setCfu { s.cfu with failure := some (.configInvalid o) }, .configInvalid, offenderBody o)
    | none => (commit s.cfu.image.withDefaults s, .ok, [])

/-- BEGIN_CONFIG. -/
def execBeginConfig (p : PortId) (tag : Byte) (s : State) : Host.Outcome State Fault Refusal :=
  .next (request .beginConfig p tag (actBeginConfig p) s)

/-- LOAD_RECORDS. -/
def execLoadRecords (p : PortId) (tag : Byte) (body : List Byte) (s : State) : Host.Outcome State Fault Refusal :=
  .next (request .config p tag (actLoadRecords body) s)

/-- COMMIT_CONFIG. -/
def execCommitConfig (p : PortId) (tag : Byte) (expected : Half) (s : State) : Host.Outcome State Fault Refusal :=
  .next (request .config p tag (actCommitConfig expected) s)

/-- ABANDON_CONFIG. -/
def execAbandonConfig (p : PortId) (tag : Byte) (s : State) : Host.Outcome State Fault Refusal :=
  .next (request .config p tag actAbandonConfig s)

/-! ## SET_CLOCK (R192) -/

/-- SET_CLOCK. -/
def execSetClock (p : PortId) (tag : Byte) (seconds : Word) (s : State) : Host.Outcome State Fault Refusal :=
  .next (request .switching p tag
    (fun t => ({ t with tbu := { t.tbu with clock := seconds, clockSet := true } }, .ok, [])) s)

/-! ## Resets (R190) -/

/-- Every state of the part as a reset leaves it; the levels of the pins, the waiting commands and the open orders are no
state that a reset reaches. -/
def resetAll (s : State) : State :=
  { State.reset with net := { Net.reset with pins := s.net.pins }, pending := s.pending, choices := s.choices }

/-- The state of the part after a power-on reset: STANDBY, and out of reset unless nRESET is still held low (R190,
assumption 8). -/
def powerOnReset (s : State) : State := (resetAll s).setCfu { State.reset.cfu with inReset := s.cfu.inReset }

/-- POWER_ON_RESET. -/
def execPowerOnReset (s : State) : Host.Outcome State Fault Refusal := .next (powerOnReset s)

/-- The state of the part while nRESET is held low: LINE is set and POWER_ON kept (R190). -/
def lineReset (s : State) : State :=
  (resetAll s).setCfu { State.reset.cfu with inReset := true, causePower := s.cfu.causePower, causeLine := true }

/-- LINE_RESET. -/
def execLineReset (s : State) : Host.Outcome State Fault Refusal := .next (lineReset s)

/-- LEAVE_RESET: STANDBY, uptime 0 (R190, R191). -/
def leaveReset (s : State) : State :=
  if s.cfu.inReset then { s with cfu := { s.cfu with inReset := false }, tbu := { s.tbu with uptime := 0 } } else s

/-- LEAVE_RESET. -/
def execLeaveReset (s : State) : Host.Outcome State Fault Refusal := .next (leaveReset s)

end Sys2Proof.Machine
end

