-- ==== Sys2Proof/Machine/Ticks.lean ====
section
/-!
DEFINITION. The scan tick and the 1 s tick (R15 to R18, R191), and the row of a line change. A tick counts and takes
everything it brings within its event (assumption 3); the blocks that act at a tick come in any order (assumption 4).
-/

namespace Sys2Proof.Machine

/-- The blocks of a list act one after another. -/
def Event.inOrder (f : Block → Event → Event) : List Block → Event → Event
  | [], e => e
  | b :: t, e => Event.inOrder f t (f b e)

/-- As `inOrder`, in an order that the spec leaves open. -/
def Event.inAnyOrder (bs : List Block) (f : Block → Event → Event) (e : Event) : Event :=
  let r := merge (bs.map (fun b => (b, b))) e.choices
  Event.inOrder f r.1 { e with choices := r.2 }

/-! ## Input lines (R15 to R18) -/

/-- A line as sampled: raw level and agreement count (R15, R16). -/
def sampleLine (m : Image) (pins : BitVec 64) (n : Nat) (x : LineScan) : LineScan :=
  { x with
    rawHigh := pins.getLsbD n
    count := if logical (lineOf m n) (pins.getLsbD n) = x.active then 0 else x.count + 1 }

/-- Has a line's agreement count reached its debounce count (R16)? -/
def lineDue (m : Image) (n : Nat) (x : LineScan) : Bool := (lineOf m n).debounce ≤ x.count

/-- The debounced level takes the new logical level (R16). -/
def settleLine (x : LineScan) : LineScan := { x with active := !x.active, count := 0 }

/-- The lines that are due, in ascending index. -/
def dueLines (m : Image) (l : List LineScan) : List Nat :=
  (List.range Config.inputLines).filter (fun n => ((l[n]?).map (lineDue m n)).getD false)

/-- The lines of a list take their new levels. -/
def settleLines (due : List Nat) (l : List LineScan) : List LineScan :=
  mapFrom (fun n x => if n ∈ due then settleLine x else x) 0 l

/-- The actuated valves that a set of lines bears on: one report for the pair (R17), in ascending index (assumption
25). -/
def valvesOn (m : Image) (due : List Nat) : List Nat :=
  keys (m.valves.filter (fun x => x.2.kind == .actuated && due.any (fun n => namesLimit n x.2)))

/-- The sources that a set of lines bears on, in ascending source number (assumption 30). -/
def sourcesOn (m : Image) (due : List Nat) : List Nat :=
  keys (m.sources.filter (fun x => due.any (fun n => x.2.tripLine == some n)))

/-- Limit reports to a list of valves. -/
def Event.limitReports : List Nat → Event → Event
  | [], e => e
  | v :: t, e => Event.limitReports t (e.limitReport v)

/-- Trip levels to a list of sources, whose liveness changes reach the Walk Engine one after another (R38, R41). The
order at one scan is assumption 30. -/
def Event.trips : List Nat → Event → Event
  | [], e => e
  | k :: t, e =>
    Event.trips t (e.trip k (lineActive e.net ((lookup k e.image.sources).bind SourceDef.tripLine)))

/-- A change of a GENERAL line, by its route (R18). -/
def Event.generalLine (n : Nat) (e : Event) : Event :=
  if (lineOf e.image n).role = .general then
    match (lineOf e.image n).route with
    | some .alarm => e.signal .lsc (lineActive e.net (some n)) .lineActive n
    | some .notice => e.post .lsc (.lineChange n (lineActive e.net (some n)) e.uptime) []
    | none => e
  else e

/-- Changes of a list of GENERAL lines, their LINE_CHANGE notices in ascending line index (R18, assumption 30). -/
def Event.generalLines : List Nat → Event → Event
  | [], e => e
  | n :: t, e => Event.generalLines t (e.generalLine n)

/-- What each block does with the lines that changed at a scan (R17). -/
def Event.lineUser (due : List Nat) (b : Block) (e : Event) : Event :=
  match b with
  | .vlc => e.limitReports (valvesOn e.image due)
  | .srm => e.trips (sourcesOn e.image due)
  | .lsc => e.generalLines due
  | _ => e

/-- The blocks that changes of a set of lines reach (R17, R18). -/
def lineUsers (m : Image) (due : List Nat) : List Block :=
  (if valvesOn m due = [] then [] else [.vlc]) ++ (if sourcesOn m due = [] then [] else [.srm])
    ++ (if due.any (fun n => (lineOf m n).role == .general) then [.lsc] else [])

/-- Lines take their new levels, and the changes are delivered (R16, R17). -/
def Event.lineChanges (due : List Nat) (e : Event) : Event :=
  (e.setNet { e.net with lines := settleLines due e.net.lines }).inAnyOrder (lineUsers e.image due) (Event.lineUser due)

/-- A scan of all lines: sampled, and what is due taken (R15, R16). -/
def Event.scan (pins : BitVec 64) (e : Event) : Event :=
  let l := mapFrom (sampleLine e.image pins) 0 e.net.lines
  let e1 := e.setNet { e.net with lines := l }
  if dueLines e.image l = [] then e1 else e1.lineChanges (dueLines e.image l)

/-- The lines delivered together with a line: a valve's two limit lines (R17). -/
def together (m : Image) (line : Nat) : List Nat :=
  match (m.valves.filter (fun x => x.2.kind == .actuated && namesLimit line x.2)).head? with
  | none => [line]
  | some x => x.2.closedLimit.toList ++ x.2.openLimit.toList

/-- A line change that is due, with its valve's other limit line where that is due too (assumption 3). -/
def Event.lineChangeIfDue (line : Nat) (e : Event) : Event :=
  let due := dueLines e.image e.net.lines
  if line ∈ due then e.lineChanges (due.filter (fun n => (together e.image line).contains n)) else e

/-- LINE_CHANGE. -/
def execLineChange (line : Nat) (s : State) : Host.Outcome State Fault Refusal :=
  .next (whenRunning (event (fun e => e.lineChangeIfDue line)) s)

/-! ## The scan tick -/

/-- The levels of the pins as they stand outside the part (assumption 6). -/
def setPins (pins : BitVec 64) (s : State) : State := { s with net := { s.net with pins := pins } }

/-- The step divider, flash phase and lamp-test timer at a scan tick (R162, R164, R166, R191). -/
def scanCounters (s : State) : State := { s with alu := divide s.cfu.image s.alu, msc := tickMimic s.msc }

/-- A scan tick in RUNNING: a step tick of the horn comes before what the scan raises, so that a cadence started at this
tick has a full first step (R163). -/
def scanTick (pins : BitVec 64) (s : State) : State := event (fun e => e.scan pins) (scanCounters s)

/-- SCAN_TICK. -/
def execScanTick (pins : BitVec 64) (s : State) : Host.Outcome State Fault Refusal :=
  .next (whenRunning (scanTick pins) (setPins pins s))

/-! ## The 1 s tick (R191, R192) -/

/-- Calls that take something from the tick (R139). -/
def ticking (c : Call) : Bool := (stageOf c.state).isSome && c.outage.isNone

/-- What each block does at the 1 s tick (R31, R99, R117, R139). -/
def Event.secondAt (b : Block) (e : Event) : Event :=
  match b with
  | .vlc => e.travelTicks (keys e.net.valves)
  | .psv => e.staleTicks (keys e.net.points)
  | .ogt => e.outageTick
  | .clr => e.callTicks (callsWhere ticking e.net)
  | _ => e

/-- The blocks whose timers the 1 s tick can move, those that hold any record (R31, R99, R117, R139). -/
def secondUsers (n : Net) : List Block :=
  (if n.valves = [] then [] else [.vlc]) ++ (if n.points = [] then [] else [.psv])
    ++ (if n.outages = [] then [] else [.ogt]) ++ (if n.calls = [] then [] else [.clr])

/-- Uptime and, in RUNNING, the network clock (R191, R192); they are advanced first (assumption 10). -/
def advanceClocks (s : State) : State :=
  { s with
    tbu := { s.tbu with
      uptime := s.tbu.uptime + 1
      clock := if s.cfu.device = .running then s.tbu.clock + 1 else s.tbu.clock } }

/-- The timers of the blocks. -/
def secondTick (s : State) : State := event (fun e => e.inAnyOrder (secondUsers e.net) Event.secondAt) s

/-- ONE_SECOND_TICK. -/
def execOneSecondTick (s : State) : Host.Outcome State Fault Refusal :=
  .next (if s.cfu.inReset then s else whenRunning secondTick (advanceClocks s))

end Sys2Proof.Machine
end

