-- ==== Sys2Proof/Machine/Reads.lean ====
section
/-!
DEFINITION. NULL, the reads and READ_NOTICES (R171, R175, R177, R178, R193, Table 9-6).
-/

namespace Sys2Proof.Machine

/-- A read that is answered OK with a body (R177). -/
def readOk (body : List Byte) (s : State) : Answer := (s, .ok, body)

/-- A read of an object: its key range, then its record (R177). -/
def readObject {α : Type} (inRange : Bool) (x : Option α) (body : α → List Byte) (s : State) : Answer :=
  if inRange = false then refuse .badArgument s
  else
    match x with
    | none => refuse .noSuchObject s
    | some y => readOk (body y) s

/-- NULL (R171). -/
def execNull (p : PortId) (tag : Byte) (s : State) : Host.Outcome State Fault Refusal :=
  .next (request .null p tag (readOk []) s)

/-! ## Identity and status (R193) -/

/-- Table 10-3. -/
def identityBody (s : State) : List Byte :=
  be8 Config.familyCode ++ be16 Config.partCode ++ be8 Config.designMajor ++ be8 Config.designMinor
    ++ be8 (causeFlags s.cfu)

/-- Bytes 16 to 19 of Table 10-4. -/
def failureBytes : Option CommitFailure → List Byte
  | none => be8 0 ++ be8 0 ++ be16 65535
  | some .checksumMismatch => be8 (statusCode .checksumMismatch) ++ be8 0 ++ be16 65535
  | some (.configInvalid o) => be8 (statusCode .configInvalid) ++ be8 (recordKindCode o.kind) ++ opt16 o.key

/-- Table 10-4. -/
def statusBody (s : State) : List Byte :=
  be8 (deviceCode s.cfu.device) ++ opt8 (s.cfu.authority.map portCode) ++ be8 (causeFlags s.cfu)
    ++ be16 (recordsHeld s.cfu.image) ++ halfBytes s.cfu.checksum ++ wordBytes s.tbu.uptime ++ wordBytes s.tbu.clock
    ++ flag s.tbu.clockSet ++ failureBytes s.cfu.failure

/-- READ_IDENTITY. -/
def execReadIdentity (p : PortId) (tag : Byte) (s : State) : Host.Outcome State Fault Refusal :=
  .next (request .identity p tag (fun t => readOk (identityBody t) t) s)

/-- READ_STATUS. -/
def execReadStatus (p : PortId) (tag : Byte) (s : State) : Host.Outcome State Fault Refusal :=
  .next (request .identity p tag (fun t => readOk (statusBody t) t) s)

/-! ## Notices (R175) -/

/-- A port after a READ_NOTICES: up to 8 notices removed, a LOST marker appended where notices were lost. -/
def takeNotices (clock : Word) (x : Port) : Port :=
  let rest := x.queue.drop Config.noticesPerRead
  Port.refresh
    (if x.queue ≠ [] ∧ x.lost = true then
       { x with queue := rest ++ [{ body := .lost x.discarded, time := clock }], lost := false, discarded := 0 }
     else { x with queue := rest })

/-- READ_NOTICES's effect. -/
def actReadNotices (p : PortId) (s : State) : Answer :=
  (s.setPort p (takeNotices s.tbu.clock), .ok,
   listOf noticeBytes ((s.ports.get p).queue.take Config.noticesPerRead))

/-- READ_NOTICES. -/
def execReadNotices (p : PortId) (tag : Byte) (s : State) : Host.Outcome State Fault Refusal :=
  .next (request .readNotices p tag (actReadNotices p) s)

/-! ## Port reads -/

/-- READ_TRIAL's body: the port's own buffer (R56). -/
def bufferBody (b : TrialBuffer) : List Byte :=
  be8 (bufferCode b) ++
    (match b with
     | .empty => []
     | .waiting => []
     | .ready r completion => consequenceBytes r ++ wordBytes completion)

/-- READ_TRIAL. -/
def execReadTrial (p : PortId) (tag : Byte) (s : State) : Host.Outcome State Fault Refusal :=
  .next (request .read p tag (fun t => readOk (bufferBody (t.ports.get p).buffer) t) s)

/-- One port in READ_PORTS (R178). -/
def portBytes (s : State) (q : PortId) : List Byte :=
  let x := s.ports.get q
  opt8 (x.role.map roleCode) ++ [x.classes] ++ be8 x.queue.length ++ flag x.lost ++ wordBytes x.discarded
    ++ be32 (silentFor s q) ++ be8 (bufferCode x.buffer)

/-- READ_PORTS. -/
def execReadPorts (p : PortId) (tag : Byte) (s : State) : Host.Outcome State Fault Refusal :=
  .next (request .read p tag (fun t => readOk ([PortId.p0, .p1, .p2, .p3].flatMap (portBytes t)) t) s)

/-! ## READ_DEFINITION (R178) -/

/-- The record of a kind and key in force; `none` where the key denotes no object (R2, R14, R178). -/
def definitionOf (m : Image) (kind : RecordKind) (key : Nat) : Option DefRecord :=
  match kind with
  | .sect => (lookup key m.sections).map (.sect key)
  | .valve => (lookup key m.valves).map (.valve key)
  | .source => (lookup key m.sources).map (.source key)
  | .point => (lookup key m.points).map (.point key)
  | .line => some (.line key (lineOf m key))
  | .lamp => some (.lamp key (lampOf m key))
  | .port => some (.port key (portOf m key))
  | .parameters => some (.parameters (paramsOf m))
  | .cadence => some (.cadence key (cadenceOf m key))
  | .priorities => some (.priorities (prioritiesOf m))

/-- READ_DEFINITION's checks and answer. -/
def actReadDefinition (kind : Nat) (key : Nat) (s : State) : Answer :=
  match recordKindOf kind with
  | none => refuse .badArgument s
  | some k => readObject (keyInRange k key) (definitionOf s.cfu.image k key) recordBytes s

/-- READ_DEFINITION. -/
def execReadDefinition (p : PortId) (tag : Byte) (kind : Byte) (key : Half) (s : State) :
    Host.Outcome State Fault Refusal :=
  .next (request .read p tag (actReadDefinition kind.toNat key.toNat) s)

/-! ## Reads of objects (Table 9-6) -/

/-- READ_SECTION's body. -/
def sectionBody (n : Net) (k : Nat) (x : Sect) : List Byte :=
  be8 (supplyCode x.supply) ++ flag x.awaiting ++ optNumber ((outageOf k n.outages).map Outage.number) ++ be8 x.odour
    ++ be8 x.noGas ++ be8 (sectionFlags x)

/-- READ_VALVE's body. -/
def valveBody (x : Valve) : List Byte :=
  be8 (positionCode x.position) ++ opt8 x.claim ++ be16 x.travel ++ be8 (valveFlags x)

/-- READ_SOURCE's body. -/
def sourceBody (x : Source) : List Byte := flag x.tripped ++ flag x.outletLow ++ flag x.out ++ flag x.live

/-- READ_LINES's body. -/
def linesBody (n : Net) : List Byte := n.lines.flatMap (fun x => be8 (lineByte x)) ++ wordBytes n.outputs

/-- READ_LAMPS's body. -/
def lampsBody (x : Msc) : List Byte := be16 x.testTimer ++ lampBytes x.lamps

/-- READ_OUTAGE's body (R86, R177). -/
def outageBody (first : Nat) (o : Outage) : List Byte :=
  outageBytes o ++ be8 o.members.length ++ be8 first ++ (pageOf 33 5 first o.members).flatMap memberBytes

/-- READ_ALARMS's body (R151, R177). -/
def alarmsBody (first : Nat) (a : Alu) : List Byte :=
  wordBytes a.seq ++ wordBytes a.mark ++ be16 a.withheld.length ++ be8 a.entries.length ++ be8 first
    ++ (pageOf 12 22 first a.entries).flatMap entryBytes

/-- READ_WITHHELD's body, in the listing order of R156 (R157, R177). -/
def withheldBody (first : Nat) (a : Alu) : List Byte :=
  be16 a.withheld.length ++ be16 first ++ (pageOf 4 14 first (ranked a.withheld)).flatMap withheldBytes

/-- A point and its definition. -/
def pointPair (s : State) (n : Nat) : Option (Point × PointDef) :=
  match lookup n s.net.points, lookup n s.cfu.image.points with
  | some x, some d => some (x, d)
  | _, _ => none

/-- READ_SECTION. -/
def execReadSection (p : PortId) (tag : Byte) (sect : Half) (s : State) : Host.Outcome State Fault Refusal :=
  .next (request .read p tag (fun t =>
    readObject (sect.toNat < 512) (lookup sect.toNat t.net.sections) (sectionBody t.net sect.toNat) t) s)

/-- READ_VALVE. -/
def execReadValve (p : PortId) (tag : Byte) (valve : Half) (s : State) : Host.Outcome State Fault Refusal :=
  .next (request .read p tag (fun t =>
    readObject (valve.toNat < 1024) (lookup valve.toNat t.net.valves) valveBody t) s)

/-- READ_SOURCE. -/
def execReadSource (p : PortId) (tag : Byte) (source : Byte) (s : State) : Host.Outcome State Fault Refusal :=
  .next (request .read p tag (fun t =>
    readObject (source.toNat < 32) (lookup source.toNat t.net.sources) sourceBody t) s)

/-- READ_POINT. -/
def execReadPoint (p : PortId) (tag : Byte) (point : Byte) (s : State) : Host.Outcome State Fault Refusal :=
  .next (request .read p tag (fun t =>
    readObject true (pointPair t point.toNat) (fun x => pointBytes x.1 x.2) t) s)

/-- READ_LINES. -/
def execReadLines (p : PortId) (tag : Byte) (s : State) : Host.Outcome State Fault Refusal :=
  .next (request .read p tag (fun t => readOk (linesBody t.net) t) s)

/-- READ_LAMPS. -/
def execReadLamps (p : PortId) (tag : Byte) (s : State) : Host.Outcome State Fault Refusal :=
  .next (request .read p tag (fun t => readOk (lampsBody t.msc) t) s)

/-- READ_PLAN. -/
def execReadPlan (p : PortId) (tag : Byte) (plan : Byte) (s : State) : Host.Outcome State Fault Refusal :=
  .next (request .read p tag (fun t =>
    readObject (plan.toNat < 16) (lookup plan.toNat t.net.plans) (planBytes plan.toNat) t) s)

/-- READ_OUTAGE. -/
def execReadOutage (p : PortId) (tag : Byte) (outage : Half) (first : Byte) (s : State) :
    Host.Outcome State Fault Refusal :=
  .next (request .read p tag (fun t =>
    readObject (0 < outage.toNat) (outageAt outage.toNat t.net) (outageBody first.toNat) t) s)

/-- READ_CALL. -/
def execReadCall (p : PortId) (tag : Byte) (call : Half) (s : State) : Host.Outcome State Fault Refusal :=
  .next (request .read p tag (fun t =>
    readObject (0 < call.toNat) ((callNumbered call.toNat t.net.calls).map (fun x => x.2)) callBytes t) s)

/-- READ_ALARMS. -/
def execReadAlarms (p : PortId) (tag : Byte) (first : Byte) (s : State) : Host.Outcome State Fault Refusal :=
  .next (request .read p tag (fun t => readOk (alarmsBody first.toNat t.alu) t) s)

/-- READ_WITHHELD. -/
def execReadWithheld (p : PortId) (tag : Byte) (first : Half) (s : State) : Host.Outcome State Fault Refusal :=
  .next (request .read p tag (fun t => readOk (withheldBody first.toNat t.alu) t) s)

end Sys2Proof.Machine
end

