-- ==== Sys2Proof/Machine/Transfer.lean ====
section
/-!
DEFINITION. TRANSFER (R168 to R170): the pending response shifts out, the bytes are framed, and a request of Table 9-6
runs as the request's own command.
-/

namespace Sys2Proof.Machine

/-- The meaning of a request of Table 9-6; a row that is no request has none here. -/
def requestMeaning (i : Instr) (s : State) : Host.Outcome State Fault Refusal :=
  match i with
  | .powerOnReset => .next s
  | .lineReset => .next s
  | .transfer _ _ => .next s
  | .null port tag => execNull port tag s
  | .readIdentity port tag => execReadIdentity port tag s
  | .readStatus port tag => execReadStatus port tag s
  | .beginConfig port tag => execBeginConfig port tag s
  | .loadRecords port tag body => execLoadRecords port tag body s
  | .commitConfig port tag expected => execCommitConfig port tag expected s
  | .abandonConfig port tag => execAbandonConfig port tag s
  | .setClock port tag seconds => execSetClock port tag seconds s
  | .readNotices port tag => execReadNotices port tag s
  | .readTrial port tag => execReadTrial port tag s
  | .readPorts port tag => execReadPorts port tag s
  | .readDefinition port tag kind key => execReadDefinition port tag kind key s
  | .readSection port tag sect => execReadSection port tag sect s
  | .readValve port tag valve => execReadValve port tag valve s
  | .readSource port tag source => execReadSource port tag source s
  | .readPoint port tag point => execReadPoint port tag point s
  | .readLines port tag => execReadLines port tag s
  | .readLamps port tag => execReadLamps port tag s
  | .readPlan port tag plan => execReadPlan port tag plan s
  | .readOutage port tag outage first => execReadOutage port tag outage first s
  | .readCall port tag call => execReadCall port tag call s
  | .readAlarms port tag first => execReadAlarms port tag first s
  | .readWithheld port tag first => execReadWithheld port tag first s
  | .confirmClosed port tag valve => execConfirmClosed port tag valve s
  | .confirmOpen port tag valve => execConfirmOpen port tag valve s
  | .reportInoperable port tag valve => execReportInoperable port tag valve s
  | .verifyPosition port tag valve position => execVerifyPosition port tag valve position s
  | .planCreate port tag reasonCall => execPlanCreate port tag reasonCall s
  | .planAddValve port tag plan valve => execPlanAddValve port tag plan valve s
  | .planRemoveValve port tag plan valve => execPlanRemoveValve port tag plan valve s
  | .planAssess port tag plan => execPlanAssess port tag plan s
  | .planDeclareOutage port tag plan accepted => execPlanDeclareOutage port tag plan accepted s
  | .planExecute port tag plan => execPlanExecute port tag plan s
  | .planAbort port tag plan => execPlanAbort port tag plan s
  | .planRetry port tag plan => execPlanRetry port tag plan s
  | .planRestore port tag plan => execPlanRestore port tag plan s
  | .planRelease port tag plan => execPlanRelease port tag plan s
  | .planTakeOver port tag plan => execPlanTakeOver port tag plan s
  | .sourceOut port tag source => execSourceOut port tag source s
  | .sourceIn port tag source => execSourceIn port tag source s
  | .setLimits port tag point ll l h hh deadband persistence => execSetLimits port tag point ll l h hh deadband persistence s
  | .trial port tag body => execTrial port tag body s
  | .outageConfirmSection port tag outage sect => execOutageConfirmSection port tag outage sect s
  | .outageRelit port tag outage n => execOutageRelit port tag outage n s
  | .outageNoAccess port tag outage n => execOutageNoAccess port tag outage n s
  | .callNew port tag kind sect grade location present receipt => execCallNew port tag kind sect grade location present receipt s
  | .callAssign port tag call crew => execCallAssign port tag call crew s
  | .callArrived port tag call => execCallArrived port tag call s
  | .callMadeSafe port tag call => execCallMadeSafe port tag call s
  | .callClose port tag call => execCallClose port tag call s
  | .callCancel port tag call => execCallCancel port tag call s
  | .callRegrade port tag call grade => execCallRegrade port tag call grade s
  | .sampleBatch port tag body => execSampleBatch port tag body s
  | .alarmAck port tag alarm => execAlarmAck port tag alarm s
  | .hornSilence port tag => execHornSilence port tag s
  | .lampTest port tag => execLampTest port tag s
  | .scanTick _ => .next s
  | .oneSecondTick => .next s
  | .lineChange _ => .next s
  | .travelTimerExpiry _ => .next s
  | .liveWalkCompletes => .next s
  | .trialCompletes => .next s
  | .rechargeHoldExpiry _ _ => .next s
  | .stalenessExpiry _ => .next s
  | .deadlineExpiry _ => .next s
  | .realarmExpiry _ => .next s
  | .stepTick => .next s
  | .cadencePartEnd => .next s
  | .mimicRowScan => .next s
  | .lampTestEnd => .next s
  | .leaveReset => .next s

/-- The state of an outcome; the part never stops, so the second case stands for nothing. -/
def stateOf (s : State) : Host.Outcome State Fault Refusal → State
  | .next t => t
  | _ => s

/-- A request frame that passed framing: code, checks 2 and 3, body form, owner (R170). -/
def runFrame (code : Byte) (p : PortId) (tag : Byte) (body : List Byte) (s : State) : State :=
  match requestRow code with
  | none => respond p tag .unknownRequest [] (renew p s)
  | some row =>
    match row.command p tag body with
    | none => request row.cls p tag (refuse .badArgument) s
    | some c => stateOf s (requestMeaning c s)

/-- What the bytes of a transfer do (R168, R169). -/
def takeFrame (p : PortId) (f : Framed) (s : State) : State :=
  match f with
  | .nothing => s
  | .frameError tag => respond p tag .frameError [] s
  | .checkError tag => respond p tag .checkError [] s
  | .request code tag body => runFrame code p tag body s

/-- The bits that data-out carries, one for each clock, an incomplete final byte's too (R168). -/
def shiftOut (p : PortId) (n : Nat) (s : State) : State :=
  s.setPort p (fun x => { x with dataOut := shiftedOut x.response n })

/-- A transfer: nothing happens while nRESET holds the part in reset (R167, R190). -/
def transfer (p : PortId) (bits : List Bool) (s : State) : State :=
  if s.cfu.inReset then s
  else takeFrame p (frameBytes (wholeBytes bits)) (shiftOut p bits.length s)

/-- TRANSFER. -/
def execTransfer (port : PortId) (bits : List Bool) (s : State) : Host.Outcome State Fault Refusal :=
  .next (transfer port bits s)

end Sys2Proof.Machine
end

