-- ==== Sys2Proof/Machine/Dispatch.lean ====
section
/-!
DEFINITION. One arm per row of spec/opcode_table.json, each a direct call of the row's meaning.
-/

namespace Sys2Proof.Machine

def exec (i : Instr) (s : State) : Host.Outcome State Fault Refusal :=
  match i with
  | .powerOnReset => Sys2Proof.Machine.execPowerOnReset s
  | .lineReset => Sys2Proof.Machine.execLineReset s
  | .transfer port bits => Sys2Proof.Machine.execTransfer port bits s
  | .null port tag => Sys2Proof.Machine.execNull port tag s
  | .readIdentity port tag => Sys2Proof.Machine.execReadIdentity port tag s
  | .readStatus port tag => Sys2Proof.Machine.execReadStatus port tag s
  | .beginConfig port tag => Sys2Proof.Machine.execBeginConfig port tag s
  | .loadRecords port tag body => Sys2Proof.Machine.execLoadRecords port tag body s
  | .commitConfig port tag expected => Sys2Proof.Machine.execCommitConfig port tag expected s
  | .abandonConfig port tag => Sys2Proof.Machine.execAbandonConfig port tag s
  | .setClock port tag seconds => Sys2Proof.Machine.execSetClock port tag seconds s
  | .readNotices port tag => Sys2Proof.Machine.execReadNotices port tag s
  | .readTrial port tag => Sys2Proof.Machine.execReadTrial port tag s
  | .readPorts port tag => Sys2Proof.Machine.execReadPorts port tag s
  | .readDefinition port tag kind key => Sys2Proof.Machine.execReadDefinition port tag kind key s
  | .readSection port tag sect => Sys2Proof.Machine.execReadSection port tag sect s
  | .readValve port tag valve => Sys2Proof.Machine.execReadValve port tag valve s
  | .readSource port tag source => Sys2Proof.Machine.execReadSource port tag source s
  | .readPoint port tag point => Sys2Proof.Machine.execReadPoint port tag point s
  | .readLines port tag => Sys2Proof.Machine.execReadLines port tag s
  | .readLamps port tag => Sys2Proof.Machine.execReadLamps port tag s
  | .readPlan port tag plan => Sys2Proof.Machine.execReadPlan port tag plan s
  | .readOutage port tag outage first => Sys2Proof.Machine.execReadOutage port tag outage first s
  | .readCall port tag call => Sys2Proof.Machine.execReadCall port tag call s
  | .readAlarms port tag first => Sys2Proof.Machine.execReadAlarms port tag first s
  | .readWithheld port tag first => Sys2Proof.Machine.execReadWithheld port tag first s
  | .confirmClosed port tag valve => Sys2Proof.Machine.execConfirmClosed port tag valve s
  | .confirmOpen port tag valve => Sys2Proof.Machine.execConfirmOpen port tag valve s
  | .reportInoperable port tag valve => Sys2Proof.Machine.execReportInoperable port tag valve s
  | .verifyPosition port tag valve position => Sys2Proof.Machine.execVerifyPosition port tag valve position s
  | .planCreate port tag reasonCall => Sys2Proof.Machine.execPlanCreate port tag reasonCall s
  | .planAddValve port tag plan valve => Sys2Proof.Machine.execPlanAddValve port tag plan valve s
  | .planRemoveValve port tag plan valve => Sys2Proof.Machine.execPlanRemoveValve port tag plan valve s
  | .planAssess port tag plan => Sys2Proof.Machine.execPlanAssess port tag plan s
  | .planDeclareOutage port tag plan accepted => Sys2Proof.Machine.execPlanDeclareOutage port tag plan accepted s
  | .planExecute port tag plan => Sys2Proof.Machine.execPlanExecute port tag plan s
  | .planAbort port tag plan => Sys2Proof.Machine.execPlanAbort port tag plan s
  | .planRetry port tag plan => Sys2Proof.Machine.execPlanRetry port tag plan s
  | .planRestore port tag plan => Sys2Proof.Machine.execPlanRestore port tag plan s
  | .planRelease port tag plan => Sys2Proof.Machine.execPlanRelease port tag plan s
  | .planTakeOver port tag plan => Sys2Proof.Machine.execPlanTakeOver port tag plan s
  | .sourceOut port tag source => Sys2Proof.Machine.execSourceOut port tag source s
  | .sourceIn port tag source => Sys2Proof.Machine.execSourceIn port tag source s
  | .setLimits port tag point ll l h hh deadband persistence => Sys2Proof.Machine.execSetLimits port tag point ll l h hh deadband persistence s
  | .trial port tag body => Sys2Proof.Machine.execTrial port tag body s
  | .outageConfirmSection port tag outage sect => Sys2Proof.Machine.execOutageConfirmSection port tag outage sect s
  | .outageRelit port tag outage n => Sys2Proof.Machine.execOutageRelit port tag outage n s
  | .outageNoAccess port tag outage n => Sys2Proof.Machine.execOutageNoAccess port tag outage n s
  | .callNew port tag kind sect grade location present receipt => Sys2Proof.Machine.execCallNew port tag kind sect grade location present receipt s
  | .callAssign port tag call crew => Sys2Proof.Machine.execCallAssign port tag call crew s
  | .callArrived port tag call => Sys2Proof.Machine.execCallArrived port tag call s
  | .callMadeSafe port tag call => Sys2Proof.Machine.execCallMadeSafe port tag call s
  | .callClose port tag call => Sys2Proof.Machine.execCallClose port tag call s
  | .callCancel port tag call => Sys2Proof.Machine.execCallCancel port tag call s
  | .callRegrade port tag call grade => Sys2Proof.Machine.execCallRegrade port tag call grade s
  | .sampleBatch port tag body => Sys2Proof.Machine.execSampleBatch port tag body s
  | .alarmAck port tag alarm => Sys2Proof.Machine.execAlarmAck port tag alarm s
  | .hornSilence port tag => Sys2Proof.Machine.execHornSilence port tag s
  | .lampTest port tag => Sys2Proof.Machine.execLampTest port tag s
  | .scanTick pins => Sys2Proof.Machine.execScanTick pins s
  | .oneSecondTick => Sys2Proof.Machine.execOneSecondTick s
  | .lineChange line => Sys2Proof.Machine.execLineChange line s
  | .travelTimerExpiry valve => Sys2Proof.Machine.execTravelTimerExpiry valve s
  | .liveWalkCompletes => Sys2Proof.Machine.execLiveWalkCompletes s
  | .trialCompletes => Sys2Proof.Machine.execTrialCompletes s
  | .rechargeHoldExpiry outage sect => Sys2Proof.Machine.execRechargeHoldExpiry outage sect s
  | .stalenessExpiry point => Sys2Proof.Machine.execStalenessExpiry point s
  | .deadlineExpiry call => Sys2Proof.Machine.execDeadlineExpiry call s
  | .realarmExpiry call => Sys2Proof.Machine.execRealarmExpiry call s
  | .stepTick => Sys2Proof.Machine.execStepTick s
  | .cadencePartEnd => Sys2Proof.Machine.execCadencePartEnd s
  | .mimicRowScan => Sys2Proof.Machine.execMimicRowScan s
  | .lampTestEnd => Sys2Proof.Machine.execLampTestEnd s
  | .leaveReset => Sys2Proof.Machine.execLeaveReset s

end Sys2Proof.Machine
end

