-- ==== Sys2Proof/Safety.lean ====
section
/-!
DEFINITION. What the statements about the NS24 are made of: who may send a request, how it is answered, what an event
leaves as it was, notices reaching the ports, and the invariants of the ports, the alarm list, the horn, the walk engine
and the actuator outputs.
-/

namespace Sys2Proof.Machine

/-! ## Requests and responses -/

/-- The part is out of reset and RUNNING (R184). -/
def Running (s : State) : Prop := s.cfu.inReset = false ∧ s.cfu.device = .running

/-- A request of a kind that some roles may send passes checks 2 and 3 of R170. -/
def CanSend (roles : List Role) (p : PortId) (s : State) : Prop :=
  Running s ∧ ∃ r ∈ roles, (s.ports.get p).role = some r

/-- Every role (Table 9-1). -/
def anyRole : List Role := [.dispatch, .switching, .telemetry, .view]

/-- The port's pending response answers a request: status, tag and body as given, the header as the part stands at the
end of the event (R172), and the request counted as the port's last (R171). -/
structure Answered (p : PortId) (tag : Byte) (st : Status) (body : List Byte) (t : State) : Prop where
  status : (t.ports.get p).response.status = st
  tag : (t.ports.get p).response.tag = tag
  body : (t.ports.get p).response.body = body
  device : (t.ports.get p).response.device = t.cfu.device
  notices : (t.ports.get p).response.notices = !(t.ports.get p).queue.isEmpty
  lost : (t.ports.get p).response.lost = (t.ports.get p).lost
  horn : (t.ports.get p).response.horn = hornSounds t.alu
  topology : (t.ports.get p).response.topology = t.net.topology
  supply : (t.ports.get p).response.supply = t.net.supply
  renewed : (t.ports.get p).lastRequest = t.tbu.uptime

/-- Nothing but the port's response and last-request time differs. -/
def OnlyAnswered (p : PortId) (s t : State) : Prop :=
  t = s.setPort p (fun x => { x with response := (t.ports.get p).response, lastRequest := s.tbu.uptime })

/-- What an event at the network blocks leaves as it was: the waiting commands, the Configuration Unit, the Timebase, the
Mimic Scanner, and at the ports everything but notices, and a response at the requesting port. -/
structure KeepsRest (p : Option PortId) (s t : State) : Prop where
  pending : t.pending = s.pending
  cfu : t.cfu = s.cfu
  tbu : t.tbu = s.tbu
  msc : t.msc = s.msc
  role : ∀ q, (t.ports.get q).role = (s.ports.get q).role
  classes : ∀ q, (t.ports.get q).classes = (s.ports.get q).classes
  buffer : ∀ q, (t.ports.get q).buffer = (s.ports.get q).buffer
  dataOut : ∀ q, (t.ports.get q).dataOut = (s.ports.get q).dataOut
  response : ∀ q, p ≠ some q → (t.ports.get q).response = (s.ports.get q).response
  lastRequest : ∀ q, p ≠ some q → (t.ports.get q).lastRequest = (s.ports.get q).lastRequest

/-- A read or a write of an object: its key range is checked, then its record (R177). -/
def ReadsObject (i : Instr) (p : PortId) (tag : Byte) (inRange : Bool) (body : Option (List Byte)) (s : State) : Prop :=
  ∃ t, exec i s = .next t ∧ OnlyAnswered p s t ∧
    Answered p tag (if inRange = false then .badArgument else if body = none then .noSuchObject else .ok)
      (if inRange = false then [] else body.getD []) t

/-- A request is answered with a status other than OK and ACCEPTED and changes nothing else (R170). -/
def Refused (i : Instr) (p : PortId) (tag : Byte) (st : Status) (body : List Byte) (s : State) : Prop :=
  ∃ t, exec i s = .next t ∧ OnlyAnswered p s t ∧ Answered p tag st body t

/-! ## What the network blocks keep -/

/-- Line Scanner: pins and scan state. -/
def KeepsLines (a b : Net) : Prop := b.pins = a.pins ∧ b.lines = a.lines

/-- Valve Controller: valve records and output lines. -/
def KeepsValves (a b : Net) : Prop := b.valves = a.valves ∧ b.outputs = a.outputs

/-- Source Monitor and Walk Engine, but for published states. -/
def KeepsWalk (a b : Net) : Prop :=
  b.sources = a.sources ∧ b.topology = a.topology ∧ b.supply = a.supply ∧ b.walkPending = a.walkPending
    ∧ b.engine = a.engine ∧ b.trials = a.trials

/-- The published state of every section. -/
def KeepsSupply (a b : Net) : Prop :=
  ∀ k, (lookup k b.sections).map Sect.supply = (lookup k a.sections).map Sect.supply

/-- Pressure Supervisor. -/
def KeepsPoints (a b : Net) : Prop := b.points = a.points

/-- Outage Table. -/
def KeepsOutages (a b : Net) : Prop := b.outages = a.outages ∧ b.lastOutage = a.lastOutage

/-- Call Register, but for section counters. -/
def KeepsCalls (a b : Net) : Prop := b.calls = a.calls ∧ b.lastCall = a.lastCall

/-! ## Notices -/

/-- A notice of a class has reached every port that subscribes to the class: it waits in the port's queue, or the queue
was full and the port's lost flag is set (R173, R174). -/
def Notified (c : NoticeClass) (b : NoticeBody) (s t : State) : Prop :=
  ∀ q, subscribes (s.ports.get q).classes c = true →
    ({ body := b, time := s.tbu.clock } ∈ (t.ports.get q).queue ∨ (t.ports.get q).lost = true)

/-- A notice has reached one port, whatever its class set (R173, R174). -/
def NotifiedAt (q : PortId) (b : NoticeBody) (s t : State) : Prop :=
  { body := b, time := s.tbu.clock } ∈ (t.ports.get q).queue ∨ (t.ports.get q).lost = true

/-! ## Ports (R174, R176) -/

/-- A queue holds at most 32 notices, the attention line follows queue and lost flag, notices are lost only at a full
queue, and the discarded count counts them. -/
structure Port.Sound (x : Port) : Prop where
  length : x.queue.length ≤ 32
  attention : x.attention = (!x.queue.isEmpty || x.lost)
  full : x.lost = true → x.queue.length = 32
  counted : x.lost = false → x.discarded = 0

/-- Every port is sound, and none holds or has lost a notice outside RUNNING. -/
def PortsSound (s : State) : Prop :=
  ∀ p, (s.ports.get p).Sound
    ∧ (s.cfu.device ≠ .running → (s.ports.get p).queue = [] ∧ (s.ports.get p).lost = false)

/-! ## The alarm list (R151 to R157) -/

/-- At most 96 entries; one entry or one withheld record for a condition; conditions are withheld only while the list is
full; alarm numbers are distinct and lie in 1 to 65535. -/
structure Alu.Sound (a : Alu) : Prop where
  length : a.entries.length ≤ 96
  conditions : (a.entries.map Entry.cond ++ a.withheld.map Withheld.cond).Nodup
  full : a.withheld ≠ [] → a.entries.length = 96
  numbers : (a.entries.map Entry.number).Nodup
  range : ∀ x ∈ a.entries, 1 ≤ x.number ∧ x.number ≤ 65535

def AlarmsSound (s : State) : Prop := s.alu.Sound

/-! ## The horn (R160, R163) -/

/-- The horn is silent exactly while no entry is eligible; a sounding horn has the most urgent priority among the eligible
entries; its output follows the part of the cadence. -/
structure Alu.HornSound (m : Image) (a : Alu) : Prop where
  silent : hornPriority m a = none ↔ a.horn = .silent
  priority : ∀ p pulse on steps, a.horn = .sounding p pulse on steps → hornPriority m a = some p
  output : a.hornOut = inOnPart a.horn

/-- The horn is sound, and outside RUNNING the list is empty and the horn silent (R151). -/
structure HornSound (s : State) : Prop where
  sound : s.alu.HornSound s.cfu.image
  idle : s.cfu.device ≠ .running → s.alu.entries = [] ∧ s.alu.withheld = [] ∧ s.alu.horn = .silent

/-! ## The walk engine (R43, R44, R53) -/

/-- With nothing pending, published states are those of the present topology, or the running walk's will be; an idle
engine leaves nobody waiting; at most 8 trials wait. -/
def Net.EngineSound (n : Net) : Prop :=
  n.trials.length ≤ 8 ∧
    (match n.engine with
     | .idle => n.walkPending = false ∧ n.trials = [] ∧ n.topology = n.supply
     | .walking x => n.walkPending = false → x.revision = n.topology
     | .trial _ _ _ => n.walkPending = false → n.supply = n.topology)

def EngineSound (s : State) : Prop := s.net.EngineSound

/-! ## Actuator outputs (R6, R29, Table 2-4) -/

/-- Every actuated valve has two outputs of its own (R6). -/
def OutputsDisjoint (m : Image) : Prop :=
  ∀ v d, lookup v m.valves = some d → d.kind = .actuated →
    ∃ c o, d.closeOutput = some c ∧ d.openOutput = some o ∧ c ≠ o ∧ c < 32 ∧ o < 32 ∧
      ∀ w d', w ≠ v → lookup w m.valves = some d' → d'.kind = .actuated →
        d'.closeOutput ≠ some c ∧ d'.closeOutput ≠ some o ∧ d'.openOutput ≠ some c ∧ d'.openOutput ≠ some o

/-- The close output of an actuated valve is driven exactly in CLOSING, its open output exactly in OPENING. -/
def OutputsFollow (m : Image) (n : Net) : Prop :=
  ∀ v d x c o, lookup v m.valves = some d → d.kind = .actuated → lookup v n.valves = some x →
    d.closeOutput = some c → d.openOutput = some o →
    n.outputs.getLsbD c = (x.position == .closing) ∧ n.outputs.getLsbD o = (x.position == .opening)

/-- In RUNNING the outputs of every actuated valve follow its position. -/
def OutputsSound (s : State) : Prop :=
  s.cfu.device = .running → OutputsDisjoint s.cfu.image ∧ OutputsFollow s.cfu.image s.net

/-! ## Chains of valves (R45) -/

/-- Two sections are the sides of a valve whose class in a snapshot is admitted; a valve is passed in either
direction (R5). -/
def Joined (m : Image) (admits : Flow → Prop) (flows : Table Flow) (a b : Nat) : Prop :=
  ∃ v f d, (v, f) ∈ flows ∧ admits f ∧ lookup v m.valves = some d
    ∧ ((a = d.sideA ∧ b = d.sideB) ∨ (a = d.sideB ∧ b = d.sideA))

/-- A chain of admitted valves leads from a section in `start` to section `k`. -/
inductive Chain (m : Image) (admits : Flow → Prop) (flows : Table Flow) (start : Nat → Prop) : Nat → Prop where
  | here {k : Nat} : start k → Chain m admits flows start k
  | pass {a b : Nat} : Chain m admits flows start a → Joined m admits flows a b → Chain m admits flows start b

/-- The section of a live source of a snapshot. -/
def Feeds (m : Image) (live : List Nat) (k : Nat) : Prop := ∃ n d, n ∈ live ∧ lookup n m.sources = some d ∧ d.sect = k

/-- Conducting chains from the live sources. -/
def SuppliedIn (m : Image) (flows : Table Flow) (live : List Nat) : Nat → Prop :=
  Chain m (fun f => f = .conducts) flows (Feeds m live)

/-- Chains on which each valve conducts or is uncertain, from the sections so supplied. -/
def ReachedIn (m : Image) (flows : Table Flow) (live : List Nat) : Nat → Prop :=
  Chain m (fun f => f = .conducts ∨ f = .uncertain) flows (SuppliedIn m flows live)

/-! ## Plans (R24, R57, R59) -/

/-- A plan request from the plan's owner (R59). -/
def OwnsPlan (p : PortId) (slot : Byte) (x : Plan) (s : State) : Prop :=
  CanSend [.switching] p s ∧ slot.toNat < 16 ∧ lookup slot.toNat s.net.plans = some x ∧ x.owner = p

/-- Every plan but one is as it was. -/
def KeepsOtherPlans (slot : Nat) (a b : Net) : Prop := ∀ k, k ≠ slot → lookup k b.plans = lookup k a.plans

/-- Everything of the network blocks but valves, walk, plans and alarms. -/
def KeepsField (a b : Net) : Prop :=
  KeepsLines a b ∧ b.sources = a.sources ∧ b.supply = a.supply ∧ b.sections = a.sections ∧ KeepsPoints a b
    ∧ KeepsOutages a b ∧ KeepsCalls a b

/-- A fresh result passes the execute check of a plan (R69): it is empty, or the plan's outage covers it and its priority
premises are none or accepted. -/
def PassesCheck (n : Net) (p : Plan) (r : Consequence) : Prop :=
  (r.sections = [] ∧ r.overflow = false) ∨
    (r.overflow = false
      ∧ (∀ k ∈ r.sections, ∃ m o, p.outage = some m ∧ outageAt m n = some o ∧ k ∈ memberSections o)
      ∧ (r.priority = 0 ∨ p.accepted = true))

/-! ## Record tables (Introduction 5.2, 5.4) -/

/-- Every table of the image and of the network blocks is in canonical form; plans, outages and calls keep to their
records, and no two outages and no two calls have one number. -/
structure TablesSound (s : State) : Prop where
  sections : s.cfu.image.sections.wf = true ∧ s.net.sections.wf = true
  valves : s.cfu.image.valves.wf = true ∧ s.net.valves.wf = true
  sources : s.cfu.image.sources.wf = true ∧ s.net.sources.wf = true
  points : s.cfu.image.points.wf = true ∧ s.net.points.wf = true
  definitions : s.cfu.image.lines.wf = true ∧ s.cfu.image.lamps.wf = true ∧ s.cfu.image.ports.wf = true
    ∧ s.cfu.image.cadences.wf = true
  plans : s.net.plans.wf = true ∧ ∀ k ∈ keys s.net.plans, k < 16
  outages : s.net.outages.wf = true ∧ ∀ k ∈ keys s.net.outages, k < 32
  calls : s.net.calls.wf = true ∧ ∀ k ∈ keys s.net.calls, k < 128
  outageNumbers : (s.net.outages.map (fun x => x.2.number)).Nodup
  callNumbers : (s.net.calls.map (fun x => x.2.number)).Nodup

/-- A valve's claim names a plan exactly when the valve is in that plan's list (R24, R62); a plan that moves or holds its
valves has the direction of its state (R72 to R78). -/
structure PlansSound (s : State) : Prop where
  claims : ∀ v y k, lookup v s.net.valves = some y →
    (y.claim = some k ↔ ∃ x, lookup k s.net.plans = some x ∧ v ∈ x.valves)
  directions : ∀ k x, lookup k s.net.plans = some x →
    (x.state = .executing ∨ x.state = .isolated → x.direction = .closes)
      ∧ (x.state = .restoring ∨ x.state = .restored → x.direction = .opens)
      ∧ (x.state = .held → x.direction ≠ .unset)

/-! ## Outages (R48, R88, R90) -/

/-- The two equalities of R90, and the priority premises of the members. -/
structure Outage.Balanced (m : Image) (o : Outage) : Prop where
  members : (memberSections o).Nodup
  counts : o.off + o.relit + o.noAccess = o.affected
  affected : o.affected = ((memberSections o).map (premisesOf m)).sum
  priority : o.priority = ((memberSections o).map (priorityPremisesOf m)).sum

/-- Every outage is balanced; no section is in two outages; a section that waits for an outage is in none; a plan's
consequence names no section twice; outside RUNNING there are no plans and no outages. -/
structure OutagesSound (s : State) : Prop where
  balanced : ∀ x ∈ s.net.outages, x.2.Balanced s.cfu.image
  apart : s.net.outages.Pairwise (fun x y => ∀ k ∈ memberSections x.2, k ∉ memberSections y.2)
  awaiting : ∀ k ∈ waiting s.net, outageOf k s.net.outages = none
  consequences : ∀ x ∈ s.net.plans, ∀ c, x.2.consequence = some c → c.sections.Nodup
  idle : s.cfu.device ≠ .running → s.net.plans = [] ∧ s.net.outages = []

/-- A section whose published state is UNSUPPLIED is a member of an outage or has its awaiting-outage flag set, never both,
and no other section has the flag (R48). -/
structure LossesRecorded (s : State) : Prop where
  recorded : ∀ k z, lookup k s.net.sections = some z → z.supply = .unsupplied →
    z.awaiting = true ∨ ∃ o, outageOf k s.net.outages = some o
  flagged : ∀ k z, lookup k s.net.sections = some z → z.awaiting = true →
    z.supply = .unsupplied ∧ outageOf k s.net.outages = none

/-- Plan and outage name one another (R66); a linked call is a NO_GAS call in a member section; the counts of an outage
and of a section are those of the open calls they count (R109, R144). -/
structure LinksSound (s : State) : Prop where
  planLinks : ∀ slot x n, lookup slot s.net.plans = some x → x.outage = some n →
    ∃ o, outageAt n s.net = some o ∧ o.plan = some slot
  outageLinks : ∀ n o slot, outageAt n s.net = some o → o.plan = some slot →
    ∃ x, lookup slot s.net.plans = some x ∧ x.outage = some n
  callLinks : ∀ c ∈ s.net.calls, ∀ n, c.2.outage = some n →
    c.2.kind = .noGas ∧ ∃ o, outageAt n s.net = some o ∧ c.2.sect ∈ memberSections o
  linked : ∀ n o, outageAt n s.net = some o →
    o.linked = (s.net.calls.filter (fun c => c.2.outage == some n)).length
  odour : ∀ k z, lookup k s.net.sections = some z →
    z.odour = (s.net.calls.filter (fun c => c.2.kind == .odour && c.2.sect == k)).length
  noGas : ∀ k z, lookup k s.net.sections = some z →
    z.noGas = (s.net.calls.filter (fun c => c.2.kind == .noGas && c.2.sect == k && c.2.outage.isNone)).length

/-- A RELIGHTING outage with no premises off is freed: its CLOSED notice, its record gone unless gathering can give the
number anew, its linked calls closed, its plan unlinked (R84, R106, R147). -/
structure OutageFreed (n : Nat) (o : Outage) (s t : State) : Prop where
  notified : Notified .outage (.outageState n none 0) s t
  gone : waiting s.net = [] → (∀ k ∈ memberSections o, supplyAt s.net k ≠ .unsupplied) → outageAt n t.net = none
  calls : ∀ m idx c, callNumbered m s.net.calls = some (idx, c) → c.outage = some n →
    callNumbered m t.net.calls = none
      ∧ (c.kind = .noGas → Notified .call (.callState m (.inr .closed) .noGas true c.grade c.sect) s t)
  plan : ∀ slot x, o.plan = some slot → lookup slot s.net.plans = some x → x.outage = some n →
    NotifiedAt x.owner (.planState slot (some x.state) .outageUnlinked x.owner) s t
      ∧ ∃ y, lookup slot t.net.plans = some y ∧ y.outage = none ∧ y.state = x.state ∧ y.owner = x.owner
        ∧ y.valves = x.valves ∧ y.lastReason = .outageUnlinked

/-- The members of an outage, each with one hold and no confirmation. -/
def withHolds (h : Nat) (o : Outage) : List Member := o.members.map (fun x => { x with hold := h, confirmed := false })

/-- An outage after a relapse (R104). -/
def Outage.relapsed (o : Outage) : Outage :=
  { o with state := .active, off := o.off + o.relit, relit := 0, relapse := true, members := withHolds 0 o }

/-- The figures of an outage after a trim to the members in a list, its premises taken from off, then relit, then no
access; calls of the sections that leave are no longer linked (R89, R90, R93, R147). -/
def Outage.trimmed (m : Image) (calls : Table Call) (keep : List Nat) (o : Outage) : Outage :=
  let gone := (memberSections o).filter (fun k => !keep.contains k)
  let p := (gone.map (premisesOf m)).sum
  { o with
    members := o.members.filter (fun x => keep.contains x.sect)
    affected := o.affected - p
    off := o.off - p
    relit := o.relit - (p - o.off)
    noAccess := o.noAccess - (p - o.off - o.relit)
    priority := o.priority - (gone.map (priorityPremisesOf m)).sum
    linked := o.linked - (calls.filter (fun c => c.2.outage == some o.number && gone.contains c.2.sect)).length }

/-! ## Transfers that carry a request (R169, R170) -/

/-- A command is a request, or a transfer whose bits carry it in a frame. -/
def Brings (i c : Instr) : Prop :=
  i = c ∨ ∃ p bits code tag body row, i = .transfer p bits ∧ frameBytes (wholeBytes bits) = .request code tag body
    ∧ requestRow code = some row ∧ row.command p tag body = some c

/-! ## The image at commit (R2 to R13) -/

/-- An image with its defaults applied: zero takes the default in the fields marked so, a lamp bound to nothing names
object 0, and nothing else differs (R2, R10, R12, R13, Tables 1-4 to 1-13). -/
structure DefaultsApplied (m m' : Image) : Prop where
  sections : m'.sections = m.sections
  sources : m'.sources = m.sources
  ports : m'.ports = m.ports
  valves : ∀ k, lookup k m'.valves = (lookup k m.valves).map (fun d =>
    if d.kind = .actuated ∧ d.timeout = some 0 then { d with timeout := some 120 } else d)
  points : ∀ k, lookup k m'.points = (lookup k m.points).map (fun d =>
    { d with persistence := if d.persistence = 0 then 3 else d.persistence
             period := if d.period = 0 then 300 else d.period
             window := if d.window = 0 then 4 else d.window
             threshold := if d.threshold = 0 then 40 else d.threshold })
  lines : ∀ k, lookup k m'.lines = (lookup k m.lines).map (fun d =>
    { d with debounce := if d.debounce = 0 then 3 else d.debounce })
  lamps : ∀ k, lookup k m'.lamps = (lookup k m.lamps).map (fun d =>
    { d with object := if d.kind = .unbound then 0 else d.object })
  parameters : m'.parameters = m.parameters.map (fun d =>
    let given (v standard : Nat) : Nat := if v = 0 then standard else v
    { attend1 := given d.attend1 1800, attend2 := given d.attend2 7200, attend3 := given d.attend3 86400,
      safe1 := given d.safe1 3600, safe2 := given d.safe2 14400, safe3 := given d.safe3 86400,
      realarm := given d.realarm 900, clusterThreshold := given d.clusterThreshold 3,
      clusterGrade := given d.clusterGrade 1, noGasThreshold := given d.noGasThreshold 4, grace := given d.grace 120,
      rechargeHold := given d.rechargeHold 300, hornThreshold := given d.hornThreshold 2 })
  cadences : ∀ k, 1 ≤ k → k ≤ 4 → lookup k m'.cadences = (lookup k m.cadences).map (fun d =>
    { d with onSteps := if d.onSteps = 0 then [2, 4, 6, 10].getD (k - 1) 0 else d.onSteps
             offSteps := if d.offSteps = 0 then [2, 4, 10, 20].getD (k - 1) 0 else d.offSteps })
  priorities : ∀ l, m.priorities = some l → l.length = 17 → m'.priorities = some (List.zipWith
    (fun v standard => if v = 0 then standard else v) l [3, 2, 3, 2, 2, 4, 1, 2, 1, 1, 1, 2, 2, 2, 1, 1, 3])
  noPriorities : m.priorities = none → m'.priorities = none

/-- A LINE record of a role defines a line. -/
def LineHasRole (m : Image) (n : Nat) (r : LineRole) : Prop := ∃ d, lookup n m.lines = some d ∧ d.role = r

/-- The actuated valves of lower index name none of two lines in a pair of fields (R6). -/
def UnusedBelow (m : Image) (k : Nat) (fields : ValveDef → List (Option Nat)) (a b : Nat) : Prop :=
  ∀ j e, j < k → lookup j m.valves = some e → e.kind = .actuated → some a ∉ fields e ∧ some b ∉ fields e

/-- The constraints of a SECTION record (R4). -/
structure SectionOK (m : Image) (k : Nat) (d : SectionDef) : Prop where
  premises : d.priority ≤ d.premises
  source : ∀ n, d.source = some n → ∃ x, lookup n m.sources = some x ∧ x.sect = k

/-- The constraints of an ACTUATED valve (R6). -/
structure ActuatedOK (m : Image) (k : Nat) (d : ValveDef) : Prop where
  timeout : ∃ t, d.timeout = some t ∧ 10 ≤ t ∧ t ≤ 600
  outputs : ∃ a b, d.closeOutput = some a ∧ d.openOutput = some b ∧ a < 32 ∧ b < 32 ∧ a ≠ b
    ∧ UnusedBelow m k (fun e => [e.closeOutput, e.openOutput]) a b
  limits : ∃ a b, d.closedLimit = some a ∧ d.openLimit = some b ∧ a ≠ b
    ∧ UnusedBelow m k (fun e => [e.closedLimit, e.openLimit]) a b ∧ LineHasRole m a .limit ∧ LineHasRole m b .limit
  sixteen : (m.valves.filter (fun x => decide (x.1 < k) && x.2.kind == .actuated)).length < 16

/-- The constraints of a VALVE record (R5, R6). -/
structure ValveOK (m : Image) (k : Nat) (d : ValveDef) : Prop where
  sides : lookup d.sideA m.sections ≠ none ∧ lookup d.sideB m.sections ≠ none ∧ d.sideA ≠ d.sideB
  recorded : d.recorded = .opened ∨ d.recorded = .closed
  manual : d.kind = .manual → d.timeout = none ∧ d.closeOutput = none ∧ d.openOutput = none ∧ d.closedLimit = none
    ∧ d.openLimit = none
  actuated : d.kind = .actuated → ActuatedOK m k d

/-- The constraints of a SOURCE record (R7). -/
structure SourceOK (m : Image) (k : Nat) (d : SourceDef) : Prop where
  sect : ∃ x, lookup d.sect m.sections = some x ∧ x.source = some k
  alone : ∀ j e, j < k → lookup j m.sources = some e → e.sect ≠ d.sect
  trip : ∀ n, d.tripLine = some n →
    LineHasRole m n .trip ∧ ∀ j e, j < k → lookup j m.sources = some e → e.tripLine ≠ some n
  outlet : ∀ n, d.outlet = some n → (∃ x, lookup n m.points = some x ∧ x.sect = d.sect)
    ∧ ∀ j e, j < k → lookup j m.sources = some e → e.outlet ≠ some n

/-- The constraints of a POINT record (R8). -/
structure PointOK (m : Image) (d : PointDef) : Prop where
  sect : lookup d.sect m.sections ≠ none
  limits : d.ll ≤ d.l ∧ d.l ≤ d.h ∧ d.h ≤ d.hh
  deadband : d.deadband ≤ 6553
  persistence : 1 ≤ d.persistence ∧ d.persistence ≤ 8
  period : 5 ≤ d.period ∧ d.period ≤ 3600
  window : 1 ≤ d.window ∧ d.window ≤ 8
  threshold : 1 ≤ d.threshold ∧ d.threshold ≤ 1024

/-- The constraints of a LINE record; that no more than one valve or source names its line is theirs (R6, R7, R9). -/
structure LineOK (m : Image) (k : Nat) (d : LineDef) : Prop where
  debounce : 1 ≤ d.debounce ∧ d.debounce ≤ 15
  limit : d.role = .limit → ∃ v e, lookup v m.valves = some e ∧ e.kind = .actuated
    ∧ (e.closedLimit = some k ∨ e.openLimit = some k)
  trip : d.role = .trip → ∃ n e, lookup n m.sources = some e ∧ e.tripLine = some k
  route : d.route = none ↔ d.role ≠ .general

/-- The constraint of a LAMP record (R10). -/
def LampOK (m : Image) (d : LampDef) : Prop :=
  (d.kind = .valve → lookup d.object m.valves ≠ none) ∧ (d.kind = .sect → lookup d.object m.sections ≠ none)
    ∧ (d.kind = .source → lookup d.object m.sources ≠ none) ∧ (d.kind = .prioritySummary → 1 ≤ d.object ∧ d.object ≤ 4)

/-- The constraints of the PARAMETERS record (R12). -/
structure ParametersOK (d : Parameters) : Prop where
  stages : ∀ v ∈ [d.attend1, d.attend2, d.attend3, d.safe1, d.safe2, d.safe3], 60 ≤ v ∧ v ≤ 86400
  order : d.attend1 ≤ d.attend2 ∧ d.attend2 ≤ d.attend3 ∧ d.safe1 ≤ d.safe2 ∧ d.safe2 ≤ d.safe3
  realarm : 60 ≤ d.realarm ∧ d.realarm ≤ 3600
  clusterThreshold : 2 ≤ d.clusterThreshold ∧ d.clusterThreshold ≤ 8
  clusterGrade : 1 ≤ d.clusterGrade ∧ d.clusterGrade ≤ 2
  noGasThreshold : 2 ≤ d.noGasThreshold ∧ d.noGasThreshold ≤ 16
  grace : 30 ≤ d.grace ∧ d.grace ≤ 600
  rechargeHold : 60 ≤ d.rechargeHold ∧ d.rechargeHold ≤ 1800
  hornThreshold : 1 ≤ d.hornThreshold ∧ d.hornThreshold ≤ 4

/-- A record of an image, or a kind as a whole, breaks a constraint (R3 to R13). -/
def Breaks (m : Image) (x : Offender) : Prop :=
  match x.kind, x.key with
  | .sect, some k => ∃ d, lookup k m.sections = some d ∧ ¬ SectionOK m k d
  | .valve, some k => ∃ d, lookup k m.valves = some d ∧ ¬ ValveOK m k d
  | .source, none => m.sources = []
  | .source, some k => ∃ d, lookup k m.sources = some d ∧ ¬ SourceOK m k d
  | .point, some k => ∃ d, lookup k m.points = some d ∧ ¬ PointOK m d
  | .line, some k => ∃ d, lookup k m.lines = some d ∧ ¬ LineOK m k d
  | .lamp, some k => ∃ d, lookup k m.lamps = some d ∧ ¬ LampOK m d
  | .port, none => ∀ k d, lookup k m.ports = some d → d.role ≠ .switching
  | .parameters, none => ∃ d, m.parameters = some d ∧ ¬ ParametersOK d
  | .cadence, some k => ∃ d, lookup k m.cadences = some d
      ∧ ¬ (1 ≤ d.onSteps ∧ d.onSteps ≤ 20 ∧ 1 ≤ d.offSteps ∧ d.offSteps ≤ 20)
  | .priorities, none => ∃ l, m.priorities = some l ∧ ∃ p ∈ l, ¬ (1 ≤ p ∧ p ≤ 4)
  | _, _ => False

/-- The order in which a commit examines: kinds in the order of Table 1-1, keys ascending (R3). -/
def ExaminedBefore (x y : Offender) : Prop :=
  recordKindCode x.kind < recordKindCode y.kind
    ∨ (x.kind = y.kind ∧ ∃ j k, x.key = some j ∧ y.key = some k ∧ j < k)

/-- The line at which a condition is handed over at commit, a valve's pair at its lower line (R189). -/
def handedAt (m : Image) (c : CondId) : Option Nat :=
  match c.kind with
  | .limitConflict => (lookup c.index m.valves).bind lowerLimit
  | .sourceTrip => (lookup c.index m.sources).bind SourceDef.tripLine
  | .lineActive => some c.index
  | _ => none

/-! ## Alarms as their owners see them (R150) -/

/-- A condition stands at the Alarm List Unit, just raised: an entry to acknowledge, or a withheld record (R153, R154). -/
def StandsRaised (c : CondId) (a : Alu) : Prop :=
  (∃ x ∈ a.entries, x.cond = c ∧ x.state = .activeUnack) ∨ ∃ x ∈ a.withheld, x.cond = c

/-- A condition is inactive at the Alarm List Unit (R155, R157). -/
def StandsCleared (c : CondId) (a : Alu) : Prop :=
  (∀ x ∈ a.entries, x.cond = c → x.state = .clearedUnack) ∧ ∀ x ∈ a.withheld, x.cond ≠ c

/-! ## Reports of a point (R125 to R127) -/

/-- What the reports of one sample or expiry of a point of section `d.sect`, with record `x` before and `y` after, do to
the Outage Table (R98, R99, R104, R125), the Source Monitor (R39, R126) and the Call Register (R127, R145). -/
structure ReportsReach (m : Image) (pt : Nat) (d : PointDef) (x y : Point) (a b : Net) : Prop where
  quiet : ((x.band = y.band ∧ x.fresh = y.fresh) ∨ outageOf d.sect a.outages = none) → KeepsOutages a b
  active : ∀ o, outageOf d.sect a.outages = some o → o.state = .active →
    let leaves := (isFreshLow x = true ∧ isFreshLow y = false) ∨ (x.fresh = true ∧ y.fresh = false)
    let ready := ∀ k ∈ memberSections o, supplyAt a k = .supplied ∧ hasFreshLow m b k = false
    (leaves ∧ ready → outageAt o.number b =
        some { o with state := .recharging, members := withHolds (paramsOf m).rechargeHold o })
      ∧ (¬ (leaves ∧ ready) → KeepsOutages a b)
  recharging : ∀ o, outageOf d.sect a.outages = some o → o.state = .recharging →
    ¬ (x.band = y.band ∧ x.fresh = y.fresh) →
    (qualifying m b d.sect = true → KeepsOutages a b)
      ∧ (qualifying m b d.sect = false → outageAt o.number b =
          some { o with members := o.members.map (fun z =>
            if z.sect = d.sect ∧ z.confirmed = false then { z with hold := (paramsOf m).rechargeHold } else z) })
  relighting : ∀ o, outageOf d.sect a.outages = some o → o.state = .relighting →
    (isFreshLow x = false ∧ isFreshLow y = true → outageAt o.number b = some o.relapsed)
      ∧ (¬ (isFreshLow x = false ∧ isFreshLow y = true) → KeepsOutages a b)
  declared : ∀ o, outageOf d.sect a.outages = some o → o.state = .declared → KeepsOutages a b
  noOutlet : (isFreshLow x = isFreshLow y ∨ outletSource m pt = none) → b.sources = a.sources
  outlet : ∀ k z, isFreshLow x ≠ isFreshLow y → outletSource m pt = some k → lookup k a.sources = some z →
    lookup k b.sources = some { z with outletLow := isFreshLow y, live := !z.tripped && !isFreshLow y && !z.out }
  onset : y.latch = true → x.suppressed = false → x.fallListed = false →
    ∀ c ∈ b.calls, c.2.kind = .odour → c.2.sect = d.sect → c.2.grade ≤ 1
  noOnset : (y.latch = false ∨ x.suppressed = true ∨ x.fallListed = true) → KeepsCalls a b

end Sys2Proof.Machine
end

