-- ==== Sys2Proof/Certificates/Slice0/Obligations.lean ====
section
/-!
DEFINITION. The statements about the NS24 that are put to the provers.
-/

open Sys2Proof Sys2Proof.Machine

/-! ## The step and the frame of a command -/

/-- A step takes the command at the front of the queue and runs it on the state with the queue's rest. That an empty
queue idles is the model's choice (assumption 1). -/
def Obligations.StepRunsFrontCommand : Prop :=
  (∀ c rest (s : State), s.pending = c :: rest → step s = exec c { s with pending := rest })
    ∧ (∀ s : State, s.pending = [] → step s = .next s)

/-- Every command answers a next state, and the commands that wait stay as they are. That no command faults or refuses
is the model's reading (assumption 23), and so is a completion or expiry with nothing to complete, which leaves the
state as it was (assumption 22). -/
def Obligations.EveryCommandAnswersNext : Prop :=
  ∀ (i : Instr) (s : State), ∃ t, exec i s = .next t ∧ t.pending = s.pending

/-- The commands that change the Configuration Unit, those that change uptime and clock, and those that change the
Mimic Scanner. -/
def Obligations.UnitFrames : Prop :=
  (∀ (i : Instr) (s t : State), exec i s = .next t →
    (match i with
     | .powerOnReset => True
     | .lineReset => True
     | .leaveReset => t.cfu = { s.cfu with inReset := false }
     | .transfer _ _ => True
     | .beginConfig _ _ => True
     | .loadRecords _ _ _ => t.cfu.device = s.cfu.device ∧ t.cfu.authority = s.cfu.authority
     | .commitConfig _ _ _ => t.cfu.inReset = s.cfu.inReset ∧ t.cfu.checksum = s.cfu.checksum
     | .abandonConfig _ _ => True
     | .setLimits _ _ _ _ _ _ _ _ _ =>
       ∃ l, t.cfu = { s.cfu with image := { s.cfu.image with points := l } } ∧ keys l = keys s.cfu.image.points
     | _ => t.cfu = s.cfu))
  ∧ (∀ (i : Instr) (s t : State), exec i s = .next t →
    (match i with
     | .powerOnReset => True
     | .lineReset => True
     | .leaveReset => True
     | .transfer _ _ => True
     | .commitConfig _ _ _ => t.tbu.uptime = s.tbu.uptime
     | .setClock _ _ _ => t.tbu.uptime = s.tbu.uptime
     | .oneSecondTick => True
     | _ => t.tbu = s.tbu)
    ∧ (match i with
     | .powerOnReset => True
     | .lineReset => True
     | .transfer _ _ => True
     | .commitConfig _ _ _ => True
     | .lampTest _ _ => True
     | .scanTick _ => t.msc.lamps = s.msc.lamps ∧ t.msc.nextRow = s.msc.nextRow
         ∧ t.msc.drivenRow = s.msc.drivenRow ∧ t.msc.drivenColumns = s.msc.drivenColumns
     | .mimicRowScan => t.msc.testTimer = s.msc.testTimer ∧ t.msc.flash = s.msc.flash
     | _ => t.msc = s.msc))

/-! ## Reset and configuration (Chapter 10) -/

/-- Right after reset the part is in STANDBY, nothing defined, nothing listed, every output released, every port
empty, the running checksum FFFF. POWER_ON_RESET leaves it so with cause POWER_ON alone, still in reset while nRESET
is held low; LINE_RESET holds it in reset, adds cause LINE, keeps POWER_ON and leaves checksum FFFF and a clock of 0
that is not set; LEAVE_RESET brings it to STANDBY with uptime 0. While nRESET holds the part in reset it takes no
transfer and no request, and nothing of its own happens. SET_CLOCK from a SWITCHING port loads the network clock and
marks it set; nothing else of the network changes. That the pins keep their levels is assumption 6; how the reset rows
act and that a part held in reset takes no row is assumption 8; the values at reset of the step divider, the flash
phase, the next row, the last numbers and the data-out bits are the model's choice (assumption 9). -/
def Obligations.ResetAndClock : Prop :=
  (let s := State.reset
   s.cfu.device = .standby ∧ s.cfu.authority = none ∧ s.cfu.image = Image.empty ∧ s.cfu.failure = none
     ∧ s.cfu.checksum = 0xFFFF
     ∧ s.tbu.uptime = 0 ∧ s.tbu.clock = 0 ∧ s.tbu.clockSet = false
     ∧ s.net.lines.length = 64
     ∧ (∀ x ∈ s.net.lines, x.rawHigh = false ∧ x.active = false ∧ x.count = 0)
     ∧ (∀ n, s.net.outputs.getLsbD n = false)
     ∧ s.net.valves = [] ∧ s.net.sources = [] ∧ s.net.sections = [] ∧ s.net.points = []
     ∧ s.net.engine = .idle ∧ s.net.walkPending = false ∧ s.net.trials = [] ∧ s.net.topology = 0 ∧ s.net.supply = 0
     ∧ s.net.plans = [] ∧ s.net.outages = [] ∧ s.net.calls = []
     ∧ s.alu.entries = [] ∧ s.alu.withheld = [] ∧ s.alu.seq = 0 ∧ s.alu.mark = 0 ∧ s.alu.horn = .silent
     ∧ s.alu.hornOut = false ∧ s.msc.lamps = List.replicate 288 .off ∧ s.msc.testTimer = 0 ∧ s.msc.drivenRow = none
     ∧ (∀ p, (s.ports.get p).role = none ∧ (s.ports.get p).classes = 0 ∧ (s.ports.get p).queue = []
         ∧ (s.ports.get p).lost = false ∧ (s.ports.get p).discarded = 0 ∧ (s.ports.get p).buffer = .empty
         ∧ (s.ports.get p).attention = false ∧ (s.ports.get p).response.status = .ok
         ∧ (s.ports.get p).response.tag = 0 ∧ (s.ports.get p).response.body = []))
  ∧ ((∀ s : State,
       (∃ t, exec .powerOnReset s = .next t ∧ t.cfu = { State.reset.cfu with inReset := s.cfu.inReset } ∧ t.tbu = State.reset.tbu
         ∧ t.net = { Net.reset with pins := s.net.pins } ∧ t.alu = Alu.reset ∧ t.msc = Msc.reset
         ∧ (∀ p, t.ports.get p = Port.reset))
       ∧ (∃ t, exec .lineReset s = .next t ∧ t.cfu.inReset = true ∧ t.cfu.device = .standby
         ∧ t.cfu.causeLine = true ∧ t.cfu.causePower = s.cfu.causePower ∧ t.cfu.image = Image.empty
         ∧ t.cfu.authority = none ∧ t.cfu.failure = none ∧ t.cfu.checksum = 0xFFFF
         ∧ t.tbu.clock = 0 ∧ t.tbu.clockSet = false
         ∧ t.net = { Net.reset with pins := s.net.pins } ∧ t.alu = Alu.reset ∧ t.msc = Msc.reset
         ∧ (∀ p, t.ports.get p = Port.reset))
       ∧ (∃ t, exec .leaveReset s = .next t ∧ t.cfu.inReset = false
         ∧ (s.cfu.inReset = true → t = { s with cfu := { s.cfu with inReset := false }, tbu := { s.tbu with uptime := 0 } })
         ∧ (s.cfu.inReset = false → t = s)))
     ∧ (∀ (i : Instr) (s : State), s.cfu.inReset = true →
       (match i with
        | .powerOnReset => True
        | .lineReset => True
        | .leaveReset => True
        | .scanTick pins => exec i s = .next { s with net := { s.net with pins := pins } }
        | _ => exec i s = .next s)))
  ∧ (∀ (s : State) p tag x, CanSend [.switching] p s →
       ∃ t, exec (.setClock p tag x) s = .next t ∧ Answered p tag .ok [] t
         ∧ t.tbu = { s.tbu with clock := x, clockSet := true }
         ∧ t.cfu = s.cfu ∧ t.net = s.net ∧ t.alu = s.alu ∧ t.msc = s.msc
         ∧ ∀ q, q ≠ p → t.ports.get q = s.ports.get q)

/-- Outside RUNNING: BEGIN_CONFIG gives the port authority over an empty image, and ABANDON_CONFIG from that port
returns to STANDBY with an empty image. A commit with another checksum, or of an image with an offending record, is
refused; the image, the session and the device state stand, and the failure is on record. LOAD_RECORDS from the port
with authority holds every record of a body that passes its checks, each replacing the record of its kind and key, and
carries the running checksum on over the body; a body that fails is refused whole. In RUNNING each of the four
requests is refused with WRONG_STATE. The defaults are those of the tables of Chapter 1. No record offends exactly
where every record and every kind keeps its constraints (R3 to R13), and the offending record is the one that breaks a
constraint before every other, kinds in the order of Table 1-1 and keys ascending. -/
def Obligations.ConfigurationSessions : Prop :=
  ((∀ (s : State) p tag, s.cfu.inReset = false →
     (s.cfu.device = .standby →
       ∃ t, exec (.beginConfig p tag) s = .next t ∧ Answered p tag .ok [] t
         ∧ t.cfu = { s.cfu with device := .configuring, authority := some p, image := Image.empty, checksum := 0xFFFF,
                                failure := none }
         ∧ t.tbu = s.tbu ∧ t.net = s.net ∧ t.alu = s.alu ∧ t.msc = s.msc)
     ∧ (s.cfu.device = .configuring → s.cfu.authority = some p →
       Refused (.beginConfig p tag) p tag .wrongState [] s
       ∧ ∃ t, exec (.abandonConfig p tag) s = .next t ∧ Answered p tag .ok [] t
         ∧ t.cfu = { s.cfu with device := .standby, authority := none, image := Image.empty, checksum := 0xFFFF,
                                failure := none }
         ∧ t.tbu = s.tbu ∧ t.net = s.net ∧ t.alu = s.alu ∧ t.msc = s.msc)
     ∧ (∀ q, s.cfu.device = .configuring → s.cfu.authority = some q → p ≠ q →
       Refused (.beginConfig p tag) p tag .configHeld [] s ∧ Refused (.abandonConfig p tag) p tag .notPermitted [] s))
   ∧ (∀ (s : State) p tag x, s.cfu.inReset = false → s.cfu.device = .configuring → s.cfu.authority = some p →
     (x ≠ s.cfu.checksum →
       ∃ t, exec (.commitConfig p tag x) s = .next t ∧ Answered p tag .checksumMismatch [] t
         ∧ t.cfu = { s.cfu with failure := some .checksumMismatch }
         ∧ t.tbu = s.tbu ∧ t.net = s.net ∧ t.alu = s.alu ∧ t.msc = s.msc)
     ∧ (∀ o, offender s.cfu.image.withDefaults = some o →
       ∃ t, exec (.commitConfig p tag s.cfu.checksum) s = .next t
         ∧ Answered p tag .configInvalid (be8 (recordKindCode o.kind) ++ opt16 o.key) t
         ∧ t.cfu = { s.cfu with failure := some (.configInvalid o) }
         ∧ t.tbu = s.tbu ∧ t.net = s.net ∧ t.alu = s.alu ∧ t.msc = s.msc)))
  ∧ (∀ (s : State) p tag body, s.cfu.inReset = false → s.cfu.device = .configuring → s.cfu.authority = some p →
       (∀ l, parseBody body = .inl l →
         ∃ t, exec (.loadRecords p tag body) s = .next t
           ∧ t.cfu = { s.cfu with image := l.foldl holdRecord s.cfu.image, checksum := crcFrom s.cfu.checksum body }
           ∧ Answered p tag .ok (be16 (recordsHeld t.cfu.image) ++ halfBytes t.cfu.checksum) t
           ∧ t.tbu = s.tbu ∧ t.net = s.net ∧ t.alu = s.alu ∧ t.msc = s.msc)
       ∧ (∀ n, parseBody body = .inr n → Refused (.loadRecords p tag body) p tag .badArgument (be8 n) s))
  ∧ (∀ (s : State) p tag, CanSend anyRole p s →
       Refused (.beginConfig p tag) p tag .wrongState [] s
       ∧ (∀ body, Refused (.loadRecords p tag body) p tag .wrongState [] s)
       ∧ (∀ x, Refused (.commitConfig p tag x) p tag .wrongState [] s)
       ∧ Refused (.abandonConfig p tag) p tag .wrongState [] s)
  ∧ (∀ s : State, TablesSound s →
       let m := s.cfu.image.withDefaults
       DefaultsApplied s.cfu.image m
       ∧ (offender m = none ↔ ∀ o, ¬ Breaks m o)
       ∧ (∀ o, offender m = some o ↔ Breaks m o ∧ ∀ x, Breaks m x → x = o ∨ ExaminedBefore o x))

/-- COMMIT_CONFIG with the session's checksum and a valid image starts the network: defaults applied, the dynamic
state seeded from one scan, topology and supply revision 0, the first walk running, clock 0 and not set, buffers
EMPTY. The alarm list holds the conditions that the initial levels raise and no other: LIMIT_CONFLICT of a valve with
both limits ACTIVE, SOURCE_TRIP of a source with its trip line ACTIVE, LINE_ACTIVE of an ACTIVE line routed ALARM.
They stand in the order in which their lines are handed over, unacknowledged, numbered from 1, each announced to the
subscribers of class ALARM. That the seeding scan reads the levels the pins were last given is the model's choice
(assumption 6). -/
def Obligations.CommitStartsTheNetwork : Prop :=
  ∀ (s : State) p tag, s.cfu.inReset = false → s.cfu.device = .configuring → s.cfu.authority = some p →
    offender s.cfu.image.withDefaults = none →
    ∃ t, exec (.commitConfig p tag s.cfu.checksum) s = .next t ∧ Answered p tag .ok [] t
      ∧ t.cfu = { s.cfu with device := .running, image := s.cfu.image.withDefaults, authority := none, failure := none,
                             causePower := false, causeLine := false }
      ∧ t.tbu = { s.tbu with clock := 0, clockSet := false }
      ∧ t.net.lines = seedLines t.cfu.image s.net.pins
      ∧ (∀ v, lookup v t.net.valves = (lookup v t.cfu.image.valves).map (seedValve t.net.lines))
      ∧ (∀ k, lookup k t.net.sources = (lookup k t.cfu.image.sources).map (seedSource t.net.lines))
      ∧ (∀ k, lookup k t.net.sections = (lookup k t.cfu.image.sections).map (fun _ => seedSect))
      ∧ (∀ k, lookup k t.net.points = (lookup k t.cfu.image.points).map (seedPoint s.tbu.uptime))
      ∧ t.net.outputs = 0 ∧ t.net.topology = 0 ∧ t.net.supply = 0 ∧ t.net.trials = [] ∧ t.net.walkPending = false
      ∧ t.net.engine = .walking (snapshotOf conducting t.net)
      ∧ t.net.plans = [] ∧ t.net.outages = [] ∧ t.net.calls = []
      ∧ (∀ q, (t.ports.get q).role = some (portOf t.cfu.image (portCode q)).role
          ∧ (t.ports.get q).classes = (portOf t.cfu.image (portCode q)).classes
          ∧ (t.ports.get q).buffer = .empty ∧ (t.ports.get q).lastRequest = s.tbu.uptime)
      ∧ (TablesSound s →
          let raised (k : CondKind) (n : Nat) : Prop :=
            ∃ x ∈ t.alu.entries, x.cond = { kind := k, index := n }
          let active (n : Option Nat) : Prop := ∃ j x, n = some j ∧ t.net.lines[j]? = some x ∧ x.active = true
          (∀ v, raised .limitConflict v ↔ ∃ d, lookup v t.cfu.image.valves = some d ∧ d.kind = .actuated
              ∧ active d.closedLimit ∧ active d.openLimit)
          ∧ (∀ k, raised .sourceTrip k ↔ ∃ d, lookup k t.cfu.image.sources = some d ∧ active d.tripLine)
          ∧ (∀ n, raised .lineActive n ↔ (lineOf t.cfu.image n).role = .general
              ∧ (lineOf t.cfu.image n).route = some .alarm ∧ active (some n))
          ∧ (∀ x ∈ t.alu.entries, ∃ line, handedAt t.cfu.image x.cond = some line)
          ∧ t.alu.entries.Pairwise (fun x y => ∀ a b, handedAt t.cfu.image x.cond = some a →
              handedAt t.cfu.image y.cond = some b → a < b)
          ∧ t.alu.withheld = [] ∧ t.alu.mark = 0 ∧ t.alu.seq = BitVec.ofNat 32 t.alu.entries.length
          ∧ ∀ j x, t.alu.entries[j]? = some x → x.number = j + 1 ∧ x.seq = BitVec.ofNat 32 (j + 1)
              ∧ x.state = .activeUnack ∧ x.priority = priorityOf t.cfu.image x.cond.kind
              ∧ x.firstRaised = 0 ∧ x.lastChange = 0 ∧ x.repeats = 1 ∧ x.ackPort = none
              ∧ ∀ q, subscribes (t.ports.get q).classes .alarm = true →
                  ({ body := .alarmListed x.number .activeUnack x.cond, time := 0 } ∈ (t.ports.get q).queue
                    ∨ (t.ports.get q).lost = true))

/-! ## Station ports (Chapter 9) -/

/-- NULL, READ_IDENTITY and READ_STATUS are answered OK in every device state; READ_TRIAL, READ_PORTS, READ_LINES,
READ_LAMPS, READ_ALARMS and READ_WITHHELD return what their owners hold, to every role. They change nothing else. A
read of an object is checked against its key range, then against the records held, and returns the record;
READ_DEFINITION returns the record in force of a kind and key, or the one that stands in its place. READ_NOTICES
removes the oldest notices, up to 8, and returns them; where notices were lost it appends a LOST marker with the
discarded count and clears flag and count. The layouts of the bodies are the model's reading (assumption 14), and the
answers to READ_DEFINITION rest on assumption 13. Three points are the model's choice: READ_PORTS gives the seconds
since a port's last request modulo 2^32, READ_WITHHELD ranks raise times as plain numbers (both assumption 18), and
READ_PLAN sends an absent consequence as assumption 31 says. -/
def Obligations.ReadsReturnWhatIsHeld : Prop :=
  ((∀ (s : State) p tag, s.cfu.inReset = false →
     (s.cfu.device = .running → ∃ r, (s.ports.get p).role = some r) →
     (∃ t, exec (.null p tag) s = .next t ∧ OnlyAnswered p s t ∧ Answered p tag .ok [] t)
     ∧ (∃ t, exec (.readIdentity p tag) s = .next t ∧ OnlyAnswered p s t
       ∧ Answered p tag .ok
           [1, 0, 24, 1, 0, BitVec.ofNat 8 (s.cfu.causePower.toNat + 2 * s.cfu.causeLine.toNat)] t)
     ∧ (∃ t, exec (.readStatus p tag) s = .next t ∧ OnlyAnswered p s t
       ∧ Answered p tag .ok
           (be8 (deviceCode s.cfu.device) ++ opt8 (s.cfu.authority.map portCode)
             ++ be8 (s.cfu.causePower.toNat + 2 * s.cfu.causeLine.toNat) ++ be16 (recordsHeld s.cfu.image)
             ++ halfBytes s.cfu.checksum ++ wordBytes s.tbu.uptime ++ wordBytes s.tbu.clock ++ flag s.tbu.clockSet
             ++ failureBytes s.cfu.failure) t))
   ∧ (∀ (s : State) p tag, CanSend anyRole p s →
     (∃ t, exec (.readTrial p tag) s = .next t ∧ OnlyAnswered p s t
       ∧ Answered p tag .ok (bufferBody (s.ports.get p).buffer) t)
     ∧ (∃ t, exec (.readPorts p tag) s = .next t ∧ OnlyAnswered p s t
       ∧ Answered p tag .ok ([PortId.p0, .p1, .p2, .p3].flatMap (fun q =>
           opt8 ((s.ports.get q).role.map roleCode) ++ [(s.ports.get q).classes] ++ be8 (s.ports.get q).queue.length
             ++ flag (s.ports.get q).lost ++ wordBytes (s.ports.get q).discarded
             ++ wordBytes (if q = p then 0 else s.tbu.uptime - (s.ports.get q).lastRequest)
             ++ be8 (bufferCode (s.ports.get q).buffer))) t)
     ∧ (∃ t, exec (.readLines p tag) s = .next t ∧ OnlyAnswered p s t
       ∧ Answered p tag .ok (s.net.lines.flatMap (fun x => be8 (lineByte x)) ++ wordBytes s.net.outputs) t)
     ∧ (∃ t, exec (.readLamps p tag) s = .next t ∧ OnlyAnswered p s t
       ∧ Answered p tag .ok (be16 s.msc.testTimer ++ lampBytes s.msc.lamps) t)
     ∧ (∀ first, ∃ t, exec (.readAlarms p tag first) s = .next t ∧ OnlyAnswered p s t
       ∧ Answered p tag .ok
           (wordBytes s.alu.seq ++ wordBytes s.alu.mark ++ be16 s.alu.withheld.length ++ be8 s.alu.entries.length
             ++ [first] ++ ((s.alu.entries.drop first.toNat).take 10).flatMap entryBytes) t)
     ∧ (∀ first, ∃ t, exec (.readWithheld p tag first) s = .next t ∧ OnlyAnswered p s t
       ∧ Answered p tag .ok
           (be16 s.alu.withheld.length ++ halfBytes first
             ++ (((ranked s.alu.withheld).drop first.toNat).take 16).flatMap withheldBytes) t)))
  ∧ ((∀ (s : State) p tag, CanSend anyRole p s →
       (∀ k : Half, ReadsObject (.readSection p tag k) p tag (k.toNat < 512)
         ((lookup k.toNat s.net.sections).map (sectionBody s.net k.toNat)) s)
       ∧ (∀ k : Half, ReadsObject (.readValve p tag k) p tag (k.toNat < 1024)
         ((lookup k.toNat s.net.valves).map valveBody) s)
       ∧ (∀ k : Byte, ReadsObject (.readSource p tag k) p tag (k.toNat < 32)
         ((lookup k.toNat s.net.sources).map sourceBody) s)
       ∧ (∀ k : Byte, ReadsObject (.readPoint p tag k) p tag true
         ((pointPair s k.toNat).map (fun x => pointBytes x.1 x.2)) s)
       ∧ (∀ k : Byte, ReadsObject (.readPlan p tag k) p tag (k.toNat < 16)
         ((lookup k.toNat s.net.plans).map (planBytes k.toNat)) s)
       ∧ (∀ (k : Half) (first : Byte), ReadsObject (.readOutage p tag k first) p tag (0 < k.toNat)
         ((outageAt k.toNat s.net).map (outageBody first.toNat)) s)
       ∧ (∀ k : Half, ReadsObject (.readCall p tag k) p tag (0 < k.toNat)
         ((callNumbered k.toNat s.net.calls).map (fun x => callBytes x.2)) s))
     ∧ (∀ (s : State) p tag (kind : Byte) (key : Half), CanSend anyRole p s →
       (recordKindOf kind.toNat = none → Refused (.readDefinition p tag kind key) p tag .badArgument [] s)
       ∧ (∀ k, recordKindOf kind.toNat = some k →
         ReadsObject (.readDefinition p tag kind key) p tag (keyInRange k key.toNat)
           ((match k with
             | .sect => (lookup key.toNat s.cfu.image.sections).map (DefRecord.sect key.toNat)
             | .valve => (lookup key.toNat s.cfu.image.valves).map (DefRecord.valve key.toNat)
             | .source => (lookup key.toNat s.cfu.image.sources).map (DefRecord.source key.toNat)
             | .point => (lookup key.toNat s.cfu.image.points).map (DefRecord.point key.toNat)
             | .line => some (.line key.toNat ((lookup key.toNat s.cfu.image.lines).getD LineDef.absent))
             | .lamp => some (.lamp key.toNat ((lookup key.toNat s.cfu.image.lamps).getD LampDef.absent))
             | .port => some (.port key.toNat ((lookup key.toNat s.cfu.image.ports).getD PortDef.absent))
             | .parameters => some (.parameters (s.cfu.image.parameters.getD Parameters.defaults))
             | .cadence => some (.cadence key.toNat
                 ((lookup key.toNat s.cfu.image.cadences).getD (defaultCadence key.toNat)))
             | .priorities => some (.priorities (s.cfu.image.priorities.getD Config.priorities))).map recordBytes) s)))
  ∧ (∀ (s : State) p tag, CanSend anyRole p s →
       ∃ t, exec (.readNotices p tag) s = .next t
         ∧ Answered p tag .ok (be8 ((s.ports.get p).queue.take 8).length
             ++ ((s.ports.get p).queue.take 8).flatMap noticeBytes) t
         ∧ (((s.ports.get p).queue = [] ∨ (s.ports.get p).lost = false) →
             (t.ports.get p).queue = (s.ports.get p).queue.drop 8 ∧ (t.ports.get p).lost = (s.ports.get p).lost
               ∧ (t.ports.get p).discarded = (s.ports.get p).discarded)
         ∧ ((s.ports.get p).queue ≠ [] → (s.ports.get p).lost = true →
             (t.ports.get p).queue = (s.ports.get p).queue.drop 8
                 ++ [{ body := .lost (s.ports.get p).discarded, time := s.tbu.clock }]
               ∧ (t.ports.get p).lost = false ∧ (t.ports.get p).discarded = 0)
         ∧ (t.ports.get p).attention = (!(t.ports.get p).queue.isEmpty || (t.ports.get p).lost)
         ∧ t.cfu = s.cfu ∧ t.tbu = s.tbu ∧ t.net = s.net ∧ t.alu = s.alu ∧ t.msc = s.msc
         ∧ ∀ q, q ≠ p → t.ports.get q = s.ports.get q)

/-- A notice offered to a full queue is discarded for that port, which counts it, while the other ports receive it; a
READ_NOTICES taken before it makes room, and one taken after it appends the LOST marker. -/
def Obligations.NoticeAtAFullQueueIsLost : Prop :=
  ∀ (clock : Word) (n : Post) (ps : Ports) p, entitled p (ps.get p) n = true →
    (32 ≤ (ps.get p).queue.length →
      (deliver clock n ps).get p =
        { ps.get p with
          lost := true
          discarded := if (ps.get p).discarded = 4294967295 then 4294967295 else (ps.get p).discarded + 1
          attention := true }
      ∧ (∀ c, (takeNotices c ((deliver clock n ps).get p)).queue =
          (ps.get p).queue.drop 8 ++ [{ body := .lost ((deliver clock n ps).get p).discarded, time := c }]))
    ∧ ((ps.get p).queue.length < 32 →
      (deliver clock n ps).get p =
        { ps.get p with queue := (ps.get p).queue ++ [{ body := n.body, time := clock }], attention := true })
    ∧ ((ps.get p).queue.length = 32 → ∀ c,
      { body := n.body, time := clock } ∈ ((takeNotices c (ps.get p)).offer { body := n.body, time := clock }).queue)

/-- Ports stay sound at every step, and are sound after reset: at most 32 notices, attention asserted exactly while
the queue is non-empty or the lost flag set, nothing queued outside RUNNING. -/
def Obligations.PortsStaySound : Prop :=
  PortsSound State.reset ∧ ∀ s t, PortsSound s → step s = .next t → PortsSound t

/-- The Station Port Unit's checks 2 and 3: a request before RUNNING that is not one of the seven, a configuration
request without authority, and a request that the port's role does not permit are refused and change nothing else.
Whatever a request is refused for, nothing changes but the port's response and last-request time; a refused commit
also records its failure. -/
def Obligations.RefusalsChangeNothing : Prop :=
  (∀ i (s : State) p tag code body row, encodeRequest i = some (p, tag, code, body) → requestRow code = some row →
     s.cfu.inReset = false →
     (s.cfu.device ≠ .running → row.cls ∉ [.null, .identity, .beginConfig, .config] →
       Refused i p tag .notRunning [] s)
     ∧ (s.cfu.device ≠ .running → row.cls = .config → s.cfu.authority ≠ some p → Refused i p tag .notPermitted [] s)
     ∧ (s.cfu.device = .running → (∀ r, (s.ports.get p).role = some r → permits r row.cls = false) →
       Refused i p tag .notPermitted [] s))
  ∧ (∀ i (s t : State) p tag code body, encodeRequest i = some (p, tag, code, body) → s.cfu.inReset = false →
       exec i s = .next t → (t.ports.get p).response.status ∉ [.ok, .accepted] →
       OnlyAnswered p s { t with cfu := { t.cfu with failure := s.cfu.failure } }
         ∧ ((∀ x, i ≠ .commitConfig p tag x) → t.cfu = s.cfu))

/-- Every request of Table 9-6 is read back from the code and body that carry it, with every operand. A transfer that
carries a request's frame, bit by bit, does what the request does, after the pending response has been shifted out.
During any transfer data-out carries the bits of the pending response, one for each clock, then fill bits of 0; a
transfer of no whole byte does nothing else. That a request row is the request's own event is the model's reading
(assumption 2). -/
def Obligations.RequestFramesAreRead : Prop :=
  (∀ i p tag code body, encodeRequest i = some (p, tag, code, body) →
     ∃ row, requestRow code = some row ∧ row.command p tag body = some i)
  ∧ ((∀ i (s : State) p tag code body, encodeRequest i = some (p, tag, code, body) → body.length ≤ 240 →
       s.cfu.inReset = false →
       exec (.transfer p (bitsOf (frameOf code tag body))) s =
         exec i (s.setPort p (fun x =>
           { x with
             dataOut := (bitsOf (responseFrame x.response) ++ List.replicate (8 * (body.length + 5)) false).take
               (8 * (body.length + 5)) })))
     ∧ (∀ (s : State) p bits, s.cfu.inReset = false →
       ∃ t, exec (.transfer p bits) s = .next t
         ∧ (t.ports.get p).dataOut =
             (bitsOf (responseFrame (s.ports.get p).response) ++ List.replicate bits.length false).take bits.length
         ∧ (bits.length < 8 → t = s.setPort p (fun x => { x with dataOut := (t.ports.get p).dataOut }))))

/-- Bytes that are no frame are answered FRAME_ERROR, a frame whose CRC does not agree CHECK_ERROR; both echo the
second byte, take no request and do not renew the last-request time. A frame with a code of no request is answered
UNKNOWN_REQUEST; one of a fixed form with another body length, where checks 2 and 3 pass, BAD_ARGUMENT. Both renew the
last-request time and change nothing else. -/
def Obligations.BadFramesTakeNoRequest : Prop :=
  (∀ (s : State) p bits, s.cfu.inReset = false →
    ((0 < (wholeBytes bits).length ∧
        ((wholeBytes bits).length < 5 ∨ 240 < ((wholeBytes bits).getD 2 0).toNat
          ∨ (wholeBytes bits).length < 5 + ((wholeBytes bits).getD 2 0).toNat)) →
      ∃ t, exec (.transfer p bits) s = .next t
        ∧ (t.ports.get p).response.status = .frameError ∧ (t.ports.get p).response.tag = (wholeBytes bits).getD 1 0
        ∧ (t.ports.get p).response.body = []
        ∧ t = s.setPort p (fun x =>
            { x with response := (t.ports.get p).response, dataOut := (t.ports.get p).dataOut }))
    ∧ (∀ code tag len rest, wholeBytes bits = code :: tag :: len :: rest → len.toNat ≤ 240 → len.toNat + 2 ≤ rest.length →
      (rest.drop len.toNat).take 2 ≠ halfBytes (crc16 (code :: tag :: len :: rest.take len.toNat)) →
      ∃ t, exec (.transfer p bits) s = .next t
        ∧ (t.ports.get p).response.status = .checkError ∧ (t.ports.get p).response.tag = tag
        ∧ (t.ports.get p).response.body = []
        ∧ t = s.setPort p (fun x =>
            { x with response := (t.ports.get p).response, dataOut := (t.ports.get p).dataOut })))
  ∧ (∀ (s : State) p tag code body, s.cfu.inReset = false → body.length ≤ 240 →
    (requestRow code = none →
      ∃ t, exec (.transfer p (bitsOf (frameOf code tag body))) s = .next t ∧ Answered p tag .unknownRequest [] t
        ∧ OnlyAnswered p (s.setPort p (fun x => { x with dataOut := (t.ports.get p).dataOut })) t)
    ∧ (∀ row, requestRow code = some row → row.command p tag body = none → refusalOf s row.cls p = none →
      ∃ t, exec (.transfer p (bitsOf (frameOf code tag body))) s = .next t ∧ Answered p tag .badArgument [] t
        ∧ OnlyAnswered p (s.setPort p (fun x => { x with dataOut := (t.ports.get p).dataOut })) t))

/-! ## Field lines and valves (Chapter 2) -/

/-- SCAN_TICK in RUNNING: every line takes the sampled level as its raw level and counts towards a change; the scan at
which the count reaches the debounce count takes the new level. The step divider counts the scan ticks and returns to
0 at the tenth, the flash phase runs through 100 scan ticks, and a running lamp test loses one. Every line that
changes is delivered at that scan: a GENERAL line by its route, a limit line as one limit report of its valve over the
new levels, a trip line as the trip state of its source, with liveness and SOURCE_TRIP; valves and sources without
such a line stay as they are. Where no line changes, nothing else happens but the step tick of every tenth scan tick,
at which a sounding horn takes its step: one from the steps remaining, or at the last one the next part of the
cadence. Outside RUNNING no line is sampled and nothing counts. That the row carries the pins' levels is assumption 6,
that it takes its line changes within its event assumption 3, and that a part held in reset takes no scan assumption
8. -/
def Obligations.ScanTickDebouncesLines : Prop :=
  ∀ (s : State) (pins : BitVec 64),
    (Running s →
      ∃ t, exec (.scanTick pins) s = .next t ∧ t.net.pins = pins ∧ t.cfu = s.cfu ∧ t.tbu = s.tbu
        ∧ t.alu.divider = (if s.alu.divider + 1 = 10 then 0 else s.alu.divider + 1)
        ∧ t.msc = { s.msc with flash := if s.msc.flash + 1 < 100 then s.msc.flash + 1 else 0,
                               testTimer := s.msc.testTimer - 1 }
        ∧ ∀ n x, n < 64 → s.net.lines[n]? = some x → 1 ≤ (lineOf s.cfu.image n).debounce →
          ∃ y, t.net.lines[n]? = some y ∧ y.rawHigh = pins.getLsbD n
            ∧ (logical (lineOf s.cfu.image n) (pins.getLsbD n) = x.active → y.active = x.active ∧ y.count = 0)
            ∧ (logical (lineOf s.cfu.image n) (pins.getLsbD n) ≠ x.active →
                x.count + 1 < (lineOf s.cfu.image n).debounce → y.active = x.active ∧ y.count = x.count + 1)
            ∧ (logical (lineOf s.cfu.image n) (pins.getLsbD n) ≠ x.active →
                (lineOf s.cfu.image n).debounce ≤ x.count + 1 → y.active = !x.active ∧ y.count = 0))
    ∧ (Running s → (∀ n, n < 64 → 1 ≤ (lineOf s.cfu.image n).debounce) →
      let due (n : Nat) : Prop := ∃ x, n < 64 ∧ s.net.lines[n]? = some x
        ∧ logical (lineOf s.cfu.image n) (pins.getLsbD n) ≠ x.active ∧ (lineOf s.cfu.image n).debounce ≤ x.count + 1
      ∃ t, exec (.scanTick pins) s = .next t
        ∧ (∀ n x, due n → s.net.lines[n]? = some x → (lineOf s.cfu.image n).role = .general →
            ((lineOf s.cfu.image n).route = some .notice →
              Notified .line (.lineChange n (!x.active) s.tbu.uptime) s t)
            ∧ ((lineOf s.cfu.image n).route = some .alarm → AlarmsSound s →
              (x.active = false → StandsRaised { kind := .lineActive, index := n } t.alu)
              ∧ (x.active = true → StandsCleared { kind := .lineActive, index := n } t.alu)))
        ∧ (TablesSound s → ∀ v d, lookup v s.cfu.image.valves = some d → d.kind = .actuated →
            let turned := ∃ n, due n ∧ (d.closedLimit = some n ∨ d.openLimit = some n)
            (turned → lookup v t.net.valves =
              lookup v (((Event.start s).setNet { s.net with lines := t.net.lines }).limitReport v).net.valves)
            ∧ (¬ turned → lookup v t.net.valves = lookup v s.net.valves))
        ∧ (TablesSound s → ∀ k d z, lookup k s.cfu.image.sources = some d → lookup k s.net.sources = some z →
            ((∀ n, d.tripLine = some n → ¬ due n) → lookup k t.net.sources = some z)
            ∧ (∀ n x, d.tripLine = some n → due n → s.net.lines[n]? = some x →
              (z.tripped = !x.active → lookup k t.net.sources = some z)
              ∧ (z.tripped = x.active →
                lookup k t.net.sources =
                  some { z with tripped := !x.active, live := x.active && !z.outletLow && !z.out }
                ∧ (AlarmsSound s →
                  (x.active = false → StandsRaised { kind := .sourceTrip, index := k } t.alu)
                  ∧ (x.active = true → StandsCleared { kind := .sourceTrip, index := k } t.alu)))))
        ∧ ((∀ n, ¬ due n) →
            t.net = { s.net with pins := pins, lines := t.net.lines } ∧ t.ports = s.ports
            ∧ (s.alu.divider + 1 ≠ 10 → t.alu = { s.alu with divider := s.alu.divider + 1 })
            ∧ (s.alu.divider + 1 = 10 →
              (s.alu.horn = .silent → t.alu = { s.alu with divider := 0 })
              ∧ (∀ p pulse on steps, s.alu.horn = .sounding p pulse on steps → 1 ≤ pulse → pulse ≤ 4 →
                let next := if pulse = 4 then 1 else pulse + 1
                let d := cadenceOf s.cfu.image p
                let nextHorn : Horn :=
                  if on then .sounding p pulse false d.offSteps
                  else .sounding p next true (d.onSteps + (d.extension.getLsbD (next - 1)).toNat)
                (2 ≤ steps → t.alu = { s.alu with divider := 0, horn := .sounding p pulse on (steps - 1) })
                ∧ (steps = 1 → t.alu = { s.alu with divider := 0, horn := nextHorn, hornOut := !on })))))
    ∧ (¬ Running s → exec (.scanTick pins) s = .next { s with net := { s.net with pins := pins } })

/-- LINE_CHANGE of a line whose agreement count has reached its debounce count: the debounced level turns over and the
count is 0. A GENERAL line routed NOTICE posts its notice to the subscribers of class LINE; one routed ALARM raises
LINE_ACTIVE at ACTIVE and clears it at INACTIVE. A valve whose limit line it is takes one limit report over the new
levels. A source whose trip line it is takes the level as its trip state, its liveness follows the three items, and
SOURCE_TRIP is raised or cleared with the trip state. The row rests on assumption 3. -/
def Obligations.LineChangeTurnsTheLevel : Prop :=
  ∀ (s : State) line x, Running s → line < 64 → s.net.lines[line]? = some x →
    (lineOf s.cfu.image line).debounce ≤ x.count →
    ∃ t, exec (.lineChange line) s = .next t ∧ KeepsRest none s t ∧ t.net.pins = s.net.pins
      ∧ t.net.lines[line]? = some { x with active := !x.active, count := 0 }
      ∧ ((lineOf s.cfu.image line).role = .general →
          (lineOf s.cfu.image line).route = some .notice →
          Notified .line (.lineChange line (!x.active) s.tbu.uptime) s t)
      ∧ ((lineOf s.cfu.image line).role = .general →
          (lineOf s.cfu.image line).route = some .alarm →
          (x.active = false → AlarmsSound s → StandsRaised { kind := .lineActive, index := line } t.alu)
          ∧ (x.active = true → AlarmsSound s → StandsCleared { kind := .lineActive, index := line } t.alu))
      ∧ (TablesSound s → ∀ v d, lookup v s.cfu.image.valves = some d → d.kind = .actuated →
          (d.closedLimit = some line ∨ d.openLimit = some line) →
          lookup v t.net.valves =
            lookup v (((Event.start s).setNet { s.net with lines := t.net.lines }).limitReport v).net.valves)
      ∧ (TablesSound s → ∀ k d z, lookup k s.cfu.image.sources = some d → d.tripLine = some line →
          lookup k s.net.sources = some z →
          (z.tripped = !x.active → lookup k t.net.sources = some z)
          ∧ (z.tripped = x.active →
            lookup k t.net.sources =
              some { z with tripped := !x.active, live := x.active && !z.outletLow && !z.out }
            ∧ (x.active = false → AlarmsSound s → StandsRaised { kind := .sourceTrip, index := k } t.alu)
            ∧ (x.active = true → AlarmsSound s → StandsCleared { kind := .sourceTrip, index := k } t.alu)))

/-- The crew's reports on a manual valve that the port's plan claims: CONFIRM_CLOSED in CLOSING, CONFIRM_OPEN in
OPENING and CLOSING, REPORT_INOPERABLE in both; elsewhere WRONG_STATE. The valve alone changes, the change is counted
and announced. -/
def Obligations.CrewReportsMoveTheValve : Prop :=
  ∀ (s : State) p tag (v : Half) x d k pl, CanSend [.switching] p s → lookup v.toNat s.net.valves = some x →
    lookup v.toNat s.cfu.image.valves = some d → d.kind = .manual → x.claim = some k →
    lookup k s.net.plans = some pl → pl.owner = p →
    let moves (i : Instr) (pos : Position) (stuck : Bool) : Prop :=
      ∃ t, exec i s = .next t ∧ Answered p tag .ok [] t ∧ KeepsRest (some p) s t
        ∧ lookup v.toNat t.net.valves = some { x with position := pos, travel := 0, stuck := stuck }
        ∧ (∀ w, w ≠ v.toNat → lookup w t.net.valves = lookup w s.net.valves)
        ∧ t.net.outputs = s.net.outputs ∧ t.net.topology = s.net.topology + 1
        ∧ Notified .valve (.valvePosition v.toNat pos (some k)) s t
        ∧ KeepsLines s.net t.net ∧ t.net.sources = s.net.sources ∧ t.net.supply = s.net.supply
        ∧ t.net.sections = s.net.sections ∧ KeepsPoints s.net t.net ∧ KeepsOutages s.net t.net ∧ KeepsCalls s.net t.net
    (x.position = .closing → moves (.confirmClosed p tag v) .closed false
      ∧ moves (.confirmOpen p tag v) .opened false ∧ moves (.reportInoperable p tag v) .stuck true)
    ∧ (x.position = .opening → moves (.confirmOpen p tag v) .opened false
      ∧ moves (.reportInoperable p tag v) .stuck true)
    ∧ (x.position ≠ .closing → Refused (.confirmClosed p tag v) p tag .wrongState [] s)
    ∧ (x.position ≠ .closing → x.position ≠ .opening → Refused (.confirmOpen p tag v) p tag .wrongState [] s
      ∧ Refused (.reportInoperable p tag v) p tag .wrongState [] s)

/-- VERIFY_POSITION of a valve that no plan claims, or that the port's HELD plan claims: the position becomes the one
given, VALVE_STUCK and UNCOMMANDED_MOVE are cleared, the outputs of an actuated valve are released, and a change is
counted and announced. -/
def Obligations.VerifySetsThePosition : Prop :=
  ∀ (s : State) p tag (v : Half) x d y (arg : Byte), CanSend [.switching] p s →
    lookup v.toNat s.net.valves = some x → lookup v.toNat s.cfu.image.valves = some d →
    (d.kind = .manual ∨ x.position = .stuck ∨ x.position = .unknown) →
    (x.claim = none ∨ ∃ k pl, x.claim = some k ∧ lookup k s.net.plans = some pl ∧ pl.owner = p ∧ pl.state = .held) →
    ((arg = 0 ∧ y = .opened) ∨ (arg = 1 ∧ y = .closed)) →
    ∃ t, exec (.verifyPosition p tag v arg) s = .next t ∧ Answered p tag .ok [] t ∧ KeepsRest (some p) s t
      ∧ lookup v.toNat t.net.valves = some { x with position := y, travel := 0, stuck := false, uncommanded := false }
      ∧ (∀ w, w ≠ v.toNat → lookup w t.net.valves = lookup w s.net.valves)
      ∧ (x.position = y → t.net.topology = s.net.topology)
      ∧ (x.position ≠ y → t.net.topology = s.net.topology + 1
          ∧ Notified .valve (.valvePosition v.toNat y x.claim) s t)
      ∧ (d.kind = .manual → t.net.outputs = s.net.outputs)
      ∧ (∀ c o, d.kind = .actuated → d.closeOutput = some c → d.openOutput = some o →
          t.net.outputs.getLsbD c = false ∧ t.net.outputs.getLsbD o = false)
      ∧ KeepsLines s.net t.net ∧ t.net.sources = s.net.sources ∧ t.net.supply = s.net.supply
      ∧ t.net.sections = s.net.sections ∧ KeepsPoints s.net t.net ∧ KeepsOutages s.net t.net ∧ KeepsCalls s.net t.net

/-- An actuated valve under an order whose travel time has run out becomes STUCK with both outputs released, and the
change is counted and announced. The row rests on assumption 3. -/
def Obligations.TravelTimerExpirySticksTheValve : Prop :=
  ∀ (s : State) v x d c o, Running s → lookup v s.net.valves = some x → lookup v s.cfu.image.valves = some d →
    d.kind = .actuated → d.closeOutput = some c → d.openOutput = some o →
    (x.position = .closing ∨ x.position = .opening) → x.travel = 0 →
    ∃ t, exec (.travelTimerExpiry v) s = .next t ∧ KeepsRest none s t
      ∧ lookup v t.net.valves = some { x with position := .stuck, travel := 0, stuck := true }
      ∧ (∀ w, w ≠ v → lookup w t.net.valves = lookup w s.net.valves)
      ∧ t.net.outputs.getLsbD c = false ∧ t.net.outputs.getLsbD o = false
      ∧ (∀ n, n ≠ c → n ≠ o → t.net.outputs.getLsbD n = s.net.outputs.getLsbD n)
      ∧ t.net.topology = s.net.topology + 1
      ∧ Notified .valve (.valvePosition v .stuck x.claim) s t
      ∧ KeepsLines s.net t.net ∧ t.net.sources = s.net.sources ∧ t.net.supply = s.net.supply
      ∧ t.net.sections = s.net.sections ∧ KeepsPoints s.net t.net ∧ KeepsOutages s.net t.net ∧ KeepsCalls s.net t.net

/-- A close order or an open order from the Plan Table: the valve at its end stays, the valve already on its way
stays, and any other sets out; an actuated valve drives the one output, releases the other and loads its travel timer,
and one whose limits already show the end is there at once. UNCOMMANDED_MOVE is cleared. -/
def Obligations.OrdersSetValvesMoving : Prop :=
  ∀ (e : Event) v x d dir, dir ≠ .unset → lookup v e.net.valves = some x → lookup v e.image.valves = some d →
    let n := (e.order dir v).net
    (∀ w, w ≠ v → lookup w n.valves = lookup w e.net.valves)
    ∧ (d.kind = .manual → n.outputs = e.net.outputs
      ∧ (lookup v n.valves).map Valve.position = some (if x.position = endOf dir then endOf dir else travelOf dir))
    ∧ (∀ c o t, d.kind = .actuated → d.closeOutput = some c → d.openOutput = some o → d.timeout = some t → c ≠ o →
        c < 32 → o < 32 →
        (x.position = endOf dir ∨ shownBy (limitPair d e.net) = some (endOf dir) →
          (lookup v n.valves).map Valve.position = some (endOf dir)
            ∧ n.outputs.getLsbD c = false ∧ n.outputs.getLsbD o = false)
        ∧ (x.position ≠ endOf dir → x.position ≠ travelOf dir → shownBy (limitPair d e.net) ≠ some (endOf dir) →
          (lookup v n.valves).map (fun y => (y.position, y.travel)) = some (travelOf dir, t)
            ∧ n.outputs.getLsbD c = (dir == .closes) ∧ n.outputs.getLsbD o = (dir == .opens))
        ∧ (x.position = travelOf dir → shownBy (limitPair d e.net) ≠ some (endOf dir) →
          n.outputs = e.net.outputs
            ∧ (lookup v n.valves).map (fun y => (y.position, y.travel)) = some (x.position, x.travel)))
    ∧ (lookup v n.valves).map Valve.uncommanded = some false

/-- What a limit report makes of an actuated valve's position, LIMIT_CONFLICT and UNCOMMANDED_MOVE, by the pair of
limits and the position it finds. What ends a conflict under an order rests on assumption 15. -/
def Obligations.LimitReportsFollowTheLimits : Prop :=
  ∀ (e : Event) v x d, lookup v e.net.valves = some x → lookup v e.image.valves = some d → d.kind = .actuated →
    let r := (lookup v (e.limitReport v).net.valves).map (fun y => (y.position, y.conflict, y.uncommanded))
    let pair := limitPair d e.net
    (pair = (true, true) → r = some (.unknown, true, x.uncommanded))
    ∧ (pair ≠ (true, true) → x.conflict = true →
        r = some ((shownBy pair).getD .unknown, false, x.uncommanded))
    ∧ (x.conflict = false →
        (pair = (true, false) →
          (x.position = .closing ∨ x.position = .stuck ∨ x.position = .unknown →
            r = some (.closed, false, x.uncommanded))
          ∧ (x.position = .opened → r = some (.closed, false, true))
          ∧ (x.position = .opening ∨ x.position = .closed → r = some (x.position, false, x.uncommanded)))
        ∧ (pair = (false, true) →
          (x.position = .opening ∨ x.position = .stuck ∨ x.position = .unknown →
            r = some (.opened, false, x.uncommanded))
          ∧ (x.position = .closed → r = some (.opened, false, true))
          ∧ (x.position = .closing ∨ x.position = .opened → r = some (x.position, false, x.uncommanded)))
        ∧ (pair = (false, false) →
          (x.position = .opened ∨ x.position = .closed → r = some (.unknown, false, true))
          ∧ (x.position ≠ .opened → x.position ≠ .closed → r = some (x.position, false, x.uncommanded))))

/-- In RUNNING, at every step: the close output of every actuated valve is driven exactly while the valve is CLOSING,
its open output exactly while it is OPENING; so no valve is ever driven both ways. -/
def Obligations.OutputsFollowTheValves : Prop :=
  OutputsSound State.reset ∧ ∀ s t, OutputsSound s → step s = .next t → OutputsSound t

/-! ## Sources, the walk and trials (Chapter 3) -/

/-- SOURCE_OUT and SOURCE_IN set the out-of-service flag; liveness follows the three items; a change of liveness is
counted and starts a walk on an idle engine, or leaves one pending. -/
def Obligations.SourceServiceAndLiveness : Prop :=
  ∀ (s : State) p tag (k : Byte) (out : Bool), CanSend [.switching] p s →
    let i := if out then Instr.sourceOut p tag k else .sourceIn p tag k
    (lookup k.toNat s.net.sources = none → Refused i p tag .noSuchObject [] s)
    ∧ (∀ x, lookup k.toNat s.net.sources = some x →
      let live := !x.tripped && !x.outletLow && !out
      ∃ t, exec i s = .next t ∧ Answered p tag .ok [] t ∧ KeepsRest (some p) s t
        ∧ lookup k.toNat t.net.sources = some { x with out := out, live := live }
        ∧ (∀ j, j ≠ k.toNat → lookup j t.net.sources = lookup j s.net.sources)
        ∧ (live = x.live → t.net.topology = s.net.topology ∧ t.net.walkPending = s.net.walkPending
            ∧ t.net.engine = s.net.engine)
        ∧ (live ≠ x.live → t.net.topology = s.net.topology + 1
            ∧ (s.net.engine = .idle → t.net.walkPending = false
                ∧ t.net.engine = .walking (snapshotOf conducting t.net))
            ∧ (s.net.engine ≠ .idle → t.net.walkPending = true ∧ t.net.engine = s.net.engine))
        ∧ t.alu = s.alu ∧ KeepsLines s.net t.net ∧ KeepsValves s.net t.net ∧ t.net.supply = s.net.supply
        ∧ t.net.trials = s.net.trials ∧ t.net.sections = s.net.sections ∧ t.net.plans = s.net.plans
        ∧ KeepsPoints s.net t.net ∧ KeepsOutages s.net t.net ∧ KeepsCalls s.net t.net)

/-- A section is SUPPLIED where a chain of conducting valves leads to it from the section of a live source, UNCERTAIN
where it is not and a chain of valves that each conduct or are uncertain leads to it from a SUPPLIED section, and
UNSUPPLIED otherwise. -/
def Obligations.ClassificationFollowsChains : Prop :=
  ∀ (m : Image) (x : Snapshot) (k : Nat),
    (classify m x k = .supplied ↔ SuppliedIn m x.valves x.live k)
    ∧ (classify m x k = .uncertain ↔ ¬ SuppliedIn m x.valves x.live k ∧ ReachedIn m x.valves x.live k)
    ∧ (classify m x k = .unsupplied ↔ ¬ SuppliedIn m x.valves x.live k ∧ ¬ ReachedIn m x.valves x.live k)

/-- The consequence of a trial: the sections SUPPLIED in the baseline and not with the closure set closed, the first
64 in the list, all of them in the totals, with the snapshot's revision as basis. -/
def Obligations.TrialResultIsTheConsequence : Prop :=
  ∀ (m : Image) (x : Snapshot) (closure : List Nat),
    ∃ l : List Nat, l.Sublist (keys m.sections)
      ∧ (∀ k, k ∈ l ↔ k ∈ keys m.sections ∧ SuppliedIn m x.valves x.live k
          ∧ ¬ SuppliedIn m (closeIn closure x.valves) x.live k)
      ∧ (trialResult m x closure).sections = l.take 64
      ∧ ((trialResult m x closure).overflow = true ↔ 64 < l.length)
      ∧ (trialResult m x closure).premises = (l.map (premisesOf m)).sum
      ∧ (trialResult m x closure).priority = (l.map (priorityPremisesOf m)).sum
      ∧ (trialResult m x closure).basis = x.revision

/-- A live walk that completes publishes the classes of its snapshot as the supply states, whatever changed meanwhile,
and the snapshot's revision as the supply revision; a change of any state is announced. -/
def Obligations.WalkPublishesItsSnapshot : Prop :=
  ∀ (s : State) x, Running s → s.net.engine = .walking x →
    ∃ t, exec .liveWalkCompletes s = .next t ∧ KeepsRest none s t
      ∧ (∀ k, (lookup k t.net.sections).map Sect.supply
          = (lookup k s.net.sections).map (fun _ => classify s.cfu.image x k))
      ∧ t.net.supply = x.revision ∧ t.net.topology = s.net.topology
      ∧ (∀ l, l = (keys s.net.sections).filter (fun k =>
            ((lookup k s.net.sections).map Sect.supply) != some (classify s.cfu.image x k)) → l ≠ [] →
          Notified .supply (.supplyPublished l.length x.revision) s t)
      ∧ KeepsLines s.net t.net ∧ KeepsValves s.net t.net ∧ t.net.sources = s.net.sources

/-- The arbiter at a completion: after a walk the oldest trial goes first, after a trial the pending walk. An idle
engine starts what comes at once; a running walk or trial is not interrupted. -/
def Obligations.ArbiterGrantsByTheTable : Prop :=
  ∀ n : Net,
    (∀ t rest, n.trials = t :: rest →
      (grantAfterWalk n).engine = .trial (snapshotOf intended n) t.requester (closureOf n t)
        ∧ (grantAfterWalk n).trials = rest ∧ (grantAfterWalk n).walkPending = n.walkPending)
    ∧ (n.trials = [] → n.walkPending = true →
      (grantAfterWalk n).engine = .walking (snapshotOf conducting n) ∧ (grantAfterWalk n).walkPending = false)
    ∧ (n.walkPending = true →
      (grantAfterTrial n).engine = .walking (snapshotOf conducting n) ∧ (grantAfterTrial n).walkPending = false
        ∧ (grantAfterTrial n).trials = n.trials)
    ∧ (∀ t rest, n.trials = t :: rest → n.walkPending = false →
      (grantAfterTrial n).engine = .trial (snapshotOf intended n) t.requester (closureOf n t)
        ∧ (grantAfterTrial n).trials = rest ∧ (grantAfterTrial n).walkPending = false)
    ∧ (n.trials = [] → n.walkPending = false →
      (grantAfterWalk n).engine = .idle ∧ (grantAfterTrial n).engine = .idle)
    ∧ (n.engine = .idle →
      (countChange n).engine = .walking (snapshotOf conducting (countChange n)) ∧ (countChange n).walkPending = false
        ∧ ∀ t, n.trials = [] →
          queueTrial t n = some { n with engine := .trial (snapshotOf intended n) t.requester (closureOf n t) })
    ∧ (n.engine ≠ .idle →
      (countChange n).engine = n.engine ∧ (countChange n).walkPending = true
        ∧ ∀ t, n.trials.length < 8 → queueTrial t n = some { n with trials := n.trials ++ [t] })

/-- The walk engine stays sound at every step, and is sound after reset: published states lag only while a walk runs
or is pending, nobody waits at an idle engine, at most 8 trials wait. -/
def Obligations.EngineStaysSound : Prop :=
  EngineSound State.reset ∧ ∀ s t, EngineSound s → step s = .next t → EngineSound t

/-- TRIAL of 1 to 16 defined valves, each given once, from a port with no trial of its own under way, while the queue
has room: ACCEPTED; the port's buffer waits; the trial starts at once on an idle engine and otherwise joins the queue.
A standalone trial that completes fills its port's buffer with the result and the topology revision at completion, and
is announced to that port; no supply state changes, and the engine passes to the pending walk or the oldest trial. -/
def Obligations.StandaloneTrialsRun : Prop :=
  (∀ (s : State) p tag body l, CanSend [.dispatch, .switching] p s → indicesOf body = some l → l ≠ [] → l.length ≤ 16 →
    l.Nodup → (∀ v ∈ l, (lookup v s.net.valves).isSome = true) → hasTrial p s.net = false → s.net.trials.length < 8 →
    ∃ t, exec (.trial p tag body) s = .next t ∧ Answered p tag .accepted [] t
      ∧ (t.ports.get p).buffer = .waiting
      ∧ (s.net.engine ≠ .idle → t.net = { s.net with trials := s.net.trials ++ [{ requester := .port p, closure := l }] })
      ∧ (s.net.engine = .idle → s.net.trials = [] →
          t.net = { s.net with engine := .trial (snapshotOf intended s.net) (.port p) l })
      ∧ t.pending = s.pending ∧ t.cfu = s.cfu ∧ t.tbu = s.tbu ∧ t.alu = s.alu ∧ t.msc = s.msc
      ∧ (t.ports.get p).queue = (s.ports.get p).queue ∧ ∀ q, q ≠ p → t.ports.get q = s.ports.get q)
  ∧ (∀ (s : State) x p closure, Running s → s.net.engine = .trial x (.port p) closure →
    ∃ t, exec .trialCompletes s = .next t
      ∧ (t.ports.get p).buffer = .ready (trialResult s.cfu.image x closure) s.net.topology
      ∧ NotifiedAt p (.trialDone (trialResult s.cfu.image x closure).sections.length
          (trialResult s.cfu.image x closure).overflow x.revision) s t
      ∧ t.net = grantAfterTrial s.net
      ∧ t.pending = s.pending ∧ t.cfu = s.cfu ∧ t.tbu = s.tbu ∧ t.alu = s.alu ∧ t.msc = s.msc
      ∧ ∀ q, q ≠ p → t.ports.get q = s.ports.get q)

/-! ## Isolation plans (Chapter 4) -/

/-- PLAN_CREATE takes the lowest-numbered free slot: the reason call must be open, then a slot must be free. The new
record is a DRAFT of the requesting port with an empty list, announced to it. -/
def Obligations.PlanCreateTakesTheLowestSlot : Prop :=
  ∀ (s : State) p tag (call : Half), CanSend [.switching] p s →
    (call ≠ 0 → callNumbered call.toNat s.net.calls = none → Refused (.planCreate p tag call) p tag .noSuchObject [] s)
    ∧ (call = 0 ∨ callNumbered call.toNat s.net.calls ≠ none →
      ((∀ k, k < 16 → lookup k s.net.plans ≠ none) → Refused (.planCreate p tag call) p tag .tableFull [] s)
      ∧ (∀ slot, slot < 16 → lookup slot s.net.plans = none → (∀ k, k < slot → lookup k s.net.plans ≠ none) →
        ∃ t, exec (.planCreate p tag call) s = .next t ∧ Answered p tag .ok (be8 slot) t ∧ KeepsRest (some p) s t
          ∧ t.net = { s.net with
              plans := put slot
                { owner := p, state := .draft, valves := [], direction := .unset,
                  reasonCall := if call = 0 then none else some call.toNat, consequence := none, outage := none,
                  accepted := false, attempts := 0, lastReason := .requested } s.net.plans }
          ∧ t.alu = s.alu
          ∧ NotifiedAt p (.planState slot (some .draft) .requested p) s t
          ∧ Notified .plan (.planState slot (some .draft) .requested p) s t))

/-- PLAN_ADD_VALVE appends the valve and claims it, PLAN_REMOVE_VALVE takes it out and releases it; an ASSESSED plan
returns to DRAFT without its consequence. Each check refuses in its turn. -/
def Obligations.ValveListHoldsTheClaims : Prop :=
  ∀ (s : State) p tag (slot : Byte) (v : Half) x, OwnsPlan p slot x s → (x.state = .draft ∨ x.state = .assessed) →
    let changes (i : Instr) (l : List Nat) (c : Option Nat) : Prop :=
      ∃ t, exec i s = .next t ∧ Answered p tag .ok [] t ∧ KeepsRest (some p) s t ∧ t.alu = s.alu
        ∧ (x.state = .draft → lookup slot.toNat t.net.plans = some { x with valves := l })
        ∧ (x.state = .assessed → lookup slot.toNat t.net.plans =
            some { x with valves := l, state := .draft, consequence := none, accepted := false, lastReason := .requested })
        ∧ KeepsOtherPlans slot.toNat s.net t.net
        ∧ (∀ w, lookup w t.net.valves =
            (lookup w s.net.valves).map (fun y => if w = v.toNat then { y with claim := c } else y))
        ∧ t.net = { s.net with plans := t.net.plans, valves := t.net.valves }
    (lookup v.toNat s.net.valves = none → Refused (.planAddValve p tag slot v) p tag .noSuchObject [] s)
    ∧ (∀ y, lookup v.toNat s.net.valves = some y →
      (v.toNat ∈ x.valves → Refused (.planAddValve p tag slot v) p tag .badArgument [] s)
      ∧ (v.toNat ∉ x.valves → 16 ≤ x.valves.length → Refused (.planAddValve p tag slot v) p tag .tooLarge [] s)
      ∧ (v.toNat ∉ x.valves → x.valves.length < 16 →
        (∀ k z, y.claim = some k → lookup k s.net.plans = some z →
          Refused (.planAddValve p tag slot v) p tag .claimed (be8 k ++ be8 (portCode z.owner)) s)
        ∧ (y.claim = none → changes (.planAddValve p tag slot v) (x.valves ++ [v.toNat]) (some slot.toNat))))
    ∧ (v.toNat ∉ x.valves → Refused (.planRemoveValve p tag slot v) p tag .badArgument [] s)
    ∧ (v.toNat ∈ x.valves → changes (.planRemoveValve p tag slot v) (x.valves.filter (fun w => w != v.toNat)) none)

/-- PLAN_ASSESS and PLAN_EXECUTE ask the walk engine for the plan's trial: ACCEPTED, the plan ASSESSING or CHECKING,
the trial started on an idle engine and otherwise queued. Eight waiting trials, an empty list and another state
refuse. -/
def Obligations.PlanTrialsAreAsked : Prop :=
  ∀ (s : State) p tag (slot : Byte) x, OwnsPlan p slot x s →
    let asks (i : Instr) (y : Plan) : Prop :=
      (8 ≤ s.net.trials.length → Refused i p tag .queueFull [] s)
      ∧ (s.net.trials.length < 8 →
        ∃ t, exec i s = .next t ∧ Answered p tag .accepted [] t ∧ KeepsRest (some p) s t ∧ t.alu = s.alu
          ∧ lookup slot.toNat t.net.plans = some { y with lastReason := .requested }
          ∧ KeepsOtherPlans slot.toNat s.net t.net
          ∧ t.net = { s.net with plans := t.net.plans, engine := t.net.engine, trials := t.net.trials }
          ∧ (s.net.engine ≠ .idle → t.net.engine = s.net.engine
              ∧ t.net.trials = s.net.trials ++ [{ requester := .plan slot.toNat, closure := [] }])
          ∧ (s.net.engine = .idle → s.net.trials = [] →
              t.net.engine = .trial (snapshotOf intended s.net) (.plan slot.toNat) x.valves ∧ t.net.trials = []))
    ((x.state = .draft ∨ x.state = .assessed) →
      (x.valves = [] → Refused (.planAssess p tag slot) p tag .wrongState [] s)
      ∧ (x.valves ≠ [] → asks (.planAssess p tag slot) { x with state := .assessing }))
    ∧ (x.state = .assessed → asks (.planExecute p tag slot) { x with state := .checking, attempts := 1 })
    ∧ (x.state ≠ .assessed → Refused (.planExecute p tag slot) p tag .wrongState [] s)
    ∧ (x.state ≠ .draft → x.state ≠ .assessed → Refused (.planAssess p tag slot) p tag .wrongState [] s)

/-- PLAN_DECLARE_OUTAGE of an ASSESSED plan without a linked outage, whose consequence sections are in no outage: a
PLANNED outage with these members and their premises, under a new number, linked with the plan; DECLARED, or ACTIVE at
once where a member is UNSUPPLIED. -/
def Obligations.DeclarationCreatesTheOutage : Prop :=
  ∀ (s : State) p tag (slot accepted : Byte) x c idx, TablesSound s → OwnsPlan p slot x s → x.state = .assessed →
    accepted.toNat ≤ 1 → x.consequence = some c → c.sections ≠ [] → c.overflow = false → x.outage = none →
    (∀ k ∈ c.sections, outageOf k s.net.outages = none) →
    idx < 32 → lookup idx s.net.outages = none → (∀ k, k < idx → lookup k s.net.outages ≠ none) →
    ∃ t o, exec (.planDeclareOutage p tag slot accepted) s = .next t ∧ Answered p tag .ok (be16 o.number) t
      ∧ KeepsRest (some p) s t
      ∧ lookup idx t.net.outages = some o ∧ (∀ k, k ≠ idx → lookup k t.net.outages = lookup k s.net.outages)
      ∧ o.number ∉ s.net.outages.map (fun y => y.2.number) ∧ 1 ≤ o.number ∧ o.number ≤ 65535
      ∧ t.net.lastOutage = o.number
      ∧ o.cause = .planned ∧ o.plan = some slot.toNat ∧ o.created = s.tbu.clock ∧ o.relapse = false
      ∧ (memberSections o).Perm c.sections
      ∧ o.affected = (c.sections.map (premisesOf s.cfu.image)).sum ∧ o.off = o.affected ∧ o.relit = 0 ∧ o.noAccess = 0
      ∧ o.priority = (c.sections.map (priorityPremisesOf s.cfu.image)).sum
      ∧ (o.state = .active ∨ o.state = .declared)
      ∧ (o.state = .active ↔ ∃ k ∈ c.sections, supplyAt s.net k = .unsupplied)
      ∧ lookup slot.toNat t.net.plans =
          some { x with outage := some o.number, accepted := accepted == 1, lastReason := .outageLinked }
      ∧ KeepsOtherPlans slot.toNat s.net t.net
      ∧ NotifiedAt p (.planState slot.toNat (some .assessed) .outageLinked p) s t
      ∧ Notified .outage (.outageState o.number (some o.state) o.off) s t
      ∧ KeepsLines s.net t.net ∧ KeepsValves s.net t.net ∧ KeepsWalk s.net t.net ∧ KeepsSupply s.net t.net

/-- PLAN_DECLARE_OUTAGE of an ASSESSED plan is refused in turn: no consequence section, an overflowed consequence, a
section in another outage (the first in list order, which is ascending, with that outage), and no free record. For a
plan with a linked outage only the missing sections count: none of them, and only the acceptance changes; otherwise
the outage must be DECLARED and hold 64 members at most, and takes the sections with their premises, ACTIVE at once
where a member is UNSUPPLIED. That an acceptance above 1 is a bad argument is assumption 24. -/
def Obligations.DeclarationsAreChecked : Prop :=
  ∀ (s : State) p tag (slot accepted : Byte) x, TablesSound s → OwnsPlan p slot x s → x.state = .assessed →
    let i := Instr.planDeclareOutage p tag slot accepted
    (1 < accepted.toNat → Refused i p tag .badArgument [] s)
    ∧ (accepted.toNat ≤ 1 → x.consequence = none → Refused i p tag .wrongState [] s)
    ∧ (∀ c, accepted.toNat ≤ 1 → x.consequence = some c →
      (c.sections = [] → Refused i p tag .wrongState [] s)
      ∧ (c.sections ≠ [] → c.overflow = true → Refused i p tag .tooLarge [] s)
      ∧ (∀ l k rest o, c.overflow = false → c.sections = l ++ k :: rest →
        (∀ j ∈ l, ∀ q, outageOf j s.net.outages = some q → some q.number = x.outage) →
        outageOf k s.net.outages = some o → some o.number ≠ x.outage →
        Refused i p tag .sectionInOutage (be16 k ++ be16 o.number) s)
      ∧ (c.sections ≠ [] → c.overflow = false →
        (∀ k ∈ c.sections, ∀ q, outageOf k s.net.outages = some q → some q.number = x.outage) →
        (x.outage = none → (∀ k, k < 32 → lookup k s.net.outages ≠ none) → Refused i p tag .tableFull [] s)
        ∧ (∀ n o, x.outage = some n → outageAt n s.net = some o →
          let missing := c.sections.filter (fun k => !(memberSections o).contains k)
          (missing = [] →
            ∃ t, exec i s = .next t ∧ Answered p tag .ok (be16 n) t ∧ KeepsRest (some p) s t
              ∧ lookup slot.toNat t.net.plans = some { x with accepted := accepted == 1 }
              ∧ KeepsOtherPlans slot.toNat s.net t.net ∧ t.net = { s.net with plans := t.net.plans } ∧ t.alu = s.alu)
          ∧ (missing ≠ [] → o.state ≠ .declared → Refused i p tag .wrongState [] s)
          ∧ (missing ≠ [] → o.state = .declared → 64 < o.members.length + missing.length →
            Refused i p tag .tooLarge [] s)
          ∧ (missing ≠ [] → o.state = .declared → o.members.length + missing.length ≤ 64 →
            ∃ t y, exec i s = .next t ∧ Answered p tag .ok (be16 n) t ∧ KeepsRest (some p) s t
              ∧ outageAt n t.net = some y ∧ (∀ j, j ≠ n → outageAt j t.net = outageAt j s.net)
              ∧ (memberSections y).Perm (memberSections o ++ missing)
              ∧ y.affected = o.affected + (missing.map (premisesOf s.cfu.image)).sum
              ∧ y.off = o.off + (missing.map (premisesOf s.cfu.image)).sum
              ∧ y.priority = o.priority + (missing.map (priorityPremisesOf s.cfu.image)).sum
              ∧ y.relit = o.relit ∧ y.noAccess = o.noAccess ∧ y.cause = o.cause ∧ y.plan = o.plan
              ∧ y.created = o.created ∧ y.relapse = o.relapse
              ∧ (y.state = .active ∨ y.state = .declared)
              ∧ (y.state = .active ↔ ∃ k ∈ memberSections y, supplyAt s.net k = .unsupplied)
              ∧ Notified .outage (.outageState n (some y.state) y.off) s t
              ∧ lookup slot.toNat t.net.plans = some { x with accepted := accepted == 1 }
              ∧ KeepsOtherPlans slot.toNat s.net t.net
              ∧ KeepsLines s.net t.net ∧ KeepsValves s.net t.net ∧ KeepsWalk s.net t.net ∧ KeepsSupply s.net t.net))))

/-- PLAN_ABORT, PLAN_RETRY and PLAN_RESTORE: the plan stops its travelling actuated valves, or orders its valves in
its direction or open; it ends HELD, EXECUTING or RESTORING, or settled where every valve stands at the direction's
end. Only its own valves move. -/
def Obligations.PlanMovesItsValves : Prop :=
  ∀ (s : State) p tag (slot : Byte) x, OwnsPlan p slot x s →
    let ends (i : Instr) (dir : Direction) (other : PlanState) (moves : State → Nat → Valve → ValveDef → Prop) : Prop :=
      ∃ t, exec i s = .next t ∧ Answered p tag .ok [] t ∧ KeepsRest (some p) s t ∧ KeepsField s.net t.net
        ∧ lookup slot.toNat t.net.plans =
            some { x with
              state := if allAt t.net (endOf dir) x.valves then settledState dir else other
              direction := dir
              lastReason := .requested }
        ∧ (∀ v, v ∉ x.valves → lookup v t.net.valves = lookup v s.net.valves)
        ∧ ∀ v ∈ x.valves, ∀ y d, lookup v s.net.valves = some y → lookup v s.cfu.image.valves = some d → moves t v y d
    (x.state = .executing ∨ x.state = .restoring →
      (x.direction ≠ .unset → ends (.planAbort p tag slot) x.direction .held (fun t v y d =>
        (d.kind = .actuated ∧ isTravelling y.position = true →
          positionAt t.net v = some ((shownBy (limitPair d s.net)).getD .unknown))
        ∧ (¬ (d.kind = .actuated ∧ isTravelling y.position = true) → positionAt t.net v = some y.position))))
    ∧ (x.state = .held → x.direction ≠ .unset →
      ends (.planRetry p tag slot) x.direction (movingState x.direction) (fun t v y d =>
        (y.position = endOf x.direction → lookup v t.net.valves = some y)
        ∧ (positionAt t.net v = some (endOf x.direction) ∨ positionAt t.net v = some (travelOf x.direction))
        ∧ (d.kind = .manual → y.position ≠ endOf x.direction → positionAt t.net v = some (travelOf x.direction))))
    ∧ (x.state = .isolated ∨ x.state = .held →
      ends (.planRestore p tag slot) .opens .restoring (fun t v y d =>
        (y.position = .opened → lookup v t.net.valves = some y)
        ∧ (positionAt t.net v = some .opened ∨ positionAt t.net v = some .opening)
        ∧ (d.kind = .manual → y.position ≠ .opened → positionAt t.net v = some .opening)))
    ∧ (x.state ≠ .executing → x.state ≠ .restoring → Refused (.planAbort p tag slot) p tag .wrongState [] s)
    ∧ (x.state ≠ .held → Refused (.planRetry p tag slot) p tag .wrongState [] s)
    ∧ (x.state ≠ .isolated → x.state ≠ .held → Refused (.planRestore p tag slot) p tag .wrongState [] s)

/-- What a position report or an order outcome for a plan's valve makes of the plan: a plan on its way is HELD at a
failure and settles when its last valve arrives; a settled plan whose valve leaves its end is HELD; a HELD plan
settles once every valve stands at its direction's end; a plan whose orders are not out keeps its record. The crew's
requests, an expired travel timer and VERIFY_POSITION make of the claiming plan what such a report makes of it. The
row of the timer rests on assumption 3. -/
def Obligations.PlansJudgeTheirValves : Prop :=
  (∀ (s : State) slot p moved outcome, lookup slot s.net.plans = some p →
    let t := event (fun e => e.planReport slot moved outcome) s
    let goes (st : PlanState) (dir : Direction) (r : Reason) : Prop :=
      lookup slot t.net.plans = some { p with state := st, direction := dir, lastReason := r }
        ∧ KeepsOtherPlans slot s.net t.net ∧ t.net = { s.net with plans := t.net.plans } ∧ t.alu = s.alu
        ∧ NotifiedAt p.owner (.planState slot (some st) r p.owner) s t
        ∧ Notified .plan (.planState slot (some st) r p.owner) s t
    let fails (onPath : List Position) : Prop := outcome = some .failed ∨ ∃ y, moved = some y ∧ y ∉ onPath
    (p.state = .executing →
      (fails [.closed, .closing] → goes .held .closes .valveFailed)
      ∧ (¬ fails [.closed, .closing] → allAt s.net .closed p.valves = true → goes .isolated p.direction .allClosed)
      ∧ (¬ fails [.closed, .closing] → allAt s.net .closed p.valves = false → t = s))
    ∧ (p.state = .restoring →
      (fails [.opened, .opening] → goes .held .opens .valveFailed)
      ∧ (¬ fails [.opened, .opening] → allAt s.net .opened p.valves = true → goes .restored p.direction .allOpen)
      ∧ (¬ fails [.opened, .opening] → allAt s.net .opened p.valves = false → t = s))
    ∧ (p.state = .isolated → (moved ≠ none → goes .held .closes .valveMoved) ∧ (moved = none → t = s))
    ∧ (p.state = .restored → (moved ≠ none → goes .held .opens .valveMoved) ∧ (moved = none → t = s))
    ∧ (p.state = .held →
      (p.direction = .closes → allAt s.net .closed p.valves = true → goes .isolated .closes .allClosed)
      ∧ (p.direction = .opens → allAt s.net .opened p.valves = true → goes .restored .opens .allOpen)
      ∧ (p.direction ≠ .unset → allAt s.net (endOf p.direction) p.valves = false → t = s))
    ∧ (p.state = .draft ∨ p.state = .assessing ∨ p.state = .assessed ∨ p.state = .checking → t = s))
  ∧ (∀ (s : State) p tag (v : Half) x d k, lookup v.toNat s.net.valves = some x →
    lookup v.toNat s.cfu.image.valves = some d → x.claim = some k →
    let reports (i : Instr) (pos : Position) (outcome : Option Ending) : Prop :=
      ∃ t, exec i s = .next t
        ∧ lookup k t.net.plans = lookup k
            (event (fun e => e.planReport k (some pos) outcome) { s with net := { s.net with valves := t.net.valves } }).net.plans
        ∧ KeepsOtherPlans k s.net t.net
    (∀ pl, CanSend [.switching] p s → d.kind = .manual → lookup k s.net.plans = some pl → pl.owner = p →
      (x.position = .closing → reports (.confirmClosed p tag v) .closed (some .done)
        ∧ reports (.confirmOpen p tag v) .opened (some .failed)
        ∧ reports (.reportInoperable p tag v) .stuck (some .failed))
      ∧ (x.position = .opening → reports (.confirmOpen p tag v) .opened (some .done)
        ∧ reports (.reportInoperable p tag v) .stuck (some .failed)))
    ∧ (Running s → d.kind = .actuated → (x.position = .closing ∨ x.position = .opening) → x.travel = 0 →
      reports (.travelTimerExpiry v.toNat) .stuck (some .failed))
    ∧ (∀ pl y (arg : Byte), CanSend [.switching] p s → (d.kind = .manual ∨ x.position = .stuck ∨ x.position = .unknown) →
      lookup k s.net.plans = some pl → pl.owner = p → pl.state = .held →
      ((arg = 0 ∧ y = .opened) ∨ (arg = 1 ∧ y = .closed)) → x.position ≠ y →
      reports (.verifyPosition p tag v arg) y none))

/-- PLAN_RELEASE frees the record and every claim, and leaves each valve where it stands; a linked outage past
DECLARED stays without its plan, and one still DECLARED is freed. A plan in ASSESSING, CHECKING, EXECUTING or
RESTORING is not released. PLAN_TAKE_OVER moves the owner once the owner has been silent for the grace, and is refused
to the owner itself. That the owner's silence is taken modulo 2^32 is the model's choice (assumption 18). -/
def Obligations.ReleaseAndTakeOver : Prop :=
  (∀ (s : State) p tag (slot : Byte) x, TablesSound s → OwnsPlan p slot x s →
    (x.state = .draft ∨ x.state = .assessed ∨ x.state = .isolated ∨ x.state = .restored ∨ x.state = .held) →
    (x.state = .held → anyTravelling s.net x.valves = true →
      Refused (.planRelease p tag slot) p tag .wrongState [] s)
    ∧ ((x.state = .held → anyTravelling s.net x.valves = false) →
      ∃ t, exec (.planRelease p tag slot) s = .next t ∧ Answered p tag .ok [] t ∧ KeepsRest (some p) s t
        ∧ lookup slot.toNat t.net.plans = none ∧ KeepsOtherPlans slot.toNat s.net t.net
        ∧ (∀ w, lookup w t.net.valves =
            (lookup w s.net.valves).map (fun y => if w ∈ x.valves then { y with claim := none } else y))
        ∧ t.net.outputs = s.net.outputs ∧ KeepsLines s.net t.net ∧ KeepsWalk s.net t.net ∧ KeepsSupply s.net t.net
        ∧ Notified .plan (.planState slot.toNat none .requested p) s t
        ∧ NotifiedAt p (.planState slot.toNat none .requested p) s t
        ∧ (x.outage = none → KeepsOutages s.net t.net ∧ KeepsPoints s.net t.net ∧ KeepsCalls s.net t.net
            ∧ t.net.sections = s.net.sections)
        ∧ (∀ n o, x.outage = some n → outageAt n s.net = some o →
          (o.state ≠ .declared → outageAt n t.net = some { o with plan := none })
          ∧ (o.state = .declared → waiting s.net = [] → (∀ k ∈ memberSections o, supplyAt s.net k ≠ .unsupplied) →
              outageAt n t.net = none))))
  ∧ (∀ (s : State) p tag (slot : Byte) x, CanSend [.switching] p s → slot.toNat < 16 →
    lookup slot.toNat s.net.plans = some x → x.owner ≠ p →
    let grace := (paramsOf s.cfu.image).grace
    let silent := (s.tbu.uptime - (s.ports.get x.owner).lastRequest).toNat
    (silent < grace → Refused (.planTakeOver p tag slot) p tag .ownerActive (be16 (grace - silent)) s)
    ∧ (grace ≤ silent →
      ∃ t, exec (.planTakeOver p tag slot) s = .next t ∧ Answered p tag .ok [] t ∧ KeepsRest (some p) s t
        ∧ lookup slot.toNat t.net.plans = some { x with owner := p, lastReason := .takenOver }
        ∧ KeepsOtherPlans slot.toNat s.net t.net ∧ t.net = { s.net with plans := t.net.plans } ∧ t.alu = s.alu
        ∧ NotifiedAt p (.planState slot.toNat (some x.state) .takenOver p) s t
        ∧ NotifiedAt x.owner (.planState slot.toNat (some x.state) .takenOver p) s t
        ∧ Notified .plan (.planState slot.toNat (some x.state) .takenOver p) s t))
  ∧ (∀ (s : State) p tag (slot : Byte) x, OwnsPlan p slot x s →
    ((x.state = .assessing ∨ x.state = .checking ∨ x.state = .executing ∨ x.state = .restoring) →
      Refused (.planRelease p tag slot) p tag .wrongState [] s)
    ∧ Refused (.planTakeOver p tag slot) p tag .badArgument [] s)

/-- A plan's trial completes. In CHECKING: while the network has moved, or the fresh consequence is not covered by the
plan's outage or holds priority premises nobody accepted, no valve is ordered and no output, outage or section
changes; the check is tried again below three attempts where the queue takes it, and ends otherwise. Only a check that
passes sends its valves, and no other, towards CLOSED. It is announced with CHECK_PASSED, and it trims the linked
outage to the members in the fresh consequence: figures and linked calls follow, the outage takes the state rule of
its state, and one left without members is freed. In ASSESSING: the result replaces the plan's consequence, the plan
is ASSESSED, and neither valve nor outage is touched. It holds for both orders of hand-over and grant (assumption 5).
-/
def Obligations.ExecutionWaitsForTheCheck : Prop :=
  (∀ (s : State) snap slot closure x, Running s → s.net.engine = .trial snap (.plan slot) closure →
     lookup slot s.net.plans = some x → x.state = .checking →
     let r := trialResult s.cfu.image snap closure
     let members := ((x.outage.bind (fun n => outageAt n s.net)).map memberSections).getD []
     let covered := r.overflow = false ∧ ∀ k ∈ r.sections, k ∈ members
     let passes := (r.sections = [] ∧ r.overflow = false) ∨ (covered ∧ (r.priority = 0 ∨ x.accepted = true))
     ∃ t, exec .trialCompletes s = .next t ∧ KeepsRest none s t ∧ KeepsLines s.net t.net
       ∧ t.net.sources = s.net.sources ∧ t.net.supply = s.net.supply ∧ KeepsSupply s.net t.net
       ∧ (snap.revision ≠ s.net.topology ∨ ¬ passes →
           KeepsValves s.net t.net ∧ KeepsField s.net t.net ∧ t.net.topology = s.net.topology
             ∧ KeepsOtherPlans slot s.net t.net)
       ∧ (snap.revision ≠ s.net.topology →
           (x.attempts < 3 → s.net.trials.length < 8 →
             lookup slot t.net.plans = some { x with attempts := x.attempts + 1 })
           ∧ (3 ≤ x.attempts → lookup slot t.net.plans =
               some { x with state := .assessed, attempts := 0, lastReason := .networkBusy })
           ∧ (x.attempts < 3 → 8 ≤ s.net.trials.length →
             lookup slot t.net.plans = some { x with attempts := x.attempts + 1 }
               ∨ lookup slot t.net.plans =
                 some { x with state := .assessed, attempts := 0, lastReason := .networkBusy })
           ∧ (x.attempts < 3 → 8 ≤ s.net.trials.length → s.net.walkPending = true →
             lookup slot t.net.plans =
               some { x with state := .assessed, attempts := 0, lastReason := .networkBusy }))
       ∧ (snap.revision = s.net.topology → ¬ passes →
           (¬ covered → lookup slot t.net.plans =
             some { x with consequence := some r, accepted := false, attempts := 0, state := .assessed,
                           lastReason := .consequenceGrew })
           ∧ (covered → lookup slot t.net.plans =
             some { x with consequence := some r, accepted := false, attempts := 0, state := .assessed,
                           lastReason := .priorityNotAccepted }))
       ∧ (snap.revision = s.net.topology → passes →
           (∀ v, v ∉ x.valves → lookup v t.net.valves = lookup v s.net.valves)
           ∧ (∀ v ∈ x.valves, ∀ y d, lookup v s.net.valves = some y → lookup v s.cfu.image.valves = some d →
               positionAt t.net v = some .closed ∨ positionAt t.net v = some .closing)
           ∧ ∃ q, lookup slot t.net.plans = some q
             ∧ q.state = (if allAt t.net .closed x.valves then .isolated else .executing)
             ∧ q.direction = .closes ∧ q.consequence = some r ∧ q.attempts = 0 ∧ q.valves = x.valves ∧ q.owner = x.owner
             ∧ q.lastReason = .checkPassed
             ∧ NotifiedAt x.owner (.planState slot (some q.state) .checkPassed x.owner) s t
             ∧ Notified .plan (.planState slot (some q.state) .checkPassed x.owner) s t
             ∧ (x.outage = none → KeepsOutages s.net t.net)
             ∧ (TablesSound s → OutagesSound s → ∀ n o, x.outage = some n → outageAt n s.net = some o →
                 let y := o.trimmed s.cfu.image s.net.calls r.sections
                 let turns (z : Outage) : Prop :=
                   outageAt n t.net = some z ∧ Notified .outage (.outageState n (some z.state) z.off) s t
                 let closes : Prop :=
                   Notified .outage (.outageState n none 0) s t ∧ (o.plan = some slot → q.outage = none)
                 ((∀ k ∈ memberSections o, k ∈ r.sections) → outageAt n t.net = some o ∧ q.outage = some n)
                 ∧ ((∃ k ∈ memberSections o, k ∈ r.sections) → (∃ k ∈ memberSections o, k ∉ r.sections) →
                   (o.state = .declared → turns y)
                   ∧ (o.state = .active →
                     let ready := ∀ k ∈ memberSections y, supplyAt s.net k = .supplied ∧ hasFreshLow s.cfu.image s.net k = false
                     (ready → turns
                       { y with state := .recharging, members := withHolds (paramsOf s.cfu.image).rechargeHold y })
                     ∧ (¬ ready → turns y))
                   ∧ (o.state = .recharging →
                     ((∃ z ∈ y.members, z.confirmed = false) → turns y)
                     ∧ ((∀ z ∈ y.members, z.confirmed = true) →
                       (y.off ≠ 0 → turns { y with state := .relighting, relapse := false }) ∧ (y.off = 0 → closes)))
                   ∧ (o.state = .relighting → (y.off ≠ 0 → turns y) ∧ (y.off = 0 → closes)))
                 ∧ (o.members ≠ [] → (∀ k ∈ memberSections o, k ∉ r.sections) →
                   closes ∧ (waiting s.net = [] → (∀ k ∈ memberSections o, supplyAt s.net k ≠ .unsupplied) →
                     outageAt n t.net = none)))))
  ∧ (∀ (s : State) snap slot closure x, Running s → s.net.engine = .trial snap (.plan slot) closure →
       lookup slot s.net.plans = some x → x.state = .assessing →
       ∃ t, exec .trialCompletes s = .next t ∧ KeepsRest none s t
         ∧ lookup slot t.net.plans =
             some { x with consequence := some (trialResult s.cfu.image snap closure), accepted := false, attempts := 0,
                           state := .assessed, lastReason := .assessed }
         ∧ KeepsOtherPlans slot s.net t.net ∧ KeepsValves s.net t.net ∧ KeepsField s.net t.net
         ∧ t.net.topology = s.net.topology ∧ t.alu = s.alu
         ∧ NotifiedAt x.owner (.planState slot (some .assessed) .assessed x.owner) s t
         ∧ Notified .plan (.planState slot (some .assessed) .assessed x.owner) s t)

/-- In RUNNING a valve enters CLOSING only at TRIAL_COMPLETES, where a plan that claims it passes its check with the
topology revision as it was at the start of the trial, or at a PLAN_RETRY of the owner, or a transfer that carries it,
of a plan that claims it and is HELD with direction CLOSE. -/
def Obligations.ValvesCloseOnlyAfterACheck : Prop :=
  ∀ (s t : State) v x y, TablesSound s → PlansSound s → Running s → step s = .next t →
    lookup v s.net.valves = some x → lookup v t.net.valves = some y → x.position ≠ .closing → y.position = .closing →
    ∃ i rest k p, s.pending = i :: rest ∧ x.claim = some k ∧ lookup k s.net.plans = some p ∧
      ((i = .trialCompletes ∧ ∃ snap closure, s.net.engine = .trial snap (.plan k) closure ∧ p.state = .checking
          ∧ snap.revision = s.net.topology ∧ PassesCheck s.net p (trialResult s.cfu.image snap closure))
        ∨ (p.state = .held ∧ p.direction = .closes
          ∧ ∃ port tag slot, slot.toNat = k ∧ p.owner = port ∧ Brings i (.planRetry port tag slot)))

/-- A valve's claim names a plan exactly when the valve is in that plan's list, so no two plans share a valve, and a
plan's direction is that of its state: kept by every step, and so after reset. -/
def Obligations.PlansStaySound : Prop :=
  PlansSound State.reset ∧ ∀ s t, TablesSound s → PlansSound s → step s = .next t → PlansSound t

/-- Every table, of the image as of the network blocks, keeps its canonical form, the record ranges hold, and outage
and call numbers are given once. -/
def Obligations.TablesStaySound : Prop :=
  TablesSound State.reset ∧ ∀ s t, TablesSound s → step s = .next t → TablesSound t

/-! ## Outages (Chapter 5) -/

/-- A member of a RECHARGING outage is confirmed by OUTAGE_CONFIRM_SECTION, or by its recharge hold when that stands
at 0. With every member confirmed the outage is RELIGHTING, its RELAPSE ended, or, where no premises are off, it is
freed: its record is gone, its linked calls are closed and its plan is unlinked. The row of the hold rests on
assumption 3. -/
def Obligations.MembersAreConfirmed : Prop :=
  ∀ (s : State) (n k : Half) (o : Outage), TablesSound s → Running s → outageAt n.toNat s.net = some o → o.state = .recharging →
    k.toNat ∈ memberSections o →
    let members := o.members.map (fun x => if x.sect = k.toNat then { x with hold := 0, confirmed := true } else x)
    let confirms (i : Instr) (p : Option PortId) (answered : State → Prop) : Prop :=
      ∃ t, exec i s = .next t ∧ answered t ∧ KeepsRest p s t ∧ KeepsLines s.net t.net ∧ KeepsValves s.net t.net
        ∧ KeepsWalk s.net t.net ∧ KeepsSupply s.net t.net
        ∧ ((∃ x ∈ members, x.confirmed = false) →
            outageAt n.toNat t.net = some { o with members := members }
              ∧ (∀ j, j ≠ n.toNat → outageAt j t.net = outageAt j s.net)
              ∧ t.net = { s.net with outages := t.net.outages } ∧ t.alu = s.alu)
        ∧ ((∀ x ∈ members, x.confirmed = true) → o.off ≠ 0 →
            outageAt n.toNat t.net = some { o with members := members, state := .relighting, relapse := false }
              ∧ Notified .outage (.outageState n.toNat (some .relighting) o.off) s t)
        ∧ ((∀ x ∈ members, x.confirmed = true) → o.off = 0 → OutageFreed n.toNat o s t)
    (∀ p tag, CanSend [.switching] p s →
      confirms (.outageConfirmSection p tag n k) (some p) (Answered p tag .ok []))
    ∧ ((∃ x ∈ o.members, x.sect = k.toNat ∧ x.confirmed = false ∧ x.hold = 0) →
      confirms (.rechargeHoldExpiry n.toNat k.toNat) none (fun _ => True))

/-- A publication at LIVE_WALK_COMPLETES moves every outage with a member among the changed sections by the rule of
its state, and no other: DECLARED to ACTIVE where a member is UNSUPPLIED, ACTIVE to RECHARGING with full holds where
every member is SUPPLIED and none has a fresh LOWLOW point, RECHARGING to ACTIVE where a member left SUPPLIED,
RELIGHTING relapsed to ACTIVE where one did. A section newly UNSUPPLIED in no outage, and one that still waits, is
gathered into a new SUPPLY_LOSS outage of at most 64 members, or waits with UNRECORDED_LOSS while every record is in
use. A section no longer UNSUPPLIED waits no more. -/
def Obligations.PublicationMovesTheOutages : Prop :=
  ∀ (s : State) x, TablesSound s → OutagesSound s → Running s → s.net.engine = .walking x →
    ∃ t, exec .liveWalkCompletes s = .next t
      ∧ (∀ n o, outageAt n s.net = some o →
        let touched := ∃ k ∈ memberSections o, supplyAt t.net k ≠ supplyAt s.net k
        let left := ∃ k ∈ memberSections o, supplyAt t.net k ≠ .supplied
        let turns (y : Outage) : Prop :=
          outageAt n t.net = some y ∧ Notified .outage (.outageState n (some y.state) y.off) s t
        (¬ touched → outageAt n t.net = some o)
        ∧ (touched → o.state = .declared →
          ((∃ k ∈ memberSections o, supplyAt t.net k = .unsupplied) → turns { o with state := .active })
          ∧ (¬ (∃ k ∈ memberSections o, supplyAt t.net k = .unsupplied) → outageAt n t.net = some o))
        ∧ (touched → o.state = .active →
          let ready := ∀ k ∈ memberSections o, supplyAt t.net k = .supplied ∧ hasFreshLow s.cfu.image s.net k = false
          (ready → turns { o with state := .recharging, members := withHolds (paramsOf s.cfu.image).rechargeHold o })
          ∧ (¬ ready → outageAt n t.net = some o))
        ∧ (touched → o.state = .recharging →
          (left → turns { o with state := .active, members := withHolds 0 o })
          ∧ (¬ left → outageAt n t.net = some o))
        ∧ (touched → o.state = .relighting →
          (left → turns o.relapsed) ∧ (¬ left → outageAt n t.net = some o)))
      ∧ (∀ k z, lookup k s.net.sections = some z → classify s.cfu.image x k = .unsupplied →
        (z.supply ≠ .unsupplied ∨ z.awaiting = true) → outageOf k s.net.outages = none →
        ∃ w, lookup k t.net.sections = some w ∧
          ((w.awaiting = true ∧ w.unrecorded = true ∧ ∀ j, j < 32 → lookup j t.net.outages ≠ none)
            ∨ (w.awaiting = false ∧ ∃ n o, outageAt n s.net = none ∧ outageAt n t.net = some o ∧ k ∈ memberSections o
                ∧ o.members.length ≤ 64 ∧ o.cause = .supplyLoss ∧ o.state = .active ∧ o.plan = none ∧ o.relapse = false
                ∧ o.created = s.tbu.clock ∧ Notified .outage (.outageState n (some .active) o.off) s t)))
      ∧ (∀ k z, lookup k s.net.sections = some z → classify s.cfu.image x k ≠ .unsupplied →
        ∃ w, lookup k t.net.sections = some w ∧ w.awaiting = false
          ∧ (z.awaiting = true → w.unrecorded = false))

/-- OUTAGE_RELIT and OUTAGE_NO_ACCESS move a count of premises out of off and answer with the figures. The last
premises close the outage: its record is gone, its linked calls are closed and its plan is unlinked. Each check
refuses in its turn. -/
def Obligations.PremisesAreCounted : Prop :=
  ∀ (s : State) p tag (n : Half) (k : Word) (relit : Bool), CanSend [.dispatch, .switching] p s →
    let i := if relit then Instr.outageRelit p tag n k else .outageNoAccess p tag n k
    (outageAt n.toNat s.net = none → Refused i p tag .noSuchObject [] s)
    ∧ (∀ o, outageAt n.toNat s.net = some o →
      (k = 0 → Refused i p tag .badArgument [] s)
      ∧ (k ≠ 0 → o.state ≠ .relighting → Refused i p tag .wrongState [] s)
      ∧ (k ≠ 0 → o.state = .relighting → o.off < k.toNat → Refused i p tag .overCount [] s)
      ∧ (k ≠ 0 → o.state = .relighting → k.toNat ≤ o.off →
        let y : Outage :=
          if relit then { o with off := o.off - k.toNat, relit := o.relit + k.toNat }
          else { o with off := o.off - k.toNat, noAccess := o.noAccess + k.toNat }
        ∃ t, exec i s = .next t ∧ Answered p tag .ok (be32 y.off ++ be32 y.relit ++ be32 y.noAccess) t
          ∧ KeepsRest (some p) s t ∧ KeepsLines s.net t.net ∧ KeepsValves s.net t.net ∧ KeepsWalk s.net t.net
          ∧ KeepsSupply s.net t.net
          ∧ (y.off ≠ 0 → outageAt n.toNat t.net = some y ∧ (∀ j, j ≠ n.toNat → outageAt j t.net = outageAt j s.net)
              ∧ t.net = { s.net with outages := t.net.outages } ∧ t.alu = s.alu
              ∧ Notified .outage (.outageState n.toNat (some .relighting) y.off) s t)
          ∧ (y.off = 0 → OutageFreed n.toNat o s t)))

/-- For every outage off plus relit plus no-access equals affected, and affected equals the premises of its members; a
section is in one outage at most, and in none while it waits: kept by every step, and so after reset. -/
def Obligations.OutagesStaySound : Prop :=
  OutagesSound State.reset ∧ ∀ s t, TablesSound s → OutagesSound s → step s = .next t → OutagesSound t

/-- Every section whose published state is UNSUPPLIED is a member of an outage or has its awaiting-outage flag set,
never both, and no other section has the flag: kept by every step, and so after reset. -/
def Obligations.LossesStayRecorded : Prop :=
  LossesRecorded State.reset
    ∧ ∀ s t, TablesSound s → OutagesSound s → LossesRecorded s → step s = .next t → LossesRecorded t

/-- A plan names an outage exactly when that outage names the plan; a linked call is a NO_GAS call of a member
section; an outage's linked calls, and a section's open ODOUR calls and unlinked NO_GAS calls, are as many as their
counts say: kept by every step, and so after reset. -/
def Obligations.LinksStaySound : Prop :=
  LinksSound State.reset
    ∧ ∀ s t, TablesSound s → OutagesSound s → LinksSound s → step s = .next t → LinksSound t

/-! ## Pressure points (Chapter 6) -/

/-- The candidate band of a value: effective limits by the present band, then the tests in their order. -/
def Obligations.CandidateBandFollowsTheLimits : Prop :=
  ∀ (d : PointDef) (b : Band) v,
    let ll := if b = .lowlow then min (d.ll + d.deadband) 65535 else d.ll
    let l := if b = .low ∨ b = .lowlow then min (d.l + d.deadband) 65535 else d.l
    let h := if b = .high ∨ b = .highhigh then d.h - d.deadband else d.h
    let hh := if b = .highhigh then d.hh - d.deadband else d.hh
    candidateBand d b v =
      if v < ll then .lowlow else if v < l then .low else if hh < v then .highhigh else if h < v then .high else .normal

/-- SAMPLE_BATCH of one entry: an undefined point, an age at or beyond the staleness period and a sample older than
the point's last are counted and leave everything; any other sets value, ring, timer, freshness, band and latch. That sample times are
compared as plain numbers, also across the wrap of uptime, is the model's choice (assumption 18). -/
def Obligations.SampleSetsThePoint : Prop :=
  ∀ (s : State) p tag (pt hi lo age : Byte), CanSend [.telemetry] p s →
    let i := Instr.sampleBatch p tag [pt, hi, lo, age]
    let leaves (body : List Byte) : Prop := ∃ t, exec i s = .next t ∧ OnlyAnswered p s t ∧ Answered p tag .ok body t
    (lookup pt.toNat s.net.points = none → leaves [0, 1, 0, 0])
    ∧ (∀ x d, lookup pt.toNat s.net.points = some x → lookup pt.toNat s.cfu.image.points = some d →
      (d.period ≤ age.toNat → leaves [0, 0, 1, 0])
      ∧ (age.toNat < d.period → s.tbu.uptime.toNat < x.lastSample + age.toNat → leaves [0, 0, 0, 1])
      ∧ (age.toNat < d.period → x.lastSample + age.toNat ≤ s.tbu.uptime.toNat →
        ∃ t y, ∃ v : Nat, exec i s = .next t ∧ Answered p tag .ok [1, 0, 0, 0] t ∧ KeepsRest (some p) s t
          ∧ lookup pt.toNat t.net.points = some y
          ∧ (v : Int) = max 0 (min 65535 ((256 * hi.toNat + lo.toNat : Nat) + d.offset))
          ∧ y.value = some v ∧ y.lastSample = s.tbu.uptime.toNat - age.toNat ∧ y.timer = d.period - age.toNat
          ∧ y.fresh = true
          ∧ (x.value = none → y.ring = x.ring)
          ∧ (∀ u, x.value = some u → y.ring = (max (-128) (min 127 ((v : Int) - u)) :: x.ring).take 8)
          ∧ (candidateBand d x.band v = x.band → y.band = x.band ∧ y.candidate = none ∧ y.agreement = 0)
          ∧ (∀ c k, candidateBand d x.band v = c → c ≠ x.band → k = (if x.candidate = some c then x.agreement + 1 else 1) →
              (d.persistence ≤ k → y.band = c ∧ y.candidate = none ∧ y.agreement = 0)
                ∧ (k < d.persistence → y.band = x.band ∧ y.candidate = some c ∧ y.agreement = k))
          ∧ (y.ring.length < d.window → y.latch = x.latch)
          ∧ (d.window ≤ y.ring.length → x.latch = false → (y.latch = true ↔ (y.ring.take d.window).sum ≤ -(d.threshold : Int)))
          ∧ (d.window ≤ y.ring.length → x.latch = true →
              (y.latch = false ↔ -((d.threshold / 2 : Nat) : Int) < (y.ring.take d.window).sum))
          ∧ y.lowListed = ((y.band == .low || y.band == .lowlow) && !y.suppressed)
          ∧ y.lowlowListed = (y.band == .lowlow && !y.suppressed)
          ∧ y.highListed = (y.band == .high || y.band == .highhigh) ∧ y.highhighListed = (y.band == .highhigh)
          ∧ y.fallListed = (y.latch && !y.suppressed) ∧ y.staleListed = false
          ∧ (∀ j z, j ≠ pt.toNat → lookup j s.net.points = some z → ∃ w, lookup j t.net.points = some w
              ∧ w.value = z.value ∧ w.lastSample = z.lastSample ∧ w.band = z.band ∧ w.ring = z.ring ∧ w.timer = z.timer
              ∧ w.fresh = z.fresh ∧ w.latch = z.latch)
          ∧ KeepsLines s.net t.net ∧ KeepsValves s.net t.net ∧ KeepsSupply s.net t.net ∧ t.net.plans = s.net.plans
          ∧ t.net.trials = s.net.trials))

/-- SAMPLE_BATCH takes 1 to 16 whole entries, one after another: a body that is no whole number of entries, that holds
none or more than 16 is refused, and no entry is taken. A batch leaves the network as its first part followed by its
rest would, and its counts are the sums of theirs. That the entries act on their neighbours one by one within the
request's event is assumption 29. -/
def Obligations.SampleBatches : Prop :=
  (∀ (s : State) p tag body, CanSend [.telemetry] p s →
    (body.length % 4 ≠ 0 ∨ body = [] ∨ 64 < body.length) → Refused (.sampleBatch p tag body) p tag .badArgument [] s)
  ∧ (∀ (s : State) p tag a b, CanSend [.telemetry] p s → a.length % 4 = 0 → b.length % 4 = 0 → a ≠ [] → b ≠ [] →
    a.length + b.length ≤ 64 →
    ∃ t t1 t2 l1 l2, exec (.sampleBatch p tag (a ++ b)) s = .next t ∧ KeepsRest (some p) s t
      ∧ exec (.sampleBatch p tag a) s = .next t1 ∧ exec (.sampleBatch p tag b) t1 = .next t2
      ∧ t.net = t2.net
      ∧ Answered p tag .ok l1 t1 ∧ Answered p tag .ok l2 t2 ∧ l1.length = 4 ∧ l2.length = 4
      ∧ Answered p tag .ok (List.zipWith (fun u v => u + v) l1 l2) t)

/-- SET_LIMITS replaces the limits, deadband and persistence of a point's definition and ends its run towards a band;
the rest of the point stays. A staleness timer at 0 makes the point stale: value, ring, band and latch go and STALE is
listed. The row of the timer rests on assumption 3. -/
def Obligations.LimitsAndStaleness : Prop :=
  (∀ (s : State) p tag (pt : Byte) (ll l h hh db : Half) (k : Byte), CanSend [.switching] p s →
    let i := Instr.setLimits p tag pt ll l h hh db k
    (lookup pt.toNat s.net.points = none → Refused i p tag .noSuchObject [] s)
    ∧ (∀ x d, lookup pt.toNat s.net.points = some x → lookup pt.toNat s.cfu.image.points = some d →
      ((l < ll ∨ h < l ∨ hh < h ∨ 6553 < db.toNat ∨ 8 < k.toNat) → Refused i p tag .badArgument [] s)
      ∧ (ll ≤ l → l ≤ h → h ≤ hh → db.toNat ≤ 6553 → k.toNat ≤ 8 →
        ∃ t, exec i s = .next t ∧ Answered p tag .ok [] t
          ∧ lookup pt.toNat t.cfu.image.points =
              some { d with ll := ll.toNat, l := l.toNat, h := h.toNat, hh := hh.toNat, deadband := db.toNat,
                            persistence := if k = 0 then 3 else k.toNat }
          ∧ (∀ j, j ≠ pt.toNat → lookup j t.cfu.image.points = lookup j s.cfu.image.points)
          ∧ t.cfu = { s.cfu with image := { s.cfu.image with points := t.cfu.image.points } }
          ∧ lookup pt.toNat t.net.points = some { x with candidate := none, agreement := 0 }
          ∧ (∀ j, j ≠ pt.toNat → lookup j t.net.points = lookup j s.net.points)
          ∧ t.net = { s.net with points := t.net.points }
          ∧ t.pending = s.pending ∧ t.tbu = s.tbu ∧ t.alu = s.alu ∧ t.msc = s.msc
          ∧ ∀ q, q ≠ p → t.ports.get q = s.ports.get q)))
  ∧ (∀ (s : State) pt x d, Running s → lookup pt s.net.points = some x → lookup pt s.cfu.image.points = some d →
    x.timer = 0 → x.staleListed = false →
    ∃ t, exec (.stalenessExpiry pt) s = .next t ∧ KeepsRest none s t
      ∧ lookup pt t.net.points =
          some { x with fresh := false, value := none, ring := [], band := .unset, candidate := none, agreement := 0,
                        latch := false, lowListed := false, lowlowListed := false, highListed := false,
                        highhighListed := false, fallListed := false, staleListed := true }
      ∧ (∀ j, j ≠ pt → lookup j t.net.points = lookup j s.net.points)
      ∧ KeepsLines s.net t.net ∧ KeepsValves s.net t.net ∧ t.net.supply = s.net.supply
      ∧ t.net.sections = s.net.sections ∧ t.net.plans = s.net.plans ∧ KeepsCalls s.net t.net)

/-- What a sample taken or an expired staleness timer tells the neighbours. Outage Table: a change of band or
freshness brings an ACTIVE outage to RECHARGING where the point leaves LOWLOW or goes stale and every member is ready,
reloads the hold of a RECHARGING member that does not qualify, and relapses a RELIGHTING outage where a fresh point
enters LOWLOW. Source Monitor: an outlet point's fresh LOWLOW sets the outlet-low flag, its end clears it, and
liveness follows. Call Register: an onset of RATE_OF_FALL brings the section's ODOUR calls to grade 1. The row of the
timer rests on assumption 3, and which samples are in order on assumption 18. -/
def Obligations.PointReportsReachTheirTakers : Prop :=
  (∀ (s : State) p tag (pt hi lo age : Byte) x d, TablesSound s → CanSend [.telemetry] p s →
    lookup pt.toNat s.net.points = some x → lookup pt.toNat s.cfu.image.points = some d →
    age.toNat < d.period → x.lastSample + age.toNat ≤ s.tbu.uptime.toNat →
    ∃ t y, exec (.sampleBatch p tag [pt, hi, lo, age]) s = .next t ∧ lookup pt.toNat t.net.points = some y
      ∧ ReportsReach s.cfu.image pt.toNat d x y s.net t.net)
  ∧ (∀ (s : State) pt x d, TablesSound s → Running s → lookup pt s.net.points = some x →
    lookup pt s.cfu.image.points = some d → x.timer = 0 → x.staleListed = false →
    ∃ t y, exec (.stalenessExpiry pt) s = .next t ∧ lookup pt t.net.points = some y
      ∧ ReportsReach s.cfu.image pt d x y s.net t.net)

/-! ## Calls (Chapter 7) -/

/-- CALL_NEW fills the lowest-indexed free record under a new number: RECEIVED, its stage loaded with the grade's
deadline less what has passed; an ODOUR call is counted in its section, a NO_GAS call is linked to the section's
outage or counted. With presence byte 0 the request is taken whatever the receipt-time bytes are, which is the model's
reading (assumption 24). The statement takes a request that passes the checks of R131, says of its number only that it
is new, and of a cluster only what the new call that brings the count to the threshold shows. -/
def Obligations.CallsAreReceived : Prop :=
  ∀ (s : State) p tag (kind : Byte) (k : Half) (grade : Byte) location (present : Byte) receipt z idx, TablesSound s →
    CanSend [.dispatch] p s → kind.toNat ≤ 1 → 1 ≤ grade.toNat → grade.toNat ≤ 3 →
    lookup k.toNat s.net.sections = some z →
    (present = 0 ∨ (present = 1 ∧ s.tbu.clockSet = true ∧ receipt ≤ s.tbu.clock)) →
    idx < 128 → lookup idx s.net.calls = none → (∀ j, j < idx → lookup j s.net.calls ≠ none) →
    let passed := if present = 0 then 0 else (s.tbu.clock - receipt).toNat
    ∃ t c, exec (.callNew p tag kind k grade location present receipt) s = .next t
      ∧ Answered p tag .ok (be16 c.number ++ be8 c.grade ++ be16 (c.outage.getD 0)) t ∧ KeepsRest (some p) s t
      ∧ lookup idx t.net.calls = some c
      ∧ c.number ∉ s.net.calls.map (fun y => y.2.number) ∧ 1 ≤ c.number ∧ c.number ≤ 65535 ∧ t.net.lastCall = c.number
      ∧ c.kind = (if kind = 0 then .odour else .noGas) ∧ c.sect = k.toNat ∧ c.state = .received
      ∧ c.location = location ∧ c.crew = none ∧ c.arrival = none ∧ c.pendingGrade = none
      ∧ c.received = (if present = 0 then s.tbu.clock else receipt) ∧ c.elapsed = passed
      ∧ c.grade ≤ grade.toNat
      ∧ (kind = 1 ∨ z.odour + 1 < (paramsOf s.cfu.image).clusterThreshold →
          c.grade = grade.toNat ∧ c.attend = attendDeadline s.cfu.image grade.toNat - passed
            ∧ c.overdueAttend = (c.attend == 0 && c.outage.isNone)
            ∧ ∀ j, j ≠ idx → lookup j t.net.calls = lookup j s.net.calls)
      ∧ (kind = 0 → c.outage = none ∧ t.net.outages = s.net.outages
          ∧ (lookup k.toNat t.net.sections).map Sect.odour = some (z.odour + 1)
          ∧ (z.odour + 1 = (paramsOf s.cfu.image).clusterThreshold →
              (lookup k.toNat t.net.sections).map Sect.cluster = some true ∧ c.grade ≤ (paramsOf s.cfu.image).clusterGrade))
      ∧ (kind = 1 → outageOf k.toNat s.net.outages = none → c.outage = none ∧ t.net.outages = s.net.outages
          ∧ (lookup k.toNat t.net.sections).map Sect.noGas = some (z.noGas + 1)
          ∧ (lookup k.toNat t.net.sections).map Sect.suspected =
              some (decide ((paramsOf s.cfu.image).noGasThreshold ≤ z.noGas + 1)))
      ∧ (kind = 1 → ∀ o, outageOf k.toNat s.net.outages = some o → c.outage = some o.number
          ∧ t.net.sections = s.net.sections
          ∧ ((outageAt o.number t.net).map Outage.linked) = (outageAt o.number s.net).map (fun y => y.linked + 1))
      ∧ Notified .call (.callState c.number (.inl .received) c.kind c.outage.isSome c.grade k.toNat) s t
      ∧ KeepsLines s.net t.net ∧ KeepsValves s.net t.net ∧ KeepsWalk s.net t.net ∧ KeepsPoints s.net t.net
      ∧ KeepsSupply s.net t.net ∧ t.net.plans = s.net.plans

/-- CALL_ASSIGN, CALL_ARRIVED and CALL_MADE_SAFE move one call through its states; the arrival and the making safe
clear the overdue condition of the stage they end at the Alarm List Unit; a call in another state, a number no call
holds and the number 0 refuse. -/
def Obligations.CrewsWorkTheCall : Prop :=
  ∀ (s : State) p tag (n : Half) crew, CanSend [.dispatch] p s →
    let requests := [Instr.callAssign p tag n crew, .callArrived p tag n, .callMadeSafe p tag n]
    (n = 0 → ∀ i ∈ requests, Refused i p tag .badArgument [] s)
    ∧ (n ≠ 0 → callNumbered n.toNat s.net.calls = none → ∀ i ∈ requests, Refused i p tag .noSuchObject [] s)
    ∧ (∀ idx c, n ≠ 0 → callNumbered n.toNat s.net.calls = some (idx, c) →
      let becomes (i : Instr) (y : Call) : Prop :=
        ∃ t, exec i s = .next t ∧ Answered p tag .ok [] t ∧ KeepsRest (some p) s t
          ∧ callNumbered n.toNat t.net.calls = some (idx, y)
          ∧ (∀ m, m ≠ n.toNat → callNumbered m t.net.calls = callNumbered m s.net.calls)
          ∧ t.net = { s.net with calls := t.net.calls }
          ∧ (y ≠ c → Notified .call
              (.callState n.toNat (.inl y.state) c.kind c.outage.isSome y.grade c.sect) s t)
          ∧ ((c.overdueAttend = false ∧ c.overdueSafe = false) ∨ y.state = .assigned → t.alu = s.alu)
          ∧ (AlarmsSound s →
              (c.overdueAttend = true → y.overdueAttend = false →
                StandsCleared { kind := .overdueAttend, index := n.toNat } t.alu)
              ∧ (c.overdueSafe = true → y.overdueSafe = false →
                StandsCleared { kind := .overdueSafe, index := n.toNat } t.alu))
      let g := c.pendingGrade.getD c.grade
      (c.state = .received ∨ c.state = .assigned →
        becomes (.callAssign p tag n crew) { c with crew := some crew, state := .assigned }
        ∧ becomes (.callArrived p tag n)
            { c with arrival := some s.tbu.clock, overdueAttend := false, grade := g, pendingGrade := none, elapsed := 0,
                     safe := safeDeadline s.cfu.image g, realarm := 0, state := .onSite }
        ∧ Refused (.callMadeSafe p tag n) p tag .wrongState [] s)
      ∧ (c.state = .onSite →
        becomes (.callMadeSafe p tag n)
          { c with overdueSafe := false, realarm := 0, grade := g, pendingGrade := none, state := .madeSafe })
      ∧ (c.state = .onSite ∨ c.state = .madeSafe →
        Refused (.callAssign p tag n crew) p tag .wrongState [] s ∧ Refused (.callArrived p tag n) p tag .wrongState [] s)
      ∧ (c.state = .madeSafe → Refused (.callMadeSafe p tag n) p tag .wrongState [] s))

/-- CALL_CLOSE and CALL_CANCEL free the call, take it out of its section's or outage's count and out of the plans that
name it, and clear its overdue conditions at the Alarm List Unit; a plan at work on the call bars both. -/
def Obligations.CallsEnd : Prop :=
  ∀ (s : State) p tag (n : Half) idx c, CanSend [.dispatch] p s → n ≠ 0 → callNumbered n.toNat s.net.calls = some (idx, c) →
    let atWork := ∃ x ∈ s.net.plans, x.2.reasonCall = some n.toNat ∧
      (x.2.state = .checking ∨ x.2.state = .executing ∨ x.2.state = .isolated ∨ x.2.state = .held)
    let ends (i : Instr) (how : CallEnd) : Prop :=
      (atWork → Refused i p tag .planOpen [] s)
      ∧ (¬ atWork →
        ∃ t, exec i s = .next t ∧ Answered p tag .ok [] t ∧ KeepsRest (some p) s t
          ∧ callNumbered n.toNat t.net.calls = none
          ∧ (∀ m, m ≠ n.toNat → callNumbered m t.net.calls = callNumbered m s.net.calls)
          ∧ (∀ k, lookup k t.net.plans = (lookup k s.net.plans).map
              (fun x => if x.reasonCall = some n.toNat then { x with reasonCall := none } else x))
          ∧ (c.kind = .odour →
              (lookup c.sect t.net.sections).map Sect.odour = (lookup c.sect s.net.sections).map (fun z => z.odour - 1))
          ∧ (c.kind = .noGas → c.outage = none →
              (lookup c.sect t.net.sections).map Sect.noGas = (lookup c.sect s.net.sections).map (fun z => z.noGas - 1))
          ∧ (c.kind = .noGas → ∀ o, c.outage = some o →
              (outageAt o t.net).map Outage.linked = (outageAt o s.net).map (fun z => z.linked - 1)
                ∧ t.net.sections = s.net.sections)
          ∧ (c.kind = .odour ∨ c.outage = none → KeepsOutages s.net t.net)
          ∧ Notified .call (.callState n.toNat (.inr how) c.kind c.outage.isSome c.grade c.sect) s t
          ∧ (AlarmsSound s →
              (c.overdueAttend = true → StandsCleared { kind := .overdueAttend, index := n.toNat } t.alu)
              ∧ (c.overdueSafe = true → StandsCleared { kind := .overdueSafe, index := n.toNat } t.alu))
          ∧ KeepsLines s.net t.net ∧ KeepsValves s.net t.net ∧ KeepsWalk s.net t.net ∧ KeepsSupply s.net t.net
          ∧ KeepsPoints s.net t.net)
    ((c.kind = .noGas ∨ c.state = .madeSafe) → ends (.callClose p tag n) .closed)
    ∧ (c.kind = .odour → c.state ≠ .madeSafe → Refused (.callClose p tag n) p tag .wrongState [] s)
    ∧ ((c.state = .received ∨ c.state = .assigned) → ends (.callCancel p tag n) .cancelled)
    ∧ ((c.state = .onSite ∨ c.state = .madeSafe) → Refused (.callCancel p tag n) p tag .wrongState [] s)

/-- CALL_REGRADE upgrades a call at once and shortens its stage, which expires at once where no time is left and its
timing is not stopped; it cancels or sets a pending grade, and in MADE_SAFE lowers the urgency at once. -/
def Obligations.RegradeChangesTheCall : Prop :=
  ∀ (s : State) p tag (n : Half) (g : Byte) idx c, CanSend [.dispatch] p s → n ≠ 0 →
    callNumbered n.toNat s.net.calls = some (idx, c) →
    ((g.toNat < 1 ∨ 3 < g.toNat) → Refused (.callRegrade p tag n g) p tag .badArgument [] s)
    ∧ (1 ≤ g.toNat → g.toNat ≤ 3 →
      ∃ t y, exec (.callRegrade p tag n g) s = .next t ∧ Answered p tag .ok [] t ∧ KeepsRest (some p) s t
        ∧ callNumbered n.toNat t.net.calls = some (idx, y)
        ∧ (∀ m, m ≠ n.toNat → callNumbered m t.net.calls = callNumbered m s.net.calls)
        ∧ t.net = { s.net with calls := t.net.calls }
        ∧ y.number = c.number ∧ y.kind = c.kind ∧ y.sect = c.sect ∧ y.state = c.state ∧ y.outage = c.outage
        ∧ y.elapsed = c.elapsed ∧ y.received = c.received ∧ y.crew = c.crew
        ∧ (g.toNat < c.grade → y.grade = g.toNat ∧ y.pendingGrade = none
            ∧ (c.state = .received ∨ c.state = .assigned →
                y.attend = min c.attend (attendDeadline s.cfu.image g.toNat - c.elapsed) ∧ y.safe = c.safe)
            ∧ (c.state = .onSite →
                y.safe = min c.safe (safeDeadline s.cfu.image g.toNat - c.elapsed) ∧ y.attend = c.attend)
            ∧ (c.state = .madeSafe → y = { c with grade := g.toNat, pendingGrade := none })
            ∧ Notified .call (.callState n.toNat (.inl c.state) c.kind c.outage.isSome g.toNat c.sect) s t)
        ∧ (g.toNat < c.grade → ∀ st, stageOf c.state = some st →
            let expires := remaining y st = 0 ∧ overdue c st = false ∧ c.outage = none
            (expires → overdue y st = true ∧ y.realarm = (paramsOf s.cfu.image).realarm
              ∧ (∀ r, r ≠ st → overdue y r = overdue c r)
              ∧ Notified .call (.callDeadline n.toNat st c.elapsed) s t
              ∧ (AlarmsSound s → StandsRaised { kind := overdueKind st, index := n.toNat } t.alu))
            ∧ (¬ expires → y.overdueAttend = c.overdueAttend ∧ y.overdueSafe = c.overdueSafe ∧ y.realarm = c.realarm
              ∧ t.alu = s.alu))
        ∧ (c.grade ≤ g.toNat → t.alu = s.alu)
        ∧ (g.toNat = c.grade → y = { c with pendingGrade := none })
        ∧ (c.grade < g.toNat → c.state = .madeSafe → y = { c with grade := g.toNat })
        ∧ (c.grade < g.toNat → c.state ≠ .madeSafe → y = { c with pendingGrade := some g.toNat }))

/-- A running stage whose time is 0 expires: its overdue condition is set, the re-alarm timer loaded, CALL_DEADLINE
posted. A re-alarm remaining of 0 under an overdue condition is loaded again with its CALL_DEADLINE. The rows rest on
assumption 3. -/
def Obligations.DeadlinesExpire : Prop :=
  ∀ (s : State) n idx c st, Running s → callNumbered n s.net.calls = some (idx, c) → c.outage = none →
    stageOf c.state = some st →
    let becomes (i : Instr) (y : Call) : Prop :=
      ∃ t, exec i s = .next t ∧ KeepsRest none s t ∧ callNumbered n t.net.calls = some (idx, y)
        ∧ (∀ m, m ≠ n → callNumbered m t.net.calls = callNumbered m s.net.calls)
        ∧ t.net = { s.net with calls := t.net.calls }
        ∧ Notified .call (.callDeadline n st c.elapsed) s t
        ∧ ((∃ x ∈ t.alu.entries, x.cond = { kind := overdueKind st, index := n } ∧ x.state = .activeUnack)
            ∨ ∃ x ∈ t.alu.withheld, x.cond = { kind := overdueKind st, index := n })
    (remaining c st = 0 → overdue c st = false →
      becomes (.deadlineExpiry n) { setOverdue true c st with realarm := (paramsOf s.cfu.image).realarm })
    ∧ (overdue c st = true → c.realarm = 0 →
      becomes (.realarmExpiry n) { c with realarm := (paramsOf s.cfu.image).realarm })

/-! ## Alarm list, horn and mimic panel (Chapter 8) -/

/-- A raise of a condition that is neither listed nor withheld: an entry at the end of the list under a new number, which
becomes the last number given, and a new event sequence, or, at 96 entries, a withheld record and no entry. -/
def Obligations.RaiseListsOrWithholds : Prop :=
  ∀ (m : Image) up now r (a : Alu), a.Sound → r.kind ≠ .clear → r.cond ∉ a.entries.map Entry.cond →
    r.cond ∉ a.withheld.map Withheld.cond →
    let b := (takeReport m up now r { alu := a, touches := [] }).alu
    (a.entries.length < 96 → ∃ n, n ∉ a.entries.map Entry.number ∧ 1 ≤ n ∧ n ≤ 65535 ∧ b.lastNumber = n
      ∧ b.entries = a.entries ++
          [{ number := n, cond := r.cond, priority := priorityOf m r.cond.kind, state := .activeUnack, firstRaised := now,
             lastChange := now, repeats := 1, ackPort := none, seq := a.seq + 1 }]
      ∧ b.seq = a.seq + 1 ∧ b.withheld = a.withheld ∧ b.mark = a.mark)
    ∧ (a.entries.length = 96 → b.entries = a.entries ∧ b.seq = a.seq ∧ b.mark = a.mark ∧ b.withheld = a.withheld ++
        [{ cond := r.cond, priority := priorityOf m r.cond.kind, raisedUptime := up, raisedClock := now, repeats := 1 }])

/-- ALARM_ACK acknowledges an ACTIVE_UNACK entry for its port and removes a CLEARED_UNACK one, whose place the
first-ranked withheld condition takes. HORN_SILENCE sets the mark to the event sequence, and no entry that is not
later sounds. That the rank compares raise times as plain numbers is the model's choice (assumption 18). -/
def Obligations.AcknowledgeAndSilence : Prop :=
  ∀ (s : State) p tag, AlarmsSound s → CanSend [.dispatch, .switching] p s →
    Refused (.alarmAck p tag 0) p tag .badArgument [] s
    ∧ (∀ n : Half, n ≠ 0 → n.toNat ∉ s.alu.entries.map Entry.number →
        Refused (.alarmAck p tag n) p tag .noSuchObject [] s)
    ∧ (∀ (n : Half) x, x ∈ s.alu.entries → x.number = n.toNat →
      (x.state = .activeAck → Refused (.alarmAck p tag n) p tag .alreadyAcked [] s)
      ∧ (x.state = .activeUnack →
        ∃ t, exec (.alarmAck p tag n) s = .next t ∧ Answered p tag .ok [1] t ∧ KeepsRest (some p) s t ∧ t.net = s.net
          ∧ t.alu.entries = s.alu.entries.map (fun y =>
              if y.number = n.toNat then { x with state := .activeAck, ackPort := some p, lastChange := s.tbu.clock } else y)
          ∧ t.alu.withheld = s.alu.withheld ∧ t.alu.seq = s.alu.seq ∧ t.alu.mark = s.alu.mark
          ∧ Notified .alarm (.alarmChanged n.toNat .acked x.cond) s t)
      ∧ (x.state = .clearedUnack →
        ∃ t, exec (.alarmAck p tag n) s = .next t ∧ Answered p tag .ok [3] t ∧ KeepsRest (some p) s t ∧ t.net = s.net
          ∧ (s.alu.withheld = [] → t.alu.entries = s.alu.entries.filter (fun y => y.number != n.toNat)
              ∧ t.alu.withheld = [])
          ∧ (∀ w l, ranked s.alu.withheld = w :: l → ∃ m,
              t.alu.entries = s.alu.entries.filter (fun y => y.number != n.toNat) ++
                [{ number := m, cond := w.cond, priority := w.priority, state := .activeUnack, firstRaised := w.raisedClock,
                   lastChange := s.tbu.clock, repeats := w.repeats, ackPort := none, seq := s.alu.seq + 1 }]
              ∧ t.alu.withheld = s.alu.withheld.filter (fun y => y.cond != w.cond))
          ∧ Notified .alarm (.alarmChanged n.toNat .removed x.cond) s t))
    ∧ ∃ t, exec (.hornSilence p tag) s = .next t ∧ Answered p tag .ok [] t ∧ KeepsRest (some p) s t ∧ t.net = s.net
        ∧ t.alu.mark = s.alu.seq ∧ t.alu.entries = s.alu.entries ∧ t.alu.withheld = s.alu.withheld
        ∧ t.alu.seq = s.alu.seq
        ∧ ((∀ x ∈ s.alu.entries, isLater x.seq s.alu.seq = false) → t.alu.horn = .silent ∧ t.alu.hornOut = false)

/-- The alarm list: at most 96 entries, one entry or withheld record for a condition, distinct numbers; conditions are
withheld only while it is full. The horn sounds exactly while an entry is eligible, in the most urgent priority, and
its output follows the cadence. Both kept by every step, and so after reset. The horn is judged once an event
(assumption 19). -/
def Obligations.AlarmsAndHornStaySound : Prop :=
  AlarmsSound State.reset ∧ HornSound State.reset
    ∧ ∀ s t, AlarmsSound s → HornSound s → step s = .next t → AlarmsSound t ∧ HornSound t

/-- A step tick that is due takes one step from the part of the cadence; a part without steps ends, and the next
part's steps are loaded: off steps after an on part, and on steps with the pulse's extension after an off part.
LAMP_TEST loads the timer with 500 scan ticks and lights every lamp; the scan of a row shows each of its lamps ON
during a test and otherwise as live state gives it, and drives the columns of the lamps lit at the flash phase.
LAMP_TEST_END changes nothing: the scan tick that brings the timer to 0 ends the test. That LAMP_TEST lights the lamp
map at its event is the model's choice (assumption 20); the rows of the step tick, the cadence part and the end of the
test rest on assumption 3. -/
def Obligations.HornAndLampsRun : Prop :=
  (∀ (s : State) p pulse on steps, Running s → s.alu.horn = .sounding p pulse on steps → 1 ≤ pulse → pulse ≤ 4 →
     let next := if pulse = 4 then 1 else pulse + 1
     let d := cadenceOf s.cfu.image p
     let nextHorn : Horn :=
       if on then .sounding p pulse false d.offSteps
       else .sounding p next true (d.onSteps + (d.extension.getLsbD (next - 1)).toNat)
     (s.alu.divider = 10 →
       (2 ≤ steps → exec .stepTick s =
         .next { s with alu := { s.alu with divider := 0, horn := .sounding p pulse on (steps - 1) } })
       ∧ (steps = 1 → exec .stepTick s =
         .next { s with alu := { s.alu with divider := 0, horn := nextHorn, hornOut := !on } }))
     ∧ (s.alu.divider ≠ 10 → exec .stepTick s = .next s)
     ∧ (steps = 0 → exec .cadencePartEnd s = .next { s with alu := { s.alu with horn := nextHorn, hornOut := !on } })
     ∧ (steps ≠ 0 → exec .cadencePartEnd s = .next s))
  ∧ (∀ (s : State),
       (∀ p tag, CanSend [.switching] p s →
         ∃ t, exec (.lampTest p tag) s = .next t ∧ Answered p tag .ok [] t
           ∧ t.msc = { s.msc with testTimer := 500, lamps := List.replicate 288 .on }
           ∧ t.cfu = s.cfu ∧ t.tbu = s.tbu ∧ t.net = s.net ∧ t.alu = s.alu ∧ ∀ q, q ≠ p → t.ports.get q = s.ports.get q)
       ∧ exec .lampTestEnd s = .next s
       ∧ (Running s → s.msc.nextRow < 12 → s.msc.lamps.length = 288 →
         ∃ t, exec .mimicRowScan s = .next t ∧ t = { s with msc := t.msc } ∧ t.msc.lamps.length = 288
           ∧ t.msc.testTimer = s.msc.testTimer ∧ t.msc.flash = s.msc.flash
           ∧ t.msc.nextRow = (if s.msc.nextRow = 11 then 0 else s.msc.nextRow + 1)
           ∧ t.msc.drivenRow = some s.msc.nextRow
           ∧ (∀ c, c < 24 → ∃ l, t.msc.lamps[24 * s.msc.nextRow + c]? = some l
               ∧ (0 < s.msc.testTimer → l = .on)
               ∧ (s.msc.testTimer = 0 → l = derivedLamp (lampOf s.cfu.image (24 * s.msc.nextRow + c)) s.net s.alu)
               ∧ t.msc.drivenColumns.getLsbD c = isLit s.msc.flash l)
           ∧ (∀ n, (n < 24 * s.msc.nextRow ∨ 24 * s.msc.nextRow + 24 ≤ n) → t.msc.lamps[n]? = s.msc.lamps[n]?)))

/-- The 1 s tick: uptime goes on in every device state and the network clock in RUNNING; in RUNNING a travelling
actuated valve, a fresh point and a running call with time left each lose one second, a valve with no more than one
second left being STUCK at the tick itself. A point whose timer is 1 goes stale at the tick: value, ring, band and
latch go, STALE is raised, its other conditions are cleared, and its source is told that a low outlet has ended. A
call whose stage has one second left expires at the tick: overdue, re-alarm loaded, CALL_DEADLINE posted, its
condition raised. An overdue call loses one second of its re-alarm remaining, and at the last one is re-raised with
CALL_DEADLINE. A call whose timing is stopped or that runs no stage stays as it is. The clauses on calls leave out the
ticks at which the Outage Table may reach the call: a RECHARGING outage that completes, or that ends the suppression
of the call's section. An unconfirmed member of a RECHARGING outage that qualifies loses one second of its hold and is
confirmed at 0, one that does not is given a full hold, and an outage with every member confirmed announces
RELIGHTING, or CLOSED with nothing off. That the clocks go first is the model's choice (assumption 10), and that a
tick takes the expiries it brings is assumption 3. -/
def Obligations.SecondTickRunsTheTimers : Prop :=
  ∀ s : State, TablesSound s → s.cfu.inReset = false →
    let s' := { s with tbu := { s.tbu with clock := s.tbu.clock + 1 } }
    ∃ t, exec .oneSecondTick s = .next t ∧ t.tbu.uptime = s.tbu.uptime + 1 ∧ t.tbu.clockSet = s.tbu.clockSet
      ∧ t.cfu = s.cfu ∧ t.msc = s.msc ∧ t.net.pins = s.net.pins ∧ t.net.lines = s.net.lines
      ∧ (s.cfu.device ≠ .running → t = { s with tbu := { s.tbu with uptime := s.tbu.uptime + 1 } })
      ∧ (s.cfu.device = .running → t.tbu.clock = s.tbu.clock + 1
        ∧ (∀ v x, lookup v s.net.valves = some x →
          (isDriven s.cfu.image v x = true → 2 ≤ x.travel → lookup v t.net.valves = some { x with travel := x.travel - 1 })
          ∧ (isDriven s.cfu.image v x = true → x.travel ≤ 1 → positionAt t.net v = some .stuck)
          ∧ (isDriven s.cfu.image v x = false → lookup v t.net.valves = some x))
        ∧ (∀ j x, lookup j s.net.points = some x → ∃ y, lookup j t.net.points = some y ∧ y.timer = x.timer - 1
            ∧ (x.timer ≠ 1 → y.value = x.value ∧ y.band = x.band ∧ y.fresh = x.fresh ∧ y.ring = x.ring))
        ∧ ((∀ j z, lookup j s.net.points = some z → z.timer ≠ 1) →
          ∀ n o, outageAt n s.net = some o → o.state = .recharging →
            let members := o.members.map (fun z =>
              if z.confirmed = true then z
              else if qualifying s.cfu.image s.net z.sect = true then
                { z with hold := z.hold - 1, confirmed := decide (z.hold ≤ 1) }
              else { z with hold := (paramsOf s.cfu.image).rechargeHold })
            ((∃ z ∈ members, z.confirmed = false) → outageAt n t.net = some { o with members := members })
            ∧ ((∀ z ∈ members, z.confirmed = true) → o.off ≠ 0 →
              outageAt n t.net = some { o with members := members, state := .relighting, relapse := false }
                ∧ Notified .outage (.outageState n (some .relighting) o.off) s' t)
            ∧ ((∀ z ∈ members, z.confirmed = true) → o.off = 0 → Notified .outage (.outageState n none 0) s' t))
        ∧ (∀ j x d, lookup j s.net.points = some x → lookup j s.cfu.image.points = some d → x.timer = 1 →
          (∃ y, lookup j t.net.points = some y ∧ y.timer = 0 ∧ y.fresh = false ∧ y.value = none ∧ y.ring = []
            ∧ y.band = .unset ∧ y.candidate = none ∧ y.agreement = 0 ∧ y.latch = false ∧ y.lastSample = x.lastSample
            ∧ y.lowListed = false ∧ y.lowlowListed = false ∧ y.highListed = false ∧ y.highhighListed = false
            ∧ y.fallListed = false ∧ y.staleListed = true)
          ∧ (AlarmsSound s →
            (x.staleListed = false → StandsRaised { kind := .stale, index := j } t.alu)
            ∧ ∀ c, c ∈ [CondKind.lowBand, .lowlowBand, .highBand, .highhighBand, .rateOfFall] → listed x c = true →
              StandsCleared { kind := c, index := j } t.alu)
          ∧ (∀ k z, isFreshLow x = true → outletSource s.cfu.image j = some k → lookup k s.net.sources = some z →
            lookup k t.net.sources = some { z with outletLow := false, live := !z.tripped && !z.out }))
        ∧ (∀ k c, lookup k s.net.calls = some c → c.elapsed < 4294967295 →
          (s.net.outages = []
            ∨ (∀ n o, outageAt n s.net = some o → o.state = .declared ∨ o.state = .relighting)
            ∨ ((∀ j z, lookup j s.net.points = some z → z.timer ≠ 1)
              ∧ ∀ n o, outageAt n s.net = some o → o.state = .recharging →
                (∃ z ∈ o.members, z.confirmed = false ∧ (qualifying s.cfu.image s.net z.sect = true → 2 ≤ z.hold))
                  ∨ (o.off ≠ 0 ∧ (c.kind = .noGas ∨ c.sect ∉ memberSections o)))) →
          let expires (st : Stage) (y : Call) : Prop :=
            lookup k t.net.calls = some y ∧ Notified .call (.callDeadline c.number st (c.elapsed + 1)) s' t
              ∧ (AlarmsSound s → StandsRaised { kind := overdueKind st, index := c.number } t.alu)
          let c' := { c with elapsed := c.elapsed + 1 }
          ((c.outage ≠ none ∨ stageOf c.state = none) → lookup k t.net.calls = some c)
          ∧ ∀ st, c.outage = none → stageOf c.state = some st →
            (overdue c st = false → 2 ≤ remaining c st →
              lookup k t.net.calls = some (setRemaining (remaining c st - 1) c' st))
            ∧ (overdue c st = false → remaining c st = 1 →
              expires st { setOverdue true (setRemaining 0 c' st) st with realarm := (paramsOf s.cfu.image).realarm })
            ∧ (overdue c st = true → 2 ≤ c.realarm →
              lookup k t.net.calls = some (setRemaining (remaining c st - 1) { c' with realarm := c.realarm - 1 } st))
            ∧ (overdue c st = true → c.realarm = 1 →
              expires st (setRemaining (remaining c st - 1) { c' with realarm := (paramsOf s.cfu.image).realarm } st))))
end

