-- ==== Sys2Proof/Laws/State.lean ====
section
/-!
SUPPORT. Reading a field after a named update, one lemma per field per update, true by rfl: the updates of State, of a
port among the ports, and of an event.
-/

namespace Sys2Proof.Machine

/-! ## setPort -/

@[simp] theorem State.setPort_cfu (s : State) (p : PortId) (f : Port → Port) : (s.setPort p f).cfu = s.cfu := rfl

@[simp] theorem State.setPort_tbu (s : State) (p : PortId) (f : Port → Port) : (s.setPort p f).tbu = s.tbu := rfl

@[simp] theorem State.setPort_net (s : State) (p : PortId) (f : Port → Port) : (s.setPort p f).net = s.net := rfl

@[simp] theorem State.setPort_alu (s : State) (p : PortId) (f : Port → Port) : (s.setPort p f).alu = s.alu := rfl

@[simp] theorem State.setPort_msc (s : State) (p : PortId) (f : Port → Port) : (s.setPort p f).msc = s.msc := rfl

@[simp] theorem State.setPort_ports (s : State) (p : PortId) (f : Port → Port) : (s.setPort p f).ports = s.ports.set p (f (s.ports.get p)) := rfl

@[simp] theorem State.setPort_pending (s : State) (p : PortId) (f : Port → Port) : (s.setPort p f).pending = s.pending := rfl

@[simp] theorem State.setPort_choices (s : State) (p : PortId) (f : Port → Port) : (s.setPort p f).choices = s.choices := rfl

/-! ## setCfu -/

@[simp] theorem State.setCfu_cfu (s : State) (c : Cfu) : (s.setCfu c).cfu = c := rfl

@[simp] theorem State.setCfu_tbu (s : State) (c : Cfu) : (s.setCfu c).tbu = s.tbu := rfl

@[simp] theorem State.setCfu_net (s : State) (c : Cfu) : (s.setCfu c).net = s.net := rfl

@[simp] theorem State.setCfu_alu (s : State) (c : Cfu) : (s.setCfu c).alu = s.alu := rfl

@[simp] theorem State.setCfu_msc (s : State) (c : Cfu) : (s.setCfu c).msc = s.msc := rfl

@[simp] theorem State.setCfu_ports (s : State) (c : Cfu) : (s.setCfu c).ports = s.ports := rfl

@[simp] theorem State.setCfu_pending (s : State) (c : Cfu) : (s.setCfu c).pending = s.pending := rfl

@[simp] theorem State.setCfu_choices (s : State) (c : Cfu) : (s.setCfu c).choices = s.choices := rfl

/-! ## renew -/

@[simp] theorem renew_cfu (p : PortId) (s : State) : (renew p s).cfu = s.cfu := rfl

@[simp] theorem renew_tbu (p : PortId) (s : State) : (renew p s).tbu = s.tbu := rfl

@[simp] theorem renew_net (p : PortId) (s : State) : (renew p s).net = s.net := rfl

@[simp] theorem renew_alu (p : PortId) (s : State) : (renew p s).alu = s.alu := rfl

@[simp] theorem renew_msc (p : PortId) (s : State) : (renew p s).msc = s.msc := rfl

@[simp] theorem renew_pending (p : PortId) (s : State) : (renew p s).pending = s.pending := rfl

@[simp] theorem renew_choices (p : PortId) (s : State) : (renew p s).choices = s.choices := rfl

/-! ## respond -/

@[simp] theorem respond_cfu (p : PortId) (tag : Byte) (st : Status) (body : List Byte) (s : State) : (respond p tag st body s).cfu = s.cfu := rfl

@[simp] theorem respond_tbu (p : PortId) (tag : Byte) (st : Status) (body : List Byte) (s : State) : (respond p tag st body s).tbu = s.tbu := rfl

@[simp] theorem respond_net (p : PortId) (tag : Byte) (st : Status) (body : List Byte) (s : State) : (respond p tag st body s).net = s.net := rfl

@[simp] theorem respond_alu (p : PortId) (tag : Byte) (st : Status) (body : List Byte) (s : State) : (respond p tag st body s).alu = s.alu := rfl

@[simp] theorem respond_msc (p : PortId) (tag : Byte) (st : Status) (body : List Byte) (s : State) : (respond p tag st body s).msc = s.msc := rfl

@[simp] theorem respond_pending (p : PortId) (tag : Byte) (st : Status) (body : List Byte) (s : State) : (respond p tag st body s).pending = s.pending := rfl

@[simp] theorem respond_choices (p : PortId) (tag : Byte) (st : Status) (body : List Byte) (s : State) : (respond p tag st body s).choices = s.choices := rfl

/-! ## setPins -/

@[simp] theorem setPins_cfu (pins : BitVec 64) (s : State) : (setPins pins s).cfu = s.cfu := rfl

@[simp] theorem setPins_tbu (pins : BitVec 64) (s : State) : (setPins pins s).tbu = s.tbu := rfl

@[simp] theorem setPins_alu (pins : BitVec 64) (s : State) : (setPins pins s).alu = s.alu := rfl

@[simp] theorem setPins_msc (pins : BitVec 64) (s : State) : (setPins pins s).msc = s.msc := rfl

@[simp] theorem setPins_ports (pins : BitVec 64) (s : State) : (setPins pins s).ports = s.ports := rfl

@[simp] theorem setPins_pending (pins : BitVec 64) (s : State) : (setPins pins s).pending = s.pending := rfl

@[simp] theorem setPins_choices (pins : BitVec 64) (s : State) : (setPins pins s).choices = s.choices := rfl

/-! ## scanCounters -/

@[simp] theorem scanCounters_cfu (s : State) : (scanCounters s).cfu = s.cfu := rfl

@[simp] theorem scanCounters_tbu (s : State) : (scanCounters s).tbu = s.tbu := rfl

@[simp] theorem scanCounters_net (s : State) : (scanCounters s).net = s.net := rfl

@[simp] theorem scanCounters_ports (s : State) : (scanCounters s).ports = s.ports := rfl

@[simp] theorem scanCounters_pending (s : State) : (scanCounters s).pending = s.pending := rfl

@[simp] theorem scanCounters_choices (s : State) : (scanCounters s).choices = s.choices := rfl

/-! ## advanceClocks -/

@[simp] theorem advanceClocks_cfu (s : State) : (advanceClocks s).cfu = s.cfu := rfl

@[simp] theorem advanceClocks_net (s : State) : (advanceClocks s).net = s.net := rfl

@[simp] theorem advanceClocks_alu (s : State) : (advanceClocks s).alu = s.alu := rfl

@[simp] theorem advanceClocks_msc (s : State) : (advanceClocks s).msc = s.msc := rfl

@[simp] theorem advanceClocks_ports (s : State) : (advanceClocks s).ports = s.ports := rfl

@[simp] theorem advanceClocks_pending (s : State) : (advanceClocks s).pending = s.pending := rfl

@[simp] theorem advanceClocks_choices (s : State) : (advanceClocks s).choices = s.choices := rfl

/-! ## finishWith -/

@[simp] theorem finishWith_cfu (w : AluWork) (e : Event) (s : State) : (finishWith w e s).cfu = s.cfu := rfl

@[simp] theorem finishWith_tbu (w : AluWork) (e : Event) (s : State) : (finishWith w e s).tbu = s.tbu := rfl

@[simp] theorem finishWith_msc (w : AluWork) (e : Event) (s : State) : (finishWith w e s).msc = s.msc := rfl

@[simp] theorem finishWith_pending (w : AluWork) (e : Event) (s : State) : (finishWith w e s).pending = s.pending := rfl

/-! ## finishAsMade -/

@[simp] theorem finishAsMade_cfu (e : Event) (s : State) : (finishAsMade e s).cfu = s.cfu := rfl

@[simp] theorem finishAsMade_tbu (e : Event) (s : State) : (finishAsMade e s).tbu = s.tbu := rfl

@[simp] theorem finishAsMade_msc (e : Event) (s : State) : (finishAsMade e s).msc = s.msc := rfl

@[simp] theorem finishAsMade_pending (e : Event) (s : State) : (finishAsMade e s).pending = s.pending := rfl

@[simp] theorem finishAsMade_net (e : Event) (s : State) : (finishAsMade e s).net = writeReasons e.plans e.net := rfl

/-! ## finish -/

@[simp] theorem finish_cfu (e : Event) (s : State) : (finish e s).cfu = s.cfu := rfl

@[simp] theorem finish_tbu (e : Event) (s : State) : (finish e s).tbu = s.tbu := rfl

@[simp] theorem finish_msc (e : Event) (s : State) : (finish e s).msc = s.msc := rfl

@[simp] theorem finish_pending (e : Event) (s : State) : (finish e s).pending = s.pending := rfl

/-! ## event -/

@[simp] theorem event_cfu (f : Event → Event) (s : State) : (event f s).cfu = s.cfu := rfl

@[simp] theorem event_tbu (f : Event → Event) (s : State) : (event f s).tbu = s.tbu := rfl

@[simp] theorem event_msc (f : Event → Event) (s : State) : (event f s).msc = s.msc := rfl

@[simp] theorem event_pending (f : Event → Event) (s : State) : (event f s).pending = s.pending := rfl

@[simp] theorem setPins_pins (pins : BitVec 64) (s : State) : (setPins pins s).net.pins = pins := rfl

@[simp] theorem renew_ports (p : PortId) (s : State) :
    (renew p s).ports = s.ports.set p { s.ports.get p with lastRequest := s.tbu.uptime } := rfl

@[simp] theorem respond_ports (p : PortId) (tag : Byte) (st : Status) (body : List Byte) (s : State) :
    (respond p tag st body s).ports = s.ports.set p { s.ports.get p with response := composed p tag st body s } := rfl

@[simp] theorem finishWith_net (w : AluWork) (e : Event) (s : State) :
    (finishWith w e s).net = writeReasons e.plans e.net := rfl

/-! ## Ports -/

@[simp] theorem Ports.get_set_same (ps : Ports) (p : PortId) (x : Port) : (ps.set p x).get p = x := by cases p <;> rfl

@[simp] theorem Ports.get_set_other (ps : Ports) (p q : PortId) (x : Port) (h : q ≠ p) :
    (ps.set p x).get q = ps.get q := by cases p <;> cases q <;> first | rfl | exact absurd rfl h

@[simp] theorem Ports.get_map (f : PortId → Port → Port) (ps : Ports) (p : PortId) :
    (ps.map f).get p = f p (ps.get p) := by cases p <;> rfl

/-- Two collections of ports that agree at every port are one. -/
theorem Ports.ext_get (a b : Ports) (h : ∀ p, a.get p = b.get p) : a = b := by
  cases a; cases b
  have h0 := h .p0; have h1 := h .p1; have h2 := h .p2; have h3 := h .p3
  simp only [Ports.get] at h0 h1 h2 h3
  subst h0 h1 h2 h3; rfl

@[simp] theorem Ports.set_set (ps : Ports) (p : PortId) (x y : Port) : (ps.set p x).set p y = ps.set p y := by
  cases p <;> rfl

@[simp] theorem Ports.set_get (ps : Ports) (p : PortId) : ps.set p (ps.get p) = ps := by cases p <;> rfl

/-! ## Event -/

@[simp] theorem Event.setNet_image (e : Event) (n : Net) :
    (e.setNet n).image = e.image := rfl

@[simp] theorem Event.setNet_uptime (e : Event) (n : Net) :
    (e.setNet n).uptime = e.uptime := rfl

@[simp] theorem Event.setNet_clock (e : Event) (n : Net) :
    (e.setNet n).clock = e.clock := rfl

@[simp] theorem Event.setNet_net (e : Event) (n : Net) :
    (e.setNet n).net = n := rfl

@[simp] theorem Event.setNet_choices (e : Event) (n : Net) :
    (e.setNet n).choices = e.choices := rfl

@[simp] theorem Event.setNet_reports (e : Event) (n : Net) :
    (e.setNet n).reports = e.reports := rfl

@[simp] theorem Event.setNet_posts (e : Event) (n : Net) :
    (e.setNet n).posts = e.posts := rfl

@[simp] theorem Event.setNet_plans (e : Event) (n : Net) :
    (e.setNet n).plans = e.plans := rfl

@[simp] theorem Event.setNet_outages (e : Event) (n : Net) :
    (e.setNet n).outages = e.outages := rfl

@[simp] theorem Event.setNet_calls (e : Event) (n : Net) :
    (e.setNet n).calls = e.calls := rfl

@[simp] theorem Event.report_image (b : Block) (k : ReportKind) (c : CondKind) (i : Nat) (e : Event) :
    (e.report b k c i).image = e.image := rfl

@[simp] theorem Event.report_uptime (b : Block) (k : ReportKind) (c : CondKind) (i : Nat) (e : Event) :
    (e.report b k c i).uptime = e.uptime := rfl

@[simp] theorem Event.report_clock (b : Block) (k : ReportKind) (c : CondKind) (i : Nat) (e : Event) :
    (e.report b k c i).clock = e.clock := rfl

@[simp] theorem Event.report_net (b : Block) (k : ReportKind) (c : CondKind) (i : Nat) (e : Event) :
    (e.report b k c i).net = e.net := rfl

@[simp] theorem Event.report_choices (b : Block) (k : ReportKind) (c : CondKind) (i : Nat) (e : Event) :
    (e.report b k c i).choices = e.choices := rfl

@[simp] theorem Event.report_reports (b : Block) (k : ReportKind) (c : CondKind) (i : Nat) (e : Event) :
    (e.report b k c i).reports = e.reports ++ [(b, { kind := k, cond := { kind := c, index := i } })] := rfl

@[simp] theorem Event.report_posts (b : Block) (k : ReportKind) (c : CondKind) (i : Nat) (e : Event) :
    (e.report b k c i).posts = e.posts := rfl

@[simp] theorem Event.report_plans (b : Block) (k : ReportKind) (c : CondKind) (i : Nat) (e : Event) :
    (e.report b k c i).plans = e.plans := rfl

@[simp] theorem Event.report_outages (b : Block) (k : ReportKind) (c : CondKind) (i : Nat) (e : Event) :
    (e.report b k c i).outages = e.outages := rfl

@[simp] theorem Event.report_calls (b : Block) (k : ReportKind) (c : CondKind) (i : Nat) (e : Event) :
    (e.report b k c i).calls = e.calls := rfl

@[simp] theorem Event.signal_image (b : Block) (a : Bool) (c : CondKind) (i : Nat) (e : Event) :
    (e.signal b a c i).image = e.image := rfl

@[simp] theorem Event.signal_uptime (b : Block) (a : Bool) (c : CondKind) (i : Nat) (e : Event) :
    (e.signal b a c i).uptime = e.uptime := rfl

@[simp] theorem Event.signal_clock (b : Block) (a : Bool) (c : CondKind) (i : Nat) (e : Event) :
    (e.signal b a c i).clock = e.clock := rfl

@[simp] theorem Event.signal_net (b : Block) (a : Bool) (c : CondKind) (i : Nat) (e : Event) :
    (e.signal b a c i).net = e.net := rfl

@[simp] theorem Event.signal_choices (b : Block) (a : Bool) (c : CondKind) (i : Nat) (e : Event) :
    (e.signal b a c i).choices = e.choices := rfl

@[simp] theorem Event.signal_posts (b : Block) (a : Bool) (c : CondKind) (i : Nat) (e : Event) :
    (e.signal b a c i).posts = e.posts := rfl

@[simp] theorem Event.signal_plans (b : Block) (a : Bool) (c : CondKind) (i : Nat) (e : Event) :
    (e.signal b a c i).plans = e.plans := rfl

@[simp] theorem Event.signal_outages (b : Block) (a : Bool) (c : CondKind) (i : Nat) (e : Event) :
    (e.signal b a c i).outages = e.outages := rfl

@[simp] theorem Event.signal_calls (b : Block) (a : Bool) (c : CondKind) (i : Nat) (e : Event) :
    (e.signal b a c i).calls = e.calls := rfl

@[simp] theorem Event.post_image (b : Block) (body : NoticeBody) (also : List PortId) (e : Event) :
    (e.post b body also).image = e.image := rfl

@[simp] theorem Event.post_uptime (b : Block) (body : NoticeBody) (also : List PortId) (e : Event) :
    (e.post b body also).uptime = e.uptime := rfl

@[simp] theorem Event.post_clock (b : Block) (body : NoticeBody) (also : List PortId) (e : Event) :
    (e.post b body also).clock = e.clock := rfl

@[simp] theorem Event.post_net (b : Block) (body : NoticeBody) (also : List PortId) (e : Event) :
    (e.post b body also).net = e.net := rfl

@[simp] theorem Event.post_choices (b : Block) (body : NoticeBody) (also : List PortId) (e : Event) :
    (e.post b body also).choices = e.choices := rfl

@[simp] theorem Event.post_reports (b : Block) (body : NoticeBody) (also : List PortId) (e : Event) :
    (e.post b body also).reports = e.reports := rfl

@[simp] theorem Event.post_posts (b : Block) (body : NoticeBody) (also : List PortId) (e : Event) :
    (e.post b body also).posts = e.posts ++ [(b, { body := body, also := also })] := rfl

@[simp] theorem Event.post_plans (b : Block) (body : NoticeBody) (also : List PortId) (e : Event) :
    (e.post b body also).plans = e.plans := rfl

@[simp] theorem Event.post_outages (b : Block) (body : NoticeBody) (also : List PortId) (e : Event) :
    (e.post b body also).outages = e.outages := rfl

@[simp] theorem Event.post_calls (b : Block) (body : NoticeBody) (also : List PortId) (e : Event) :
    (e.post b body also).calls = e.calls := rfl

@[simp] theorem Event.markPlan_image (slot : Nat) (old : Option Plan) (r : Reason) (pin : Bool) (also : List PortId) (e : Event) :
    (e.markPlan slot old r pin also).image = e.image := rfl

@[simp] theorem Event.markPlan_uptime (slot : Nat) (old : Option Plan) (r : Reason) (pin : Bool) (also : List PortId) (e : Event) :
    (e.markPlan slot old r pin also).uptime = e.uptime := rfl

@[simp] theorem Event.markPlan_clock (slot : Nat) (old : Option Plan) (r : Reason) (pin : Bool) (also : List PortId) (e : Event) :
    (e.markPlan slot old r pin also).clock = e.clock := rfl

@[simp] theorem Event.markPlan_net (slot : Nat) (old : Option Plan) (r : Reason) (pin : Bool) (also : List PortId) (e : Event) :
    (e.markPlan slot old r pin also).net = e.net := rfl

@[simp] theorem Event.markPlan_choices (slot : Nat) (old : Option Plan) (r : Reason) (pin : Bool) (also : List PortId) (e : Event) :
    (e.markPlan slot old r pin also).choices = e.choices := rfl

@[simp] theorem Event.markPlan_reports (slot : Nat) (old : Option Plan) (r : Reason) (pin : Bool) (also : List PortId) (e : Event) :
    (e.markPlan slot old r pin also).reports = e.reports := rfl

@[simp] theorem Event.markPlan_posts (slot : Nat) (old : Option Plan) (r : Reason) (pin : Bool) (also : List PortId) (e : Event) :
    (e.markPlan slot old r pin also).posts = e.posts := rfl

@[simp] theorem Event.markPlan_outages (slot : Nat) (old : Option Plan) (r : Reason) (pin : Bool) (also : List PortId) (e : Event) :
    (e.markPlan slot old r pin also).outages = e.outages := rfl

@[simp] theorem Event.markPlan_calls (slot : Nat) (old : Option Plan) (r : Reason) (pin : Bool) (also : List PortId) (e : Event) :
    (e.markPlan slot old r pin also).calls = e.calls := rfl

@[simp] theorem Event.markReleased_image (slot : Nat) (p : Plan) (e : Event) :
    (e.markReleased slot p).image = e.image := rfl

@[simp] theorem Event.markReleased_uptime (slot : Nat) (p : Plan) (e : Event) :
    (e.markReleased slot p).uptime = e.uptime := rfl

@[simp] theorem Event.markReleased_clock (slot : Nat) (p : Plan) (e : Event) :
    (e.markReleased slot p).clock = e.clock := rfl

@[simp] theorem Event.markReleased_net (slot : Nat) (p : Plan) (e : Event) :
    (e.markReleased slot p).net = e.net := rfl

@[simp] theorem Event.markReleased_choices (slot : Nat) (p : Plan) (e : Event) :
    (e.markReleased slot p).choices = e.choices := rfl

@[simp] theorem Event.markReleased_reports (slot : Nat) (p : Plan) (e : Event) :
    (e.markReleased slot p).reports = e.reports := rfl

@[simp] theorem Event.markReleased_posts (slot : Nat) (p : Plan) (e : Event) :
    (e.markReleased slot p).posts = e.posts := rfl

@[simp] theorem Event.markReleased_outages (slot : Nat) (p : Plan) (e : Event) :
    (e.markReleased slot p).outages = e.outages := rfl

@[simp] theorem Event.markReleased_calls (slot : Nat) (p : Plan) (e : Event) :
    (e.markReleased slot p).calls = e.calls := rfl

@[simp] theorem Event.markClosed_image (n off : Nat) (e : Event) :
    (e.markClosed n off).image = e.image := rfl

@[simp] theorem Event.markClosed_uptime (n off : Nat) (e : Event) :
    (e.markClosed n off).uptime = e.uptime := rfl

@[simp] theorem Event.markClosed_clock (n off : Nat) (e : Event) :
    (e.markClosed n off).clock = e.clock := rfl

@[simp] theorem Event.markClosed_net (n off : Nat) (e : Event) :
    (e.markClosed n off).net = e.net := rfl

@[simp] theorem Event.markClosed_choices (n off : Nat) (e : Event) :
    (e.markClosed n off).choices = e.choices := rfl

@[simp] theorem Event.markClosed_reports (n off : Nat) (e : Event) :
    (e.markClosed n off).reports = e.reports := rfl

@[simp] theorem Event.markClosed_posts (n off : Nat) (e : Event) :
    (e.markClosed n off).posts = e.posts := rfl

@[simp] theorem Event.markClosed_plans (n off : Nat) (e : Event) :
    (e.markClosed n off).plans = e.plans := rfl

@[simp] theorem Event.markClosed_calls (n off : Nat) (e : Event) :
    (e.markClosed n off).calls = e.calls := rfl

@[simp] theorem Event.markFreed_image (c : Call) (how : CallEnd) (e : Event) :
    (e.markFreed c how).image = e.image := rfl

@[simp] theorem Event.markFreed_uptime (c : Call) (how : CallEnd) (e : Event) :
    (e.markFreed c how).uptime = e.uptime := rfl

@[simp] theorem Event.markFreed_clock (c : Call) (how : CallEnd) (e : Event) :
    (e.markFreed c how).clock = e.clock := rfl

@[simp] theorem Event.markFreed_net (c : Call) (how : CallEnd) (e : Event) :
    (e.markFreed c how).net = e.net := rfl

@[simp] theorem Event.markFreed_choices (c : Call) (how : CallEnd) (e : Event) :
    (e.markFreed c how).choices = e.choices := rfl

@[simp] theorem Event.markFreed_reports (c : Call) (how : CallEnd) (e : Event) :
    (e.markFreed c how).reports = e.reports := rfl

@[simp] theorem Event.markFreed_posts (c : Call) (how : CallEnd) (e : Event) :
    (e.markFreed c how).posts = e.posts := rfl

@[simp] theorem Event.markFreed_plans (c : Call) (how : CallEnd) (e : Event) :
    (e.markFreed c how).plans = e.plans := rfl

@[simp] theorem Event.markFreed_outages (c : Call) (how : CallEnd) (e : Event) :
    (e.markFreed c how).outages = e.outages := rfl

@[simp] theorem Event.markOutage_image (n : Nat) (e : Event) :
    (e.markOutage n).image = e.image := by unfold Event.markOutage; split <;> rfl

@[simp] theorem Event.markOutage_uptime (n : Nat) (e : Event) :
    (e.markOutage n).uptime = e.uptime := by unfold Event.markOutage; split <;> rfl

@[simp] theorem Event.markOutage_clock (n : Nat) (e : Event) :
    (e.markOutage n).clock = e.clock := by unfold Event.markOutage; split <;> rfl

@[simp] theorem Event.markOutage_net (n : Nat) (e : Event) :
    (e.markOutage n).net = e.net := by unfold Event.markOutage; split <;> rfl

@[simp] theorem Event.markOutage_choices (n : Nat) (e : Event) :
    (e.markOutage n).choices = e.choices := by unfold Event.markOutage; split <;> rfl

@[simp] theorem Event.markOutage_reports (n : Nat) (e : Event) :
    (e.markOutage n).reports = e.reports := by unfold Event.markOutage; split <;> rfl

@[simp] theorem Event.markOutage_posts (n : Nat) (e : Event) :
    (e.markOutage n).posts = e.posts := by unfold Event.markOutage; split <;> rfl

@[simp] theorem Event.markOutage_plans (n : Nat) (e : Event) :
    (e.markOutage n).plans = e.plans := by unfold Event.markOutage; split <;> rfl

@[simp] theorem Event.markOutage_calls (n : Nat) (e : Event) :
    (e.markOutage n).calls = e.calls := by unfold Event.markOutage; split <;> rfl

@[simp] theorem Event.markCall_image (n : Nat) (e : Event) :
    (e.markCall n).image = e.image := by unfold Event.markCall; split <;> rfl

@[simp] theorem Event.markCall_uptime (n : Nat) (e : Event) :
    (e.markCall n).uptime = e.uptime := by unfold Event.markCall; split <;> rfl

@[simp] theorem Event.markCall_clock (n : Nat) (e : Event) :
    (e.markCall n).clock = e.clock := by unfold Event.markCall; split <;> rfl

@[simp] theorem Event.markCall_net (n : Nat) (e : Event) :
    (e.markCall n).net = e.net := by unfold Event.markCall; split <;> rfl

@[simp] theorem Event.markCall_choices (n : Nat) (e : Event) :
    (e.markCall n).choices = e.choices := by unfold Event.markCall; split <;> rfl

@[simp] theorem Event.markCall_reports (n : Nat) (e : Event) :
    (e.markCall n).reports = e.reports := by unfold Event.markCall; split <;> rfl

@[simp] theorem Event.markCall_posts (n : Nat) (e : Event) :
    (e.markCall n).posts = e.posts := by unfold Event.markCall; split <;> rfl

@[simp] theorem Event.markCall_plans (n : Nat) (e : Event) :
    (e.markCall n).plans = e.plans := by unfold Event.markCall; split <;> rfl

@[simp] theorem Event.markCall_outages (n : Nat) (e : Event) :
    (e.markCall n).outages = e.outages := by unfold Event.markCall; split <;> rfl

end Sys2Proof.Machine
end

