-- ==== Sys2Proof/Laws/Frame.lean ====
section
/-!
SUPPORT. What each shared operation can touch: one lemma per operation over events. A property of the network blocks
that is kept by writes of the fields an operation's layer may write is kept by the operation. Frames and invariants are
both instances.
-/

set_option linter.unusedTactic false
set_option linter.unreachableTactic false

namespace Sys2Proof.Machine

/-- A point without its suppression status and listed conditions. -/
def Point.core (x : Point) : Point :=
  { x with suppressed := false, lowListed := false, lowlowListed := false, highListed := false, highhighListed := false,
           fallListed := false, staleListed := false }

theorem Point.core_setListed (b : Bool) (x : Point) (k : CondKind) : (setListed b x k).core = x.core := by
  cases k <;> rfl

/-! ## Layers -/

/-- Kept by writes of the plan records. -/
structure PlanClosed (P : Net → Prop) : Prop where
  plans : ∀ n x, P n → P { n with plans := x }

/-- Kept by the Source Monitor. -/
structure SourceClosed (P : Net → Prop) : Prop where
  sources : ∀ n x, P n → P { n with sources := x }
  change : ∀ n, P n → P (countChange n)

/-- Kept by the Valve Controller. -/
structure ValveClosed (P : Net → Prop) : Prop extends PlanClosed P where
  valves : ∀ n x, P n → P { n with valves := x }
  outputs : ∀ n x, P n → P { n with outputs := x }
  moved : ∀ n, P n → P (countChange n)

/-- Kept by the Call Register; it and the Outage Table leave published states alone (R47). -/
structure CallClosed (P : Net → Prop) : Prop extends PlanClosed P where
  calls : ∀ n x, P n → P { n with calls := x }
  lastCall : ∀ n x, P n → P { n with lastCall := x }
  sections : ∀ n k f, (∀ x : Sect, (f x).supply = x.supply) → P n → P { n with sections := adjust k f n.sections }
  outages : ∀ n x, P n → P { n with outages := x }

/-- Kept by the Pressure Supervisor's conditions and the Call Register: suppression and listing leave a point's other
fields alone (R123). -/
structure PointClosed (P : Net → Prop) : Prop extends CallClosed P where
  flags : ∀ n k f, (∀ x : Point, (f x).core = x.core) → P n → P { n with points := adjust k f n.points }

/-- Kept by the Outage Table. -/
structure OutageClosed (P : Net → Prop) : Prop extends PointClosed P where
  lastOutage : ∀ n x, P n → P { n with lastOutage := x }

/-- Kept by samples and staleness. -/
structure SampleClosed (P : Net → Prop) : Prop extends OutageClosed P, SourceClosed P where
  points : ∀ n x, P n → P { n with points := x }

/-- Kept by the users of field lines and the timers. -/
structure UserClosed (P : Net → Prop) : Prop extends SampleClosed P, ValveClosed P

/-- Kept by everything but the engine's completions. -/
structure NetClosed (P : Net → Prop) : Prop extends UserClosed P where
  lines : ∀ n x, P n → P { n with lines := x }
  queue : ∀ t n n', queueTrial t n = some n' → P n → P n'

variable {P : Net → Prop}

theorem ValveClosed.plan (h : ValveClosed P) : PlanClosed P := h.toPlanClosed
theorem CallClosed.plan (h : CallClosed P) : PlanClosed P := h.toPlanClosed
theorem PointClosed.call (h : PointClosed P) : CallClosed P := h.toCallClosed
theorem PointClosed.plan (h : PointClosed P) : PlanClosed P := h.call.plan
theorem OutageClosed.point (h : OutageClosed P) : PointClosed P := h.toPointClosed
theorem OutageClosed.call (h : OutageClosed P) : CallClosed P := h.point.call
theorem OutageClosed.plan (h : OutageClosed P) : PlanClosed P := h.point.plan
theorem SampleClosed.outage (h : SampleClosed P) : OutageClosed P := h.toOutageClosed
theorem SampleClosed.source (h : SampleClosed P) : SourceClosed P := h.toSourceClosed
theorem SampleClosed.point (h : SampleClosed P) : PointClosed P := h.outage.point
theorem SampleClosed.call (h : SampleClosed P) : CallClosed P := h.outage.call
theorem SampleClosed.plan (h : SampleClosed P) : PlanClosed P := h.outage.plan
theorem UserClosed.sample (h : UserClosed P) : SampleClosed P := h.toSampleClosed
theorem UserClosed.valve (h : UserClosed P) : ValveClosed P := h.toValveClosed
theorem UserClosed.outage (h : UserClosed P) : OutageClosed P := h.sample.outage
theorem UserClosed.source (h : UserClosed P) : SourceClosed P := h.sample.source
theorem UserClosed.point (h : UserClosed P) : PointClosed P := h.sample.point
theorem UserClosed.call (h : UserClosed P) : CallClosed P := h.sample.call
theorem UserClosed.plan (h : UserClosed P) : PlanClosed P := h.sample.plan
theorem NetClosed.user (h : NetClosed P) : UserClosed P := h.toUserClosed
theorem NetClosed.sample (h : NetClosed P) : SampleClosed P := h.user.sample
theorem NetClosed.valve (h : NetClosed P) : ValveClosed P := h.user.valve
theorem NetClosed.outage (h : NetClosed P) : OutageClosed P := h.sample.outage
theorem NetClosed.source (h : NetClosed P) : SourceClosed P := h.sample.source
theorem NetClosed.point (h : NetClosed P) : PointClosed P := h.sample.point
theorem NetClosed.call (h : NetClosed P) : CallClosed P := h.sample.call
theorem NetClosed.plan (h : NetClosed P) : PlanClosed P := h.sample.plan


/-! ## Steps that touch no field -/

theorem Event.setNet_keeps (e : Event) (n : Net) (h : P n) : P (e.setNet n).net := h

theorem Event.report_keeps (b : Block) (k : ReportKind) (c : CondKind) (i : Nat) (e : Event) (h : P e.net) :
    P (e.report b k c i).net := h

theorem Event.signal_keeps (b : Block) (a : Bool) (c : CondKind) (i : Nat) (e : Event) (h : P e.net) :
    P (e.signal b a c i).net := h

theorem Event.post_keeps (b : Block) (y : NoticeBody) (l : List PortId) (e : Event) (h : P e.net) :
    P (e.post b y l).net := h

theorem Event.markPlan_keeps (k : Nat) (p : Option Plan) (r : Reason) (b : Bool) (l : List PortId) (e : Event)
    (h : P e.net) :
    P (e.markPlan k p r b l).net := h

theorem Event.markReleased_keeps (k : Nat) (p : Plan) (e : Event) (h : P e.net) : P (e.markReleased k p).net := h

theorem Event.markClosed_keeps (n k : Nat) (e : Event) (h : P e.net) : P (e.markClosed n k).net := h

theorem Event.markFreed_keeps (c : Call) (d : CallEnd) (e : Event) (h : P e.net) : P (e.markFreed c d).net := h

theorem Event.markOutage_keeps (n : Nat) (e : Event) (h : P e.net) : P (e.markOutage n).net := by simpa using h

theorem Event.markCall_keeps (n : Nat) (e : Event) (h : P e.net) : P (e.markCall n).net := by simpa using h

/-! ## Writes of one field -/

theorem Event.setPlans_keeps (hc : PlanClosed P) (e : Event) (n : Net) (x : Table Plan) (h : P n) :
    P (e.setNet { n with plans := x }).net := hc.plans n x h

theorem Event.setSources_keeps (hc : SourceClosed P) (e : Event) (n : Net) (x : Table Source) (h : P n) :
    P (e.setNet { n with sources := x }).net := hc.sources n x h

theorem Event.setValves_keeps (hc : ValveClosed P) (e : Event) (n : Net) (x : Table Valve) (h : P n) :
    P (e.setNet { n with valves := x }).net := hc.valves n x h

theorem Event.placed_keeps (hc : ValveClosed P) (d : ValveDef) (v : Nat) (pos : Position) (k : Nat) (e : Event)
    (n : Net)
    (h : P n) : P (e.setNet (placeValve d v pos k n)).net :=
  hc.outputs { n with valves := adjust v (fun y => { y with position := pos, travel := k }) n.valves } _ (hc.valves n _ h)

theorem Event.setCalls_keeps (hc : CallClosed P) (e : Event) (n : Net) (x : Table Call) (h : P n) :
    P (e.setNet { n with calls := x }).net := hc.calls n x h

theorem Event.setNewCall_keeps (hc : CallClosed P) (e : Event) (n : Net) (x : Table Call) (k : Nat) (h : P n) :
    P (e.setNet { n with calls := x, lastCall := k }).net := hc.lastCall { n with calls := x } k (hc.calls n x h)

theorem Event.sectFields_keeps (hc : CallClosed P) (k : Nat) (f : Sect → Sect) (e : Event)
    (hf : ∀ x : Sect, (f x).supply = x.supply) (h : P e.net) :
    P (Event.sectFields k f e).net := hc.sections e.net k f hf h

theorem Event.setOutages_keeps (hc : CallClosed P) (e : Event) (n : Net) (x : Table Outage) (h : P n) :
    P (e.setNet { n with outages := x }).net := hc.outages n x h

theorem Event.setNewOutage_keeps (hc : OutageClosed P) (e : Event) (n : Net) (x : Table Outage) (k : Nat) (h : P n) :
    P (e.setNet { n with outages := x, lastOutage := k }).net := hc.lastOutage { n with outages := x } k (hc.outages n x h)

theorem Event.point_keeps (hc : PointClosed P) (k : Nat) (f : Point → Point) (e : Event)
    (hf : ∀ x : Point, (f x).core = x.core) (h : P e.net) : P (Event.point k f e).net := hc.flags e.net k f hf h

theorem Event.pointAny_keeps (hc : SampleClosed P) (k : Nat) (f : Point → Point) (e : Event) (h : P e.net) :
    P (Event.point k f e).net := hc.points e.net _ h

theorem Event.setLines_keeps (hc : NetClosed P) (e : Event) (n : Net) (x : List LineScan) (h : P n) :
    P (e.setNet { n with lines := x }).net := hc.lines n x h

theorem Event.setCount_keeps (hc : SourceClosed P) (e : Event) (n : Net) (h : P n) : P (e.setNet (countChange n)).net :=
  hc.change n h

theorem Event.setQueued_keeps (hc : NetClosed P) (e : Event) (t : TrialEntry) (n m : Net) (hq : queueTrial t n = some m)
    (h : P n) : P (e.setNet m).net := hc.queue t n m hq h

/-- A Valve Controller's property is kept by change reports. -/
theorem Event.moved_keeps (hc : ValveClosed P) (e : Event) (h : P e.net) : P e.changed.net := hc.moved _ h


/-! ## Walk Engine and Source Monitor -/

theorem Event.changed_keeps (hc : SourceClosed P) (e : Event) (h : P e.net) : P (Event.changed e).net := by
  unfold Event.changed
  try dsimp only
  repeat' first
    | with_reducible assumption
    | with_reducible apply Event.setCount_keeps (P := P)
    | split

theorem Event.source_keeps (hc : SourceClosed P) (k : Nat) (f : Source → Source) (e : Event) (h : P e.net) :
    P (Event.source k f e).net := by
  unfold Event.source
  try dsimp only
  repeat' first
    | with_reducible assumption
    | with_reducible apply Event.changed_keeps (P := P)
    | with_reducible apply Event.setSources_keeps (P := P)
    | split

theorem Event.trip_keeps (hc : SourceClosed P) (k : Nat) (active : Bool) (e : Event) (h : P e.net) :
    P (Event.trip k active e).net := by
  unfold Event.trip
  try dsimp only
  repeat' first
    | with_reducible assumption
    | with_reducible apply Event.signal_keeps (P := P)
    | with_reducible apply Event.source_keeps (P := P)
    | split

theorem Event.outlet_keeps (hc : SourceClosed P) (point : Nat) (low : Bool) (e : Event) (h : P e.net) :
    P (Event.outlet point low e).net := by
  unfold Event.outlet
  try dsimp only
  repeat' first
    | with_reducible assumption
    | with_reducible apply Event.source_keeps (P := P)
    | split

/-! ## Plan Table -/

theorem Event.plan_keeps (hc : PlanClosed P) (slot : Nat) (reason : Reason) (pin : Bool) (f : Plan → Plan)
    (e : Event) (h : P e.net) :
    P (Event.plan slot reason pin f e).net := by
  unfold Event.plan
  try dsimp only
  repeat' first
    | with_reducible assumption
    | with_reducible apply Event.markPlan_keeps (P := P)
    | with_reducible apply Event.setPlans_keeps (P := P)
    | split

theorem Event.planQuietly_keeps (hc : PlanClosed P) (slot : Nat) (f : Plan → Plan) (e : Event) (h : P e.net) :
    P (Event.planQuietly slot f e).net := by
  unfold Event.planQuietly
  try dsimp only
  repeat' first
    | with_reducible assumption
    | with_reducible apply Event.setPlans_keeps (P := P)
    | split

theorem Event.movingReport_keeps (hc : PlanClosed P) (slot : Nat) (p : Plan) (d : Direction)
    (moved : Option Position) (outcome : Option Ending) (e : Event) (h : P e.net) :
    P (Event.movingReport slot p d moved outcome e).net := by
  unfold Event.movingReport
  try dsimp only
  repeat' first
    | with_reducible assumption
    | with_reducible apply Event.plan_keeps (P := P)
    | split

theorem Event.settledReport_keeps (hc : PlanClosed P) (slot : Nat) (d : Direction) (moved : Option Position)
    (e : Event) (h : P e.net) :
    P (Event.settledReport slot d moved e).net := by
  unfold Event.settledReport
  try dsimp only
  repeat' first
    | with_reducible assumption
    | with_reducible apply Event.plan_keeps (P := P)
    | split

theorem Event.heldReport_keeps (hc : PlanClosed P) (slot : Nat) (p : Plan) (e : Event) (h : P e.net) :
    P (Event.heldReport slot p e).net := by
  unfold Event.heldReport
  try dsimp only
  repeat' first
    | with_reducible assumption
    | with_reducible apply Event.plan_keeps (P := P)
    | split

theorem Event.planReport_keeps (hc : PlanClosed P) (slot : Nat) (moved : Option Position) (outcome : Option Ending)
    (e : Event) (h : P e.net) :
    P (Event.planReport slot moved outcome e).net := by
  unfold Event.planReport
  try dsimp only
  repeat' first
    | with_reducible assumption
    | with_reducible apply Event.movingReport_keeps (P := P)
    | with_reducible apply Event.settledReport_keeps (P := P)
    | with_reducible apply Event.heldReport_keeps (P := P)
    | with_reducible apply Event.assessed_keeps (P := P)
    | split

theorem Event.settleIfAll_keeps (hc : PlanClosed P) (slot : Nat) (reason : Reason) (e : Event) (h : P e.net) :
    P (Event.settleIfAll slot reason e).net := by
  unfold Event.settleIfAll
  try dsimp only
  repeat' first
    | with_reducible assumption
    | with_reducible apply Event.plan_keeps (P := P)
    | split

theorem Event.forgetCall_keeps (hc : PlanClosed P) (call : Nat) (e : Event) (h : P e.net) :
    P (Event.forgetCall call e).net := by
  unfold Event.forgetCall
  try dsimp only
  repeat' first
    | with_reducible assumption
    | with_reducible apply Event.setPlans_keeps (P := P)
    | split

theorem Event.unlinkPlan_keeps (hc : PlanClosed P) (slot : Nat) (e : Event) (h : P e.net) :
    P (Event.unlinkPlan slot e).net := by
  unfold Event.unlinkPlan
  try dsimp only
  repeat' first
    | with_reducible assumption
    | with_reducible apply Event.plan_keeps (P := P)
    | split

/-! ## Valve Controller -/

theorem Event.setStuck_keeps (hc : ValveClosed P) (v : Nat) (b : Bool) (e : Event) (h : P e.net) :
    P (Event.setStuck v b e).net := by
  unfold Event.setStuck
  try dsimp only
  repeat' first
    | with_reducible assumption
    | with_reducible apply Event.signal_keeps (P := P)
    | with_reducible apply Event.setValves_keeps (P := P)
    | split

theorem Event.setUncommanded_keeps (hc : ValveClosed P) (v : Nat) (b : Bool) (e : Event) (h : P e.net) :
    P (Event.setUncommanded v b e).net := by
  unfold Event.setUncommanded
  try dsimp only
  repeat' first
    | with_reducible assumption
    | with_reducible apply Event.signal_keeps (P := P)
    | with_reducible apply Event.setValves_keeps (P := P)
    | split

theorem Event.setConflict_keeps (hc : ValveClosed P) (v : Nat) (b : Bool) (e : Event) (h : P e.net) :
    P (Event.setConflict v b e).net := by
  unfold Event.setConflict
  try dsimp only
  repeat' first
    | with_reducible assumption
    | with_reducible apply Event.signal_keeps (P := P)
    | with_reducible apply Event.setValves_keeps (P := P)
    | split

theorem Event.stuckFollows_keeps (hc : ValveClosed P) (v : Nat) (x : Position) (e : Event) (h : P e.net) :
    P (Event.stuckFollows v x e).net := by
  unfold Event.stuckFollows
  try dsimp only
  repeat' first
    | with_reducible assumption
    | with_reducible apply Event.setStuck_keeps (P := P)
    | split

theorem Event.claimReport_keeps (hc : PlanClosed P) (claim : Option Nat) (moved : Option Position)
    (outcome : Option Ending) (e : Event) (h : P e.net) :
    P (Event.claimReport claim moved outcome e).net := by
  unfold Event.claimReport
  try dsimp only
  repeat' first
    | with_reducible assumption
    | with_reducible apply Event.planReport_keeps (P := P)
    | split

theorem Event.moveValve_keeps (hc : ValveClosed P) (v : Nat) (pos : Position) (travel : Nat)
    (outcome : Option Ending) (e : Event) (h : P e.net) :
    P (Event.moveValve v pos travel outcome e).net := by
  have hplan := hc.plan
  unfold Event.moveValve
  try dsimp only
  repeat' first
    | with_reducible assumption
    | with_reducible apply Event.post_keeps (P := P)
    | with_reducible apply Event.moved_keeps (P := P)
    | with_reducible apply Event.stuckFollows_keeps (P := P)
    | with_reducible apply Event.claimReport_keeps (P := P)
    | with_reducible apply Event.claim_keeps (P := P)
    | with_reducible apply Event.placed_keeps (P := P)
    | split

theorem Event.orderManual_keeps (hc : ValveClosed P) (v : Nat) (x : Valve) (dir : Direction) (e : Event) (h : P e.net) :
    P (Event.orderManual v x dir e).net := by
  have hplan := hc.plan
  unfold Event.orderManual
  try dsimp only
  repeat' first
    | with_reducible assumption
    | with_reducible apply Event.claimReport_keeps (P := P)
    | with_reducible apply Event.moveValve_keeps (P := P)
    | with_reducible apply Event.claim_keeps (P := P)
    | split

theorem Event.orderActuated_keeps (hc : ValveClosed P) (v : Nat) (x : Valve) (d : ValveDef) (dir : Direction)
    (e : Event) (h : P e.net) :
    P (Event.orderActuated v x d dir e).net := by
  unfold Event.orderActuated
  try dsimp only
  repeat' first
    | with_reducible assumption
    | with_reducible apply Event.moveValve_keeps (P := P)
    | split

theorem Event.order_keeps (hc : ValveClosed P) (dir : Direction) (v : Nat) (e : Event) (h : P e.net) :
    P (Event.order dir v e).net := by
  unfold Event.order
  try dsimp only
  repeat' first
    | with_reducible assumption
    | with_reducible apply Event.setUncommanded_keeps (P := P)
    | with_reducible apply Event.orderManual_keeps (P := P)
    | with_reducible apply Event.orderActuated_keeps (P := P)
    | split

theorem Event.orders_keeps (hc : ValveClosed P) (dir : Direction) (l : List Nat) (e : Event) (h : P e.net) :
    P (Event.orders dir l e).net := by
  induction l generalizing e with
  | nil => exact h
  | cons x t ih =>
    unfold Event.orders
    apply ih
    repeat' first
      | with_reducible assumption
      | with_reducible apply Event.order_keeps (P := P)
      | split

theorem Event.abort_keeps (hc : ValveClosed P) (v : Nat) (e : Event) (h : P e.net) : P (Event.abort v e).net := by
  unfold Event.abort
  try dsimp only
  repeat' first
    | with_reducible assumption
    | with_reducible apply Event.moveValve_keeps (P := P)
    | split

theorem Event.aborts_keeps (hc : ValveClosed P) (l : List Nat) (e : Event) (h : P e.net) :
    P (Event.aborts l e).net := by
  induction l generalizing e with
  | nil => exact h
  | cons x t ih =>
    unfold Event.aborts
    apply ih
    repeat' first
      | with_reducible assumption
      | with_reducible apply Event.abort_keeps (P := P)
      | split

theorem Event.conflictReport_keeps (hc : ValveClosed P) (v : Nat) (x : Valve) (e : Event) (h : P e.net) :
    P (Event.conflictReport v x e).net := by
  unfold Event.conflictReport
  try dsimp only
  repeat' first
    | with_reducible assumption
    | with_reducible apply Event.setConflict_keeps (P := P)
    | with_reducible apply Event.moveValve_keeps (P := P)
    | split

theorem Event.afterConflict_keeps (hc : ValveClosed P) (v : Nat) (x : Valve) (shown : Option Position) (e : Event)
    (h : P e.net) :
    P (Event.afterConflict v x shown e).net := by
  unfold Event.afterConflict
  try dsimp only
  repeat' first
    | with_reducible assumption
    | with_reducible apply Event.setConflict_keeps (P := P)
    | with_reducible apply Event.moveValve_keeps (P := P)
    | split

theorem Event.restReport_keeps (hc : ValveClosed P) (v : Nat) (x : Valve) (shown : Option Position) (e : Event)
    (h : P e.net) :
    P (Event.restReport v x shown e).net := by
  unfold Event.restReport
  try dsimp only
  repeat' first
    | with_reducible assumption
    | with_reducible apply Event.setUncommanded_keeps (P := P)
    | with_reducible apply Event.moveValve_keeps (P := P)
    | split

theorem Event.limitReport_keeps (hc : ValveClosed P) (v : Nat) (e : Event) (h : P e.net) :
    P (Event.limitReport v e).net := by
  unfold Event.limitReport
  try dsimp only
  repeat' first
    | with_reducible assumption
    | with_reducible apply Event.moveValve_keeps (P := P)
    | with_reducible apply Event.conflictReport_keeps (P := P)
    | with_reducible apply Event.afterConflict_keeps (P := P)
    | with_reducible apply Event.restReport_keeps (P := P)
    | split

theorem Event.travelExpiry_keeps (hc : ValveClosed P) (v : Nat) (e : Event) (h : P e.net) :
    P (Event.travelExpiry v e).net := by
  unfold Event.travelExpiry
  try dsimp only
  repeat' first
    | with_reducible assumption
    | with_reducible apply Event.moveValve_keeps (P := P)
    | split

theorem Event.travelTick_keeps (hc : ValveClosed P) (v : Nat) (e : Event) (h : P e.net) :
    P (Event.travelTick v e).net := by
  unfold Event.travelTick
  try dsimp only
  repeat' first
    | with_reducible assumption
    | with_reducible apply Event.travelExpiry_keeps (P := P)
    | with_reducible apply Event.setValves_keeps (P := P)
    | split

theorem Event.travelTicks_keeps (hc : ValveClosed P) (l : List Nat) (e : Event) (h : P e.net) :
    P (Event.travelTicks l e).net := by
  induction l generalizing e with
  | nil => exact h
  | cons x t ih =>
    unfold Event.travelTicks
    apply ih
    repeat' first
      | with_reducible assumption
      | with_reducible apply Event.travelTick_keeps (P := P)
      | split

theorem Event.verify_keeps (hc : ValveClosed P) (v : Nat) (x : Position) (e : Event) (h : P e.net) :
    P (Event.verify v x e).net := by
  unfold Event.verify
  try dsimp only
  repeat' first
    | with_reducible assumption
    | with_reducible apply Event.setStuck_keeps (P := P)
    | with_reducible apply Event.setUncommanded_keeps (P := P)
    | with_reducible apply Event.moveValve_keeps (P := P)
    | split

/-! ## Call Register -/

theorem Event.call_keeps (hc : CallClosed P) (n : Nat) (f : Call → Call) (e : Event) (h : P e.net) :
    P (Event.call n f e).net := by
  unfold Event.call
  try dsimp only
  repeat' first
    | with_reducible assumption
    | with_reducible apply Event.markCall_keeps (P := P)
    | with_reducible apply Event.setCalls_keeps (P := P)
    | split

theorem Event.callQuietly_keeps (hc : CallClosed P) (n : Nat) (f : Call → Call) (e : Event) (h : P e.net) :
    P (Event.callQuietly n f e).net := by
  unfold Event.callQuietly
  try dsimp only
  repeat' first
    | with_reducible assumption
    | with_reducible apply Event.setCalls_keeps (P := P)
    | split

theorem Event.expire_keeps (hc : CallClosed P) (n : Nat) (stage : Stage) (e : Event) (h : P e.net) :
    P (Event.expire n stage e).net := by
  unfold Event.expire
  try dsimp only
  repeat' first
    | with_reducible assumption
    | with_reducible apply Event.report_keeps (P := P)
    | with_reducible apply Event.post_keeps (P := P)
    | with_reducible apply Event.callQuietly_keeps (P := P)
    | split

theorem Event.realarmed_keeps (hc : CallClosed P) (n : Nat) (stage : Stage) (e : Event) (h : P e.net) :
    P (Event.realarmed n stage e).net := by
  unfold Event.realarmed
  try dsimp only
  repeat' first
    | with_reducible assumption
    | with_reducible apply Event.report_keeps (P := P)
    | with_reducible apply Event.post_keeps (P := P)
    | with_reducible apply Event.callQuietly_keeps (P := P)
    | split

theorem Event.expireIfDue_keeps (hc : CallClosed P) (n : Nat) (e : Event) (h : P e.net) :
    P (Event.expireIfDue n e).net := by
  unfold Event.expireIfDue
  try dsimp only
  repeat' first
    | with_reducible assumption
    | with_reducible apply Event.expire_keeps (P := P)
    | with_reducible apply Event.outage_keeps (P := P)
    | split

theorem Event.realarmIfDue_keeps (hc : CallClosed P) (n : Nat) (e : Event) (h : P e.net) :
    P (Event.realarmIfDue n e).net := by
  unfold Event.realarmIfDue
  try dsimp only
  repeat' first
    | with_reducible assumption
    | with_reducible apply Event.realarmed_keeps (P := P)
    | with_reducible apply Event.outage_keeps (P := P)
    | split

theorem Event.callTick_keeps (hc : CallClosed P) (n : Nat) (e : Event) (h : P e.net) : P (Event.callTick n e).net := by
  unfold Event.callTick
  try dsimp only
  repeat' first
    | with_reducible assumption
    | with_reducible apply Event.callQuietly_keeps (P := P)
    | with_reducible apply Event.expireIfDue_keeps (P := P)
    | with_reducible apply Event.realarmIfDue_keeps (P := P)
    | with_reducible apply Event.outage_keeps (P := P)
    | split

theorem Event.callTicks_keeps (hc : CallClosed P) (l : List Nat) (e : Event) (h : P e.net) :
    P (Event.callTicks l e).net := by
  induction l generalizing e with
  | nil => exact h
  | cons x t ih =>
    unfold Event.callTicks
    apply ih
    repeat' first
      | with_reducible assumption
      | with_reducible apply Event.callTick_keeps (P := P)
      | split

theorem Event.upgrade_keeps (hc : CallClosed P) (g : Nat) (n : Nat) (e : Event) (h : P e.net) :
    P (Event.upgrade g n e).net := by
  unfold Event.upgrade
  try dsimp only
  repeat' first
    | with_reducible assumption
    | with_reducible apply Event.call_keeps (P := P)
    | with_reducible apply Event.expireIfDue_keeps (P := P)
    | split

theorem Event.upgrades_keeps (hc : CallClosed P) (g : Nat) (l : List Nat) (e : Event) (h : P e.net) :
    P (Event.upgrades g l e).net := by
  induction l generalizing e with
  | nil => exact h
  | cons x t ih =>
    unfold Event.upgrades
    apply ih
    repeat' first
      | with_reducible assumption
      | with_reducible apply Event.upgrade_keeps (P := P)
      | split

theorem Event.fallOnset_keeps (hc : CallClosed P) (k : Nat) (e : Event) (h : P e.net) :
    P (Event.fallOnset k e).net := by
  unfold Event.fallOnset
  try dsimp only
  repeat' first
    | with_reducible assumption
    | with_reducible apply Event.upgrades_keeps (P := P)
    | split

theorem Event.setCluster_keeps (hc : CallClosed P) (k : Nat) (b : Bool) (e : Event) (h : P e.net) :
    P (Event.setCluster k b e).net := by
  unfold Event.setCluster
  try dsimp only
  repeat' first
    | with_reducible assumption
    | with_reducible apply Event.signal_keeps (P := P)
    | with_reducible apply Event.sectFields_keeps (P := P)
    | exact fun _ => rfl
    | exact fun x => Point.core_setListed _ x _
    | split

theorem Event.setSuspected_keeps (hc : CallClosed P) (k : Nat) (b : Bool) (e : Event) (h : P e.net) :
    P (Event.setSuspected k b e).net := by
  unfold Event.setSuspected
  try dsimp only
  repeat' first
    | with_reducible assumption
    | with_reducible apply Event.signal_keeps (P := P)
    | with_reducible apply Event.sectFields_keeps (P := P)
    | exact fun _ => rfl
    | exact fun x => Point.core_setListed _ x _
    | split

theorem Event.odourJoins_keeps (hc : CallClosed P) (k n : Nat) (e : Event) (h : P e.net) :
    P (Event.odourJoins k n e).net := by
  unfold Event.odourJoins
  try dsimp only
  repeat' first
    | with_reducible assumption
    | with_reducible apply Event.sectFields_keeps (P := P)
    | with_reducible apply Event.upgrade_keeps (P := P)
    | with_reducible apply Event.upgrades_keeps (P := P)
    | with_reducible apply Event.setCluster_keeps (P := P)
    | exact fun _ => rfl
    | exact fun x => Point.core_setListed _ x _
    | split

theorem Event.odourLeaves_keeps (hc : CallClosed P) (k : Nat) (e : Event) (h : P e.net) :
    P (Event.odourLeaves k e).net := by
  unfold Event.odourLeaves
  try dsimp only
  repeat' first
    | with_reducible assumption
    | with_reducible apply Event.sectFields_keeps (P := P)
    | with_reducible apply Event.setCluster_keeps (P := P)
    | exact fun _ => rfl
    | exact fun x => Point.core_setListed _ x _
    | split

theorem Event.noGasCount_keeps (hc : CallClosed P) (k : Nat) (f : Nat → Nat) (e : Event) (h : P e.net) :
    P (Event.noGasCount k f e).net := by
  unfold Event.noGasCount
  try dsimp only
  repeat' first
    | with_reducible assumption
    | with_reducible apply Event.sectFields_keeps (P := P)
    | with_reducible apply Event.setSuspected_keeps (P := P)
    | exact fun _ => rfl
    | exact fun x => Point.core_setListed _ x _
    | split

theorem Event.countLink_keeps (hc : CallClosed P) (o : Nat) (f : Nat → Nat) (e : Event) (h : P e.net) :
    P (Event.countLink o f e).net := by
  unfold Event.countLink
  try dsimp only
  repeat' first
    | with_reducible assumption
    | with_reducible apply Event.setOutages_keeps (P := P)
    | split

theorem Event.clearOverdue_keeps (c : Call) (e : Event) (h : P e.net) : P (Event.clearOverdue c e).net := by
  unfold Event.clearOverdue
  try dsimp only
  repeat' first
    | with_reducible assumption
    | with_reducible apply Event.report_keeps (P := P)
    | split

theorem Event.link_keeps (hc : CallClosed P) (o : Nat) (isNew : Bool) (n : Nat) (e : Event) (h : P e.net) :
    P (Event.link o isNew n e).net := by
  unfold Event.link
  try dsimp only
  repeat' first
    | with_reducible assumption
    | with_reducible apply Event.call_keeps (P := P)
    | with_reducible apply Event.noGasCount_keeps (P := P)
    | with_reducible apply Event.countLink_keeps (P := P)
    | with_reducible apply Event.clearOverdue_keeps (P := P)
    | split

theorem Event.links_keeps (hc : CallClosed P) (o : Nat) (l : List Nat) (e : Event) (h : P e.net) :
    P (Event.links o l e).net := by
  induction l generalizing e with
  | nil => exact h
  | cons x t ih =>
    unfold Event.links
    apply ih
    repeat' first
      | with_reducible assumption
      | with_reducible apply Event.link_keeps (P := P)
      | split

theorem Event.linkSection_keeps (hc : CallClosed P) (o k : Nat) (e : Event) (h : P e.net) :
    P (Event.linkSection o k e).net := by
  unfold Event.linkSection
  try dsimp only
  repeat' first
    | with_reducible assumption
    | with_reducible apply Event.links_keeps (P := P)
    | with_reducible apply Event.outage_keeps (P := P)
    | split

theorem Event.unlink_keeps (hc : CallClosed P) (o : Nat) (n : Nat) (e : Event) (h : P e.net) :
    P (Event.unlink o n e).net := by
  unfold Event.unlink
  try dsimp only
  repeat' first
    | with_reducible assumption
    | with_reducible apply Event.call_keeps (P := P)
    | with_reducible apply Event.expireIfDue_keeps (P := P)
    | with_reducible apply Event.noGasCount_keeps (P := P)
    | with_reducible apply Event.countLink_keeps (P := P)
    | split

theorem Event.unlinks_keeps (hc : CallClosed P) (o : Nat) (l : List Nat) (e : Event) (h : P e.net) :
    P (Event.unlinks o l e).net := by
  induction l generalizing e with
  | nil => exact h
  | cons x t ih =>
    unfold Event.unlinks
    apply ih
    repeat' first
      | with_reducible assumption
      | with_reducible apply Event.unlink_keeps (P := P)
      | split

theorem Event.unlinkSection_keeps (hc : CallClosed P) (o k : Nat) (e : Event) (h : P e.net) :
    P (Event.unlinkSection o k e).net := by
  unfold Event.unlinkSection
  try dsimp only
  repeat' first
    | with_reducible assumption
    | with_reducible apply Event.unlinks_keeps (P := P)
    | with_reducible apply Event.outage_keeps (P := P)
    | split

theorem Event.dropCall_keeps (hc : CallClosed P) (n : Nat) (e : Event) (h : P e.net) : P (Event.dropCall n e).net := by
  unfold Event.dropCall
  try dsimp only
  repeat' first
    | with_reducible assumption
    | with_reducible apply Event.setCalls_keeps (P := P)
    | split

theorem Event.freeCall_keeps (hc : CallClosed P) (how : CallEnd) (byRequest : Bool) (n : Nat) (e : Event)
    (h : P e.net) :
    P (Event.freeCall how byRequest n e).net := by
  have hplan := hc.plan
  unfold Event.freeCall
  try dsimp only
  repeat' first
    | with_reducible assumption
    | with_reducible apply Event.markFreed_keeps (P := P)
    | with_reducible apply Event.forgetCall_keeps (P := P)
    | with_reducible apply Event.odourLeaves_keeps (P := P)
    | with_reducible apply Event.noGasCount_keeps (P := P)
    | with_reducible apply Event.countLink_keeps (P := P)
    | with_reducible apply Event.clearOverdue_keeps (P := P)
    | with_reducible apply Event.dropCall_keeps (P := P)
    | with_reducible apply Event.outage_keeps (P := P)
    | split

theorem Event.completeCalls_keeps (hc : CallClosed P) (l : List Nat) (e : Event) (h : P e.net) :
    P (Event.completeCalls l e).net := by
  induction l generalizing e with
  | nil => exact h
  | cons x t ih =>
    unfold Event.completeCalls
    apply ih
    repeat' first
      | with_reducible assumption
      | with_reducible apply Event.freeCall_keeps (P := P)
      | split

theorem Event.enterCall_keeps (hc : CallClosed P) (c : Call) (e : Event) (h : P e.net) :
    P (Event.enterCall c e).net := by
  unfold Event.enterCall
  try dsimp only
  repeat' first
    | with_reducible assumption
    | with_reducible apply Event.odourJoins_keeps (P := P)
    | with_reducible apply Event.noGasCount_keeps (P := P)
    | with_reducible apply Event.link_keeps (P := P)
    | split

theorem Event.newCall_keeps (hc : CallClosed P) (idx : Nat) (c : Call) (e : Event) (h : P e.net) :
    P (Event.newCall idx c e).net := by
  unfold Event.newCall
  try dsimp only
  repeat' first
    | with_reducible assumption
    | with_reducible apply Event.markCall_keeps (P := P)
    | with_reducible apply Event.expireIfDue_keeps (P := P)
    | with_reducible apply Event.enterCall_keeps (P := P)
    | with_reducible apply Event.setNewCall_keeps (P := P)
    | split

theorem Event.regrade_keeps (hc : CallClosed P) (n g : Nat) (c : Call) (e : Event) (h : P e.net) :
    P (Event.regrade n g c e).net := by
  unfold Event.regrade
  try dsimp only
  repeat' first
    | with_reducible assumption
    | with_reducible apply Event.call_keeps (P := P)
    | with_reducible apply Event.upgrade_keeps (P := P)
    | split

/-! ## Pressure Supervisor -/

theorem Event.relistOne_keeps (hc : PointClosed P) (n : Nat) (k : CondKind) (e : Event) (h : P e.net) :
    P (Event.relistOne n k e).net := by
  unfold Event.relistOne
  try dsimp only
  repeat' first
    | with_reducible assumption
    | with_reducible apply Event.signal_keeps (P := P)
    | with_reducible apply Event.point_keeps (P := P)
    | exact fun _ => rfl
    | exact fun x => Point.core_setListed _ x _
    | split

theorem Event.relistAll_keeps (hc : PointClosed P) (n : Nat) (l : List CondKind) (e : Event) (h : P e.net) :
    P (Event.relistAll n l e).net := by
  induction l generalizing e with
  | nil => exact h
  | cons x t ih =>
    unfold Event.relistAll
    apply ih
    repeat' first
      | with_reducible assumption
      | with_reducible apply Event.relistOne_keeps (P := P)
      | split

theorem Event.relist_keeps (hc : PointClosed P) (n : Nat) (e : Event) (h : P e.net) : P (Event.relist n e).net := by
  unfold Event.relist
  try dsimp only
  repeat' first
    | with_reducible assumption
    | with_reducible apply Event.relistAll_keeps (P := P)
    | split

theorem Event.suppressPoint_keeps (hc : PointClosed P) (b : Bool) (n : Nat) (e : Event) (h : P e.net) :
    P (Event.suppressPoint b n e).net := by
  have hcall := hc.call
  unfold Event.suppressPoint
  try dsimp only
  repeat' first
    | with_reducible assumption
    | with_reducible apply Event.fallOnset_keeps (P := P)
    | with_reducible apply Event.point_keeps (P := P)
    | with_reducible apply Event.relist_keeps (P := P)
    | exact fun _ => rfl
    | exact fun x => Point.core_setListed _ x _
    | split

theorem Event.suppressPoints_keeps (hc : PointClosed P) (b : Bool) (l : List Nat) (e : Event)
    (h : P e.net) :
    P (Event.suppressPoints b l e).net := by
  induction l generalizing e with
  | nil => exact h
  | cons x t ih =>
    unfold Event.suppressPoints
    apply ih
    repeat' first
      | with_reducible assumption
      | with_reducible apply Event.suppressPoint_keeps (P := P)
      | split

theorem Event.suppress_keeps (hc : PointClosed P) (sect : Nat) (b : Bool) (e : Event) (h : P e.net) :
    P (Event.suppress sect b e).net := by
  unfold Event.suppress
  try dsimp only
  repeat' first
    | with_reducible assumption
    | with_reducible apply Event.suppressPoints_keeps (P := P)
    | split

theorem Event.suppressAll_keeps (hc : PointClosed P) (b : Bool) (l : List Nat) (e : Event) (h : P e.net) :
    P (Event.suppressAll b l e).net := Event.suppressPoints_keeps hc b _ e h

/-! ## Outage Table and samples -/

theorem Event.outage_keeps (hc : CallClosed P) (n : Nat) (f : Outage → Outage) (e : Event) (h : P e.net) :
    P (Event.outage n f e).net := by
  unfold Event.outage
  try dsimp only
  repeat' first
    | with_reducible assumption
    | with_reducible apply Event.markOutage_keeps (P := P)
    | with_reducible apply Event.setOutages_keeps (P := P)
    | split

theorem Event.outageQuietly_keeps (hc : CallClosed P) (n : Nat) (f : Outage → Outage) (e : Event) (h : P e.net) :
    P (Event.outageQuietly n f e).net := by
  unfold Event.outageQuietly
  try dsimp only
  repeat' first
    | with_reducible assumption
    | with_reducible apply Event.setOutages_keeps (P := P)
    | split

theorem Event.setUnrecorded_keeps (hc : CallClosed P) (k : Nat) (b : Bool) (e : Event) (h : P e.net) :
    P (Event.setUnrecorded k b e).net := by
  unfold Event.setUnrecorded
  try dsimp only
  repeat' first
    | with_reducible assumption
    | with_reducible apply Event.signal_keeps (P := P)
    | with_reducible apply Event.sectFields_keeps (P := P)
    | exact fun _ => rfl
    | exact fun x => Point.core_setListed _ x _
    | split

theorem Event.stopAwaiting_keeps (hc : CallClosed P) (k : Nat) (e : Event) (h : P e.net) :
    P (Event.stopAwaiting k e).net := by
  unfold Event.stopAwaiting
  try dsimp only
  repeat' first
    | with_reducible assumption
    | with_reducible apply Event.sectFields_keeps (P := P)
    | with_reducible apply Event.setUnrecorded_keeps (P := P)
    | exact fun _ => rfl
    | exact fun x => Point.core_setListed _ x _
    | split

theorem Event.startAwaiting_keeps (hc : CallClosed P) (k : Nat) (e : Event) (h : P e.net) :
    P (Event.startAwaiting k e).net := by
  unfold Event.startAwaiting
  try dsimp only
  repeat' first
    | with_reducible assumption
    | with_reducible apply Event.sectFields_keeps (P := P)
    | exact fun _ => rfl
    | exact fun x => Point.core_setListed _ x _
    | split

theorem Event.join_keeps (hc : PointClosed P) (n k : Nat) (e : Event) (h : P e.net) : P (Event.join n k e).net := by
  have hcall := hc.call
  unfold Event.join
  try dsimp only
  repeat' first
    | with_reducible assumption
    | with_reducible apply Event.linkSection_keeps (P := P)
    | with_reducible apply Event.suppress_keeps (P := P)
    | with_reducible apply Event.outage_keeps (P := P)
    | with_reducible apply Event.stopAwaiting_keeps (P := P)
    | split

theorem Event.leave_keeps (hc : PointClosed P) (n k : Nat) (e : Event) (h : P e.net) : P (Event.leave n k e).net := by
  have hcall := hc.call
  unfold Event.leave
  try dsimp only
  repeat' first
    | with_reducible assumption
    | with_reducible apply Event.unlinkSection_keeps (P := P)
    | with_reducible apply Event.suppress_keeps (P := P)
    | with_reducible apply Event.outage_keeps (P := P)
    | with_reducible apply Event.startAwaiting_keeps (P := P)
    | split

theorem Event.joins_keeps (hc : PointClosed P) (n : Nat) (l : List Nat) (e : Event) (h : P e.net) :
    P (Event.joins n l e).net := by
  induction l generalizing e with
  | nil => exact h
  | cons x t ih =>
    unfold Event.joins
    apply ih
    repeat' first
      | with_reducible assumption
      | with_reducible apply Event.join_keeps (P := P)
      | split

theorem Event.leaves_keeps (hc : PointClosed P) (n : Nat) (l : List Nat) (e : Event) (h : P e.net) :
    P (Event.leaves n l e).net := by
  induction l generalizing e with
  | nil => exact h
  | cons x t ih =>
    unfold Event.leaves
    apply ih
    repeat' first
      | with_reducible assumption
      | with_reducible apply Event.leave_keeps (P := P)
      | split

theorem Event.ruleDeclared_keeps (hc : PointClosed P) (n : Nat) (e : Event) (h : P e.net) :
    P (Event.ruleDeclared n e).net := by
  have hcall := hc.call
  unfold Event.ruleDeclared
  try dsimp only
  repeat' first
    | with_reducible assumption
    | with_reducible apply Event.suppressAll_keeps (P := P)
    | with_reducible apply Event.outage_keeps (P := P)
    | split

theorem Event.ruleActive_keeps (hc : CallClosed P) (n : Nat) (e : Event) (h : P e.net) :
    P (Event.ruleActive n e).net := by
  unfold Event.ruleActive
  try dsimp only
  repeat' first
    | with_reducible assumption
    | with_reducible apply Event.outage_keeps (P := P)
    | split

theorem Event.ruleRecharging_keeps (hc : CallClosed P) (n : Nat) (e : Event) (h : P e.net) :
    P (Event.ruleRecharging n e).net := by
  unfold Event.ruleRecharging
  try dsimp only
  repeat' first
    | with_reducible assumption
    | with_reducible apply Event.outage_keeps (P := P)
    | split

theorem Event.setRelapse_keeps (hc : PointClosed P) (n : Nat) (b : Bool) (e : Event) (h : P e.net) :
    P (Event.setRelapse n b e).net := by
  have hcall := hc.call
  unfold Event.setRelapse
  try dsimp only
  repeat' first
    | with_reducible assumption
    | with_reducible apply Event.signal_keeps (P := P)
    | with_reducible apply Event.outageQuietly_keeps (P := P)
    | with_reducible apply Event.relapse_keeps (P := P)
    | split

theorem Event.relapse_keeps (hc : PointClosed P) (n : Nat) (e : Event) (h : P e.net) : P (Event.relapse n e).net := by
  have hcall := hc.call
  unfold Event.relapse
  try dsimp only
  repeat' first
    | with_reducible assumption
    | with_reducible apply Event.suppressAll_keeps (P := P)
    | with_reducible apply Event.outage_keeps (P := P)
    | with_reducible apply Event.setRelapse_keeps (P := P)
    | split

theorem Event.ruleRelighting_keeps (hc : PointClosed P) (n : Nat) (e : Event) (h : P e.net) :
    P (Event.ruleRelighting n e).net := by
  unfold Event.ruleRelighting
  try dsimp only
  repeat' first
    | with_reducible assumption
    | with_reducible apply Event.relapse_keeps (P := P)
    | split

theorem Event.createOutage_keeps (hc : OutageClosed P) (idx : Nat) (cause : Cause) (st : OutageState)
    (plan : Option Nat) (sections : List Nat) (e : Event) (h : P e.net) :
    P (Event.createOutage idx cause st plan sections e).net := by
  have hpoint := hc.point
  unfold Event.createOutage
  try dsimp only
  repeat' first
    | with_reducible assumption
    | with_reducible apply Event.markOutage_keeps (P := P)
    | with_reducible apply Event.joins_keeps (P := P)
    | with_reducible apply Event.setNewOutage_keeps (P := P)
    | split

theorem Event.gatherGroups_keeps (hc : OutageClosed P) (l : List (List Nat)) (e : Event) (h : P e.net) :
    P (Event.gatherGroups l e).net := by
  induction l generalizing e with
  | nil => exact h
  | cons x t ih =>
    unfold Event.gatherGroups
    repeat' first
      | with_reducible assumption
      | with_reducible apply ih
      | with_reducible apply Event.createOutage_keeps (P := P)
      | split

theorem Event.raiseUnrecorded_keeps (hc : CallClosed P) (l : List Nat) (e : Event) (h : P e.net) :
    P (Event.raiseUnrecorded l e).net := by
  induction l generalizing e with
  | nil => exact h
  | cons x t ih =>
    unfold Event.raiseUnrecorded
    apply ih
    repeat' first
      | with_reducible assumption
      | with_reducible apply Event.setUnrecorded_keeps (P := P)
      | split

theorem Event.gather_keeps (hc : OutageClosed P) (e : Event) (h : P e.net) : P (Event.gather e).net := by
  have hcall := hc.call
  unfold Event.gather
  try dsimp only
  repeat' first
    | with_reducible assumption
    | with_reducible apply Event.gatherGroups_keeps (P := P)
    | with_reducible apply Event.raiseUnrecorded_keeps (P := P)
    | split

theorem Event.dropOutage_keeps (hc : CallClosed P) (n : Nat) (e : Event) (h : P e.net) :
    P (Event.dropOutage n e).net := by
  unfold Event.dropOutage
  try dsimp only
  repeat' first
    | with_reducible assumption
    | with_reducible apply Event.setOutages_keeps (P := P)
    | split

theorem Event.unlinkOutage_keeps (hc : CallClosed P) (o : Outage) (e : Event) (h : P e.net) :
    P (Event.unlinkOutage o e).net := by
  have hplan := hc.plan
  unfold Event.unlinkOutage
  try dsimp only
  repeat' first
    | with_reducible assumption
    | with_reducible apply Event.plan_keeps (P := P)
    | with_reducible apply Event.unlinkPlan_keeps (P := P)
    | with_reducible apply Event.outageQuietly_keeps (P := P)
    | split

theorem Event.complete_keeps (hc : PointClosed P) (n : Nat) (e : Event) (h : P e.net) : P (Event.complete n e).net := by
  have hcall := hc.call
  unfold Event.complete
  try dsimp only
  repeat' first
    | with_reducible assumption
    | with_reducible apply Event.markClosed_keeps (P := P)
    | with_reducible apply Event.completeCalls_keeps (P := P)
    | with_reducible apply Event.outage_keeps (P := P)
    | with_reducible apply Event.leaves_keeps (P := P)
    | with_reducible apply Event.setRelapse_keeps (P := P)
    | with_reducible apply Event.dropOutage_keeps (P := P)
    | with_reducible apply Event.unlinkOutage_keeps (P := P)
    | split

theorem Event.abandon_keeps (hc : PointClosed P) (byTrim : Bool) (n : Nat) (e : Event) (h : P e.net) :
    P (Event.abandon byTrim n e).net := by
  have hcall := hc.call
  unfold Event.abandon
  try dsimp only
  repeat' first
    | with_reducible assumption
    | with_reducible apply Event.markClosed_keeps (P := P)
    | with_reducible apply Event.leaves_keeps (P := P)
    | with_reducible apply Event.setRelapse_keeps (P := P)
    | with_reducible apply Event.dropOutage_keeps (P := P)
    | with_reducible apply Event.unlinkOutage_keeps (P := P)
    | split

theorem Event.ruleConfirmed_keeps (hc : PointClosed P) (n : Nat) (e : Event) (h : P e.net) :
    P (Event.ruleConfirmed n e).net := by
  have hcall := hc.call
  unfold Event.ruleConfirmed
  try dsimp only
  repeat' first
    | with_reducible assumption
    | with_reducible apply Event.suppressAll_keeps (P := P)
    | with_reducible apply Event.outage_keeps (P := P)
    | with_reducible apply Event.setRelapse_keeps (P := P)
    | with_reducible apply Event.complete_keeps (P := P)
    | split

theorem Event.ruleTrimmed_keeps (hc : PointClosed P) (n : Nat) (e : Event) (h : P e.net) :
    P (Event.ruleTrimmed n e).net := by
  have hcall := hc.call
  unfold Event.ruleTrimmed
  try dsimp only
  repeat' first
    | with_reducible assumption
    | with_reducible apply Event.ruleActive_keeps (P := P)
    | with_reducible apply Event.complete_keeps (P := P)
    | with_reducible apply Event.ruleConfirmed_keeps (P := P)
    | split

theorem Event.trim_keeps (hc : OutageClosed P) (n : Nat) (sections : List Nat) (e : Event) (h : P e.net) :
    P (Event.trim n sections e).net := by
  have hpoint := hc.point
  unfold Event.trim
  try dsimp only
  repeat' first
    | with_reducible assumption
    | with_reducible apply Event.leaves_keeps (P := P)
    | with_reducible apply Event.gather_keeps (P := P)
    | with_reducible apply Event.abandon_keeps (P := P)
    | with_reducible apply Event.ruleTrimmed_keeps (P := P)
    | split

theorem Event.rulePublished_keeps (hc : PointClosed P) (n : Nat) (e : Event) (h : P e.net) :
    P (Event.rulePublished n e).net := by
  have hcall := hc.call
  unfold Event.rulePublished
  try dsimp only
  repeat' first
    | with_reducible assumption
    | with_reducible apply Event.ruleDeclared_keeps (P := P)
    | with_reducible apply Event.ruleActive_keeps (P := P)
    | with_reducible apply Event.ruleRecharging_keeps (P := P)
    | with_reducible apply Event.ruleRelighting_keeps (P := P)
    | split

theorem Event.rulesPublished_keeps (hc : PointClosed P) (l : List Nat) (e : Event) (h : P e.net) :
    P (Event.rulesPublished l e).net := by
  induction l generalizing e with
  | nil => exact h
  | cons x t ih =>
    unfold Event.rulesPublished
    apply ih
    repeat' first
      | with_reducible assumption
      | with_reducible apply Event.rulePublished_keeps (P := P)
      | split

theorem Event.clearUnrecorded_keeps (hc : CallClosed P) (l : List Nat) (e : Event) (h : P e.net) :
    P (Event.clearUnrecorded l e).net := by
  induction l generalizing e with
  | nil => exact h
  | cons x t ih =>
    unfold Event.clearUnrecorded
    apply ih
    repeat' first
      | with_reducible assumption
      | with_reducible apply Event.setUnrecorded_keeps (P := P)
      | split

theorem Event.takePublication_keeps (hc : OutageClosed P) (cleared changed : List Nat) (e : Event) (h : P e.net) :
    P (Event.takePublication cleared changed e).net := by
  have hcall := hc.call
  have hpoint := hc.point
  unfold Event.takePublication
  try dsimp only
  repeat' first
    | with_reducible assumption
    | with_reducible apply Event.gather_keeps (P := P)
    | with_reducible apply Event.rulesPublished_keeps (P := P)
    | with_reducible apply Event.clearUnrecorded_keeps (P := P)
    | split

theorem Event.pointReport_keeps (hc : PointClosed P) (k : Nat) (entered leftLow : Bool) (e : Event) (h : P e.net) :
    P (Event.pointReport k entered leftLow e).net := by
  have hcall := hc.call
  unfold Event.pointReport
  try dsimp only
  repeat' first
    | with_reducible assumption
    | with_reducible apply Event.outageQuietly_keeps (P := P)
    | with_reducible apply Event.ruleActive_keeps (P := P)
    | with_reducible apply Event.relapse_keeps (P := P)
    | split

theorem Event.pointReports_keeps (hc : SampleClosed P) (n : Nat) (d : PointDef) (x y : Point) (onset : Bool)
    (e : Event) (h : P e.net) :
    P (Event.pointReports n d x y onset e).net := by
  have hsource := hc.source
  have hcall := hc.call
  have hpoint := hc.point
  unfold Event.pointReports
  try dsimp only
  repeat' first
    | with_reducible assumption
    | with_reducible apply Event.outlet_keeps (P := P)
    | with_reducible apply Event.fallOnset_keeps (P := P)
    | with_reducible apply Event.pointReport_keeps (P := P)
    | split

theorem Event.repoint_keeps (hc : SampleClosed P) (kinds : List CondKind) (n : Nat) (d : PointDef) (x y : Point) (e : Event) (h : P e.net) :
    P (Event.repoint kinds n d x y e).net := by
  have hpoint := hc.point
  unfold Event.repoint
  try dsimp only
  repeat' first
    | with_reducible assumption
    | with_reducible apply Event.pointAny_keeps (P := P)
    | with_reducible apply Event.relistAll_keeps (P := P)
    | with_reducible apply Event.pointReports_keeps (P := P)
    | split

theorem Event.sample_keeps (hc : SampleClosed P) (x : Sample) (e : Event) (h : P e.net) : P (Event.sample x e).net := by
  have hpoint := hc.point
  unfold Event.sample
  try dsimp only
  repeat' first
    | with_reducible assumption
    | with_reducible apply Event.point_keeps (P := P)
    | with_reducible apply Event.repoint_keeps (P := P)
    | exact fun _ => rfl
    | exact fun x => Point.core_setListed _ x _
    | split

theorem Event.stale_keeps (hc : SampleClosed P) (n : Nat) (e : Event) (h : P e.net) : P (Event.stale n e).net := by
  unfold Event.stale
  try dsimp only
  repeat' first
    | with_reducible assumption
    | with_reducible apply Event.repoint_keeps (P := P)
    | split

theorem Event.staleTick_keeps (hc : SampleClosed P) (n : Nat) (e : Event) (h : P e.net) :
    P (Event.staleTick n e).net := by
  unfold Event.staleTick
  try dsimp only
  repeat' first
    | with_reducible assumption
    | with_reducible apply Event.pointAny_keeps (P := P)
    | with_reducible apply Event.stale_keeps (P := P)
    | split

theorem Event.staleTicks_keeps (hc : SampleClosed P) (l : List Nat) (e : Event) (h : P e.net) :
    P (Event.staleTicks l e).net := by
  induction l generalizing e with
  | nil => exact h
  | cons x t ih =>
    unfold Event.staleTicks
    apply ih
    repeat' first
      | with_reducible assumption
      | with_reducible apply Event.staleTick_keeps (P := P)
      | split

theorem Event.staleIfDue_keeps (hc : SampleClosed P) (n : Nat) (e : Event) (h : P e.net) :
    P (Event.staleIfDue n e).net := by
  unfold Event.staleIfDue
  try dsimp only
  repeat' first
    | with_reducible assumption
    | with_reducible apply Event.stale_keeps (P := P)
    | split

theorem Event.holdTick_keeps (hc : PointClosed P) (n : Nat) (e : Event) (h : P e.net) : P (Event.holdTick n e).net := by
  have hcall := hc.call
  unfold Event.holdTick
  try dsimp only
  repeat' first
    | with_reducible assumption
    | with_reducible apply Event.outageQuietly_keeps (P := P)
    | with_reducible apply Event.ruleConfirmed_keeps (P := P)
    | split

theorem Event.holdTicks_keeps (hc : PointClosed P) (l : List Nat) (e : Event) (h : P e.net) :
    P (Event.holdTicks l e).net := by
  induction l generalizing e with
  | nil => exact h
  | cons x t ih =>
    unfold Event.holdTicks
    apply ih
    repeat' first
      | with_reducible assumption
      | with_reducible apply Event.holdTick_keeps (P := P)
      | split

theorem Event.gatherIfFreed_keeps (hc : OutageClosed P) (before : Nat) (e : Event) (h : P e.net) :
    P (Event.gatherIfFreed before e).net := by
  unfold Event.gatherIfFreed
  try dsimp only
  repeat' first
    | with_reducible assumption
    | with_reducible apply Event.gather_keeps (P := P)
    | split

theorem Event.outageTick_keeps (hc : OutageClosed P) (e : Event) (h : P e.net) : P (Event.outageTick e).net := by
  have hpoint := hc.point
  unfold Event.outageTick
  try dsimp only
  repeat' first
    | with_reducible assumption
    | with_reducible apply Event.holdTicks_keeps (P := P)
    | with_reducible apply Event.gatherIfFreed_keeps (P := P)
    | split

theorem Event.holdIfDue_keeps (hc : OutageClosed P) (n k : Nat) (e : Event) (h : P e.net) :
    P (Event.holdIfDue n k e).net := by
  have hcall := hc.call
  have hpoint := hc.point
  unfold Event.holdIfDue
  try dsimp only
  repeat' first
    | with_reducible assumption
    | with_reducible apply Event.outageQuietly_keeps (P := P)
    | with_reducible apply Event.ruleConfirmed_keeps (P := P)
    | with_reducible apply Event.gatherIfFreed_keeps (P := P)
    | split

theorem Event.confirmSection_keeps (hc : OutageClosed P) (n k : Nat) (e : Event) (h : P e.net) :
    P (Event.confirmSection n k e).net := by
  have hcall := hc.call
  have hpoint := hc.point
  unfold Event.confirmSection
  try dsimp only
  repeat' first
    | with_reducible assumption
    | with_reducible apply Event.outageQuietly_keeps (P := P)
    | with_reducible apply Event.ruleConfirmed_keeps (P := P)
    | with_reducible apply Event.gatherIfFreed_keeps (P := P)
    | split

theorem Event.countPremises_keeps (hc : OutageClosed P) (relit : Bool) (n k : Nat) (o : Outage) (e : Event)
    (h : P e.net) :
    P (Event.countPremises relit n k o e).net := by
  have hcall := hc.call
  have hpoint := hc.point
  unfold Event.countPremises
  try dsimp only
  repeat' first
    | with_reducible assumption
    | with_reducible apply Event.outage_keeps (P := P)
    | with_reducible apply Event.gather_keeps (P := P)
    | with_reducible apply Event.complete_keeps (P := P)
    | split

/-! ## Plan requests -/

theorem Event.claim_keeps (hc : ValveClosed P) (v : Nat) (c : Option Nat) (e : Event) (h : P e.net) :
    P (Event.claim v c e).net := by
  unfold Event.claim
  try dsimp only
  repeat' first
    | with_reducible assumption
    | with_reducible apply Event.setValves_keeps (P := P)
    | split

theorem Event.unclaim_keeps (hc : ValveClosed P) (l : List Nat) (e : Event) (h : P e.net) :
    P (Event.unclaim l e).net := by
  induction l generalizing e with
  | nil => exact h
  | cons x t ih =>
    unfold Event.unclaim
    apply ih
    repeat' first
      | with_reducible assumption
      | with_reducible apply Event.claim_keeps (P := P)
      | split

theorem Event.editPlan_keeps (hc : PlanClosed P) (slot : Nat) (x : Plan) (valves : List Nat) (e : Event) (h : P e.net) :
    P (Event.editPlan slot x valves e).net := by
  unfold Event.editPlan
  try dsimp only
  repeat' first
    | with_reducible assumption
    | with_reducible apply Event.plan_keeps (P := P)
    | with_reducible apply Event.planQuietly_keeps (P := P)
    | with_reducible apply Event.assessed_keeps (P := P)
    | split

theorem Event.abortPlan_keeps (hc : ValveClosed P) (slot : Nat) (x : Plan) (e : Event) (h : P e.net) :
    P (Event.abortPlan slot x e).net := by
  have hplan := hc.plan
  unfold Event.abortPlan
  try dsimp only
  repeat' first
    | with_reducible assumption
    | with_reducible apply Event.plan_keeps (P := P)
    | with_reducible apply Event.settleIfAll_keeps (P := P)
    | with_reducible apply Event.aborts_keeps (P := P)
    | split

theorem Event.orderPending_keeps (hc : ValveClosed P) (dir : Direction) (l : List Nat) (e : Event) (h : P e.net) :
    P (Event.orderPending dir l e).net := by
  induction l generalizing e with
  | nil => exact h
  | cons x t ih =>
    unfold Event.orderPending
    apply ih
    repeat' first
      | with_reducible assumption
      | with_reducible apply Event.order_keeps (P := P)
      | split

theorem Event.setOut_keeps (hc : ValveClosed P) (slot : Nat) (x : Plan) (dir : Direction) (e : Event) (h : P e.net) :
    P (Event.setOut slot x dir e).net := by
  have hplan := hc.plan
  unfold Event.setOut
  try dsimp only
  repeat' first
    | with_reducible assumption
    | with_reducible apply Event.plan_keeps (P := P)
    | with_reducible apply Event.settleIfAll_keeps (P := P)
    | with_reducible apply Event.orderPending_keeps (P := P)
    | split

theorem Event.releaseOutage_keeps (hc : OutageClosed P) (x : Plan) (e : Event) (h : P e.net) :
    P (Event.releaseOutage x e).net := by
  have hcall := hc.call
  have hpoint := hc.point
  unfold Event.releaseOutage
  try dsimp only
  repeat' first
    | with_reducible assumption
    | with_reducible apply Event.outage_keeps (P := P)
    | with_reducible apply Event.outageQuietly_keeps (P := P)
    | with_reducible apply Event.gather_keeps (P := P)
    | with_reducible apply Event.abandon_keeps (P := P)
    | split

theorem Event.releasePlan_keeps (hc : UserClosed P) (slot : Nat) (x : Plan) (e : Event) (h : P e.net) :
    P (Event.releasePlan slot x e).net := by
  have hplan := hc.plan
  have hvalve := hc.valve
  have houtage := hc.outage
  unfold Event.releasePlan
  try dsimp only
  repeat' first
    | with_reducible assumption
    | with_reducible apply Event.markReleased_keeps (P := P)
    | with_reducible apply Event.unclaim_keeps (P := P)
    | with_reducible apply Event.releaseOutage_keeps (P := P)
    | with_reducible apply Event.setPlans_keeps (P := P)
    | split

theorem Event.takeOver_keeps (hc : PlanClosed P) (slot : Nat) (p : PortId) (x : Plan) (e : Event) (h : P e.net) :
    P (Event.takeOver slot p x e).net := by
  unfold Event.takeOver
  try dsimp only
  repeat' first
    | with_reducible assumption
    | with_reducible apply Event.markPlan_keeps (P := P)
    | with_reducible apply Event.setPlans_keeps (P := P)
    | split

theorem Event.assessed_keeps (hc : PlanClosed P) (slot : Nat) (r : Consequence) (e : Event) (h : P e.net) :
    P (Event.assessed slot r e).net := by
  unfold Event.assessed
  try dsimp only
  repeat' first
    | with_reducible assumption
    | with_reducible apply Event.plan_keeps (P := P)
    | split

theorem Event.checkEnded_keeps (hc : PlanClosed P) (slot : Nat) (e : Event) (h : P e.net) :
    P (Event.checkEnded slot e).net := by
  unfold Event.checkEnded
  try dsimp only
  repeat' first
    | with_reducible assumption
    | with_reducible apply Event.plan_keeps (P := P)
    | with_reducible apply Event.assessed_keeps (P := P)
    | split

theorem Event.recheck_keeps (hc : NetClosed P) (slot : Nat) (x : Plan) (e : Event) (h : P e.net) :
    P (Event.recheck slot x e).net := by
  have hplan := hc.plan
  unfold Event.recheck
  try dsimp only
  repeat' first
    | with_reducible assumption
    | with_reducible apply Event.plan_keeps (P := P)
    | with_reducible apply Event.planQuietly_keeps (P := P)
    | with_reducible apply Event.checkEnded_keeps (P := P)
    | with_reducible apply Event.setQueued_keeps (P := P)
    | split

theorem Event.checkPassed_keeps (hc : UserClosed P) (slot : Nat) (x : Plan) (r : Consequence) (e : Event)
    (h : P e.net) :
    P (Event.checkPassed slot x r e).net := by
  have hplan := hc.plan
  have hvalve := hc.valve
  have hcall := hc.call
  have houtage := hc.outage
  unfold Event.checkPassed
  try dsimp only
  repeat' first
    | with_reducible assumption
    | with_reducible apply Event.plan_keeps (P := P)
    | with_reducible apply Event.settleIfAll_keeps (P := P)
    | with_reducible apply Event.orders_keeps (P := P)
    | with_reducible apply Event.outage_keeps (P := P)
    | with_reducible apply Event.trim_keeps (P := P)
    | split

theorem Event.checkFailed_keeps (hc : PlanClosed P) (slot : Nat) (reason : Reason) (r : Consequence) (e : Event)
    (h : P e.net) :
    P (Event.checkFailed slot reason r e).net := by
  unfold Event.checkFailed
  try dsimp only
  repeat' first
    | with_reducible assumption
    | with_reducible apply Event.plan_keeps (P := P)
    | with_reducible apply Event.assessed_keeps (P := P)
    | split

theorem Event.judgeCheck_keeps (hc : UserClosed P) (slot : Nat) (x : Plan) (r : Consequence) (e : Event) (h : P e.net) :
    P (Event.judgeCheck slot x r e).net := by
  have hplan := hc.plan
  unfold Event.judgeCheck
  try dsimp only
  repeat' first
    | with_reducible assumption
    | with_reducible apply Event.checkPassed_keeps (P := P)
    | with_reducible apply Event.checkFailed_keeps (P := P)
    | split

theorem Event.planResult_keeps (hc : NetClosed P) (slot : Nat) (r : Consequence) (completion : Word) (e : Event)
    (h : P e.net) :
    P (Event.planResult slot r completion e).net := by
  have hplan := hc.plan
  have huser := hc.user
  unfold Event.planResult
  try dsimp only
  repeat' first
    | with_reducible assumption
    | with_reducible apply Event.assessed_keeps (P := P)
    | with_reducible apply Event.recheck_keeps (P := P)
    | with_reducible apply Event.judgeCheck_keeps (P := P)
    | split

/-! ## Completions -/

theorem Event.handOver_keeps (hc : NetClosed P) (r : Consequence) (completion : Word) (who : Requester) (e : Event)
    (h : P e.net) :
    P (Event.handOver r completion who e).net := by
  have hplan := hc.plan
  unfold Event.handOver
  try dsimp only
  repeat' first
    | with_reducible assumption
    | with_reducible apply Event.post_keeps (P := P)
    | with_reducible apply Event.plan_keeps (P := P)
    | with_reducible apply Event.planResult_keeps (P := P)
    | split

/-! ## Ticks -/

theorem Event.limitReports_keeps (hc : ValveClosed P) (l : List Nat) (e : Event) (h : P e.net) :
    P (Event.limitReports l e).net := by
  induction l generalizing e with
  | nil => exact h
  | cons x t ih =>
    unfold Event.limitReports
    apply ih
    repeat' first
      | with_reducible assumption
      | with_reducible apply Event.limitReport_keeps (P := P)
      | split

theorem Event.trips_keeps (hc : SourceClosed P) (l : List Nat) (e : Event) (h : P e.net) :
    P (Event.trips l e).net := by
  induction l generalizing e with
  | nil => exact h
  | cons x t ih =>
    unfold Event.trips
    apply ih
    repeat' first
      | with_reducible assumption
      | with_reducible apply Event.trip_keeps (P := P)
      | split

theorem Event.generalLine_keeps (n : Nat) (e : Event) (h : P e.net) : P (Event.generalLine n e).net := by
  unfold Event.generalLine
  try dsimp only
  repeat' first
    | with_reducible assumption
    | with_reducible apply Event.signal_keeps (P := P)
    | with_reducible apply Event.post_keeps (P := P)
    | split

theorem Event.generalLines_keeps (l : List Nat) (e : Event) (h : P e.net) :
    P (Event.generalLines l e).net := by
  induction l generalizing e with
  | nil => exact h
  | cons x t ih =>
    unfold Event.generalLines
    apply ih
    repeat' first
      | with_reducible assumption
      | with_reducible apply Event.generalLine_keeps (P := P)
      | split

theorem Event.lineUser_keeps (hc : UserClosed P) (due : List Nat) (b : Block) (e : Event) (h : P e.net) :
    P (Event.lineUser due b e).net := by
  have hsource := hc.source
  have hvalve := hc.valve
  unfold Event.lineUser
  try dsimp only
  repeat' first
    | with_reducible assumption
    | with_reducible apply Event.limitReports_keeps (P := P)
    | with_reducible apply Event.trips_keeps (P := P)
    | with_reducible apply Event.generalLines_keeps (P := P)
    | split

theorem Event.inOrder_keeps {f : Block → Event → Event} (hf : ∀ b e, P e.net → P (f b e).net) (l : List Block)
    (e : Event)
    (h : P e.net) : P (Event.inOrder f l e).net := by
  induction l generalizing e with
  | nil => exact h
  | cons b t ih => exact ih _ (hf b e h)

theorem Event.inAnyOrder_keeps {f : Block → Event → Event} (hf : ∀ b e, P e.net → P (f b e).net) (bs : List Block)
    (e : Event) (h : P e.net) : P (Event.inAnyOrder bs f e).net :=
  Event.inOrder_keeps hf _ { e with choices := (merge (bs.map (fun b => (b, b))) e.choices).2 } h

theorem Event.lineChanges_keeps (hc : NetClosed P) (due : List Nat) (e : Event) (h : P e.net) :
    P (Event.lineChanges due e).net :=
  Event.inAnyOrder_keeps (fun b e1 h1 => Event.lineUser_keeps hc.user due b e1 h1) _ _ (Event.setLines_keeps hc e e.net _ h)

theorem Event.scan_keeps (hc : NetClosed P) (pins : BitVec 64) (e : Event) (h : P e.net) :
    P (Event.scan pins e).net := by
  unfold Event.scan
  try dsimp only
  repeat' first
    | with_reducible assumption
    | with_reducible apply Event.lineChanges_keeps (P := P)
    | with_reducible apply Event.setLines_keeps (P := P)
    | split

theorem Event.lineChangeIfDue_keeps (hc : NetClosed P) (line : Nat) (e : Event) (h : P e.net) :
    P (Event.lineChangeIfDue line e).net := by
  unfold Event.lineChangeIfDue
  try dsimp only
  repeat' first
    | with_reducible assumption
    | with_reducible apply Event.lineChanges_keeps (P := P)
    | split

theorem Event.secondAt_keeps (hc : UserClosed P) (b : Block) (e : Event) (h : P e.net) :
    P (Event.secondAt b e).net := by
  have hvalve := hc.valve
  have hcall := hc.call
  have houtage := hc.outage
  have hsample := hc.sample
  unfold Event.secondAt
  try dsimp only
  repeat' first
    | with_reducible assumption
    | with_reducible apply Event.travelTicks_keeps (P := P)
    | with_reducible apply Event.callTicks_keeps (P := P)
    | with_reducible apply Event.staleTicks_keeps (P := P)
    | with_reducible apply Event.outageTick_keeps (P := P)
    | split

end Sys2Proof.Machine
end

