-- ==== Sys2Proof/Laws/Growth.lean ====
section
/-!
SUPPORT. What each shared operation over events can only add to: one lemma per operation. A property of an event that is
kept by a change of the network, by a report, a notice and a mark is kept by the operation. That the model, the clock and
the uptime stay as they were, and that no report and no notice is withdrawn, are instances.
-/

set_option linter.unusedTactic false
set_option linter.unreachableTactic false

namespace Sys2Proof.Machine

/-- Kept by every primitive step of an event. -/
structure EventClosed (R : Event → Prop) : Prop where
  setNet : ∀ e n, R e → R (e.setNet n)
  choices : ∀ e c, R e → R { e with choices := c }
  report : ∀ b k c i e, R e → R (Event.report b k c i e)
  post : ∀ b y l e, R e → R (Event.post b y l e)
  markPlan : ∀ k p r b l e, R e → R (Event.markPlan k p r b l e)
  markReleased : ∀ k p e, R e → R (Event.markReleased k p e)
  markOutage : ∀ n e, R e → R (Event.markOutage n e)
  markClosed : ∀ n k e, R e → R (Event.markClosed n k e)
  markCall : ∀ n e, R e → R (Event.markCall n e)
  markFreed : ∀ c d e, R e → R (Event.markFreed c d e)

variable {R : Event → Prop}

theorem EventClosed.signal (hc : EventClosed R) (b : Block) (a : Bool) (c : CondKind) (i : Nat) (e : Event) (h : R e) :
    R (Event.signal b a c i e) := hc.report b _ c i e h

/-! ## Walk Engine and Source Monitor -/

theorem Event.changed_grows (hc : EventClosed R) (e : Event) (h : R e) :
    R (Event.changed e) := by
  unfold Event.changed
  try dsimp only
  repeat' first
    | with_reducible assumption
    | with_reducible apply hc.setNet
    | split

theorem Event.source_grows (hc : EventClosed R) (k : Nat) (f : Source → Source) (e : Event) (h : R e) :
    R (Event.source k f e) := by
  unfold Event.source
  try dsimp only
  repeat' first
    | with_reducible assumption
    | with_reducible apply Event.changed_grows hc
    | with_reducible apply hc.setNet
    | split

theorem Event.trip_grows (hc : EventClosed R) (k : Nat) (active : Bool) (e : Event) (h : R e) :
    R (Event.trip k active e) := by
  unfold Event.trip
  try dsimp only
  repeat' first
    | with_reducible assumption
    | with_reducible apply Event.source_grows hc
    | with_reducible apply hc.signal
    | split

theorem Event.outlet_grows (hc : EventClosed R) (point : Nat) (low : Bool) (e : Event) (h : R e) :
    R (Event.outlet point low e) := by
  unfold Event.outlet
  try dsimp only
  repeat' first
    | with_reducible assumption
    | with_reducible apply Event.source_grows hc
    | split

/-! ## Plan Table -/

theorem Event.plan_grows (hc : EventClosed R) (slot : Nat) (reason : Reason) (pin : Bool) (f : Plan → Plan)
    (e : Event) (h : R e) :
    R (Event.plan slot reason pin f e) := by
  unfold Event.plan
  try dsimp only
  repeat' first
    | with_reducible assumption
    | with_reducible apply hc.setNet
    | with_reducible apply hc.markPlan
    | split

theorem Event.planQuietly_grows (hc : EventClosed R) (slot : Nat) (f : Plan → Plan) (e : Event) (h : R e) :
    R (Event.planQuietly slot f e) := by
  unfold Event.planQuietly
  try dsimp only
  repeat' first
    | with_reducible assumption
    | with_reducible apply hc.setNet
    | split

theorem Event.movingReport_grows (hc : EventClosed R) (slot : Nat) (p : Plan) (d : Direction)
    (moved : Option Position) (outcome : Option Ending) (e : Event) (h : R e) :
    R (Event.movingReport slot p d moved outcome e) := by
  unfold Event.movingReport
  try dsimp only
  repeat' first
    | with_reducible assumption
    | with_reducible apply Event.plan_grows hc
    | split

theorem Event.settledReport_grows (hc : EventClosed R) (slot : Nat) (d : Direction) (moved : Option Position)
    (e : Event) (h : R e) :
    R (Event.settledReport slot d moved e) := by
  unfold Event.settledReport
  try dsimp only
  repeat' first
    | with_reducible assumption
    | with_reducible apply Event.plan_grows hc
    | split

theorem Event.heldReport_grows (hc : EventClosed R) (slot : Nat) (p : Plan) (e : Event) (h : R e) :
    R (Event.heldReport slot p e) := by
  unfold Event.heldReport
  try dsimp only
  repeat' first
    | with_reducible assumption
    | with_reducible apply Event.plan_grows hc
    | split

theorem Event.planReport_grows (hc : EventClosed R) (slot : Nat) (moved : Option Position) (outcome : Option Ending)
    (e : Event) (h : R e) :
    R (Event.planReport slot moved outcome e) := by
  unfold Event.planReport
  try dsimp only
  repeat' first
    | with_reducible assumption
    | with_reducible apply Event.movingReport_grows hc
    | with_reducible apply Event.settledReport_grows hc
    | with_reducible apply Event.heldReport_grows hc
    | with_reducible apply Event.assessed_grows hc
    | split

theorem Event.settleIfAll_grows (hc : EventClosed R) (slot : Nat) (reason : Reason) (e : Event) (h : R e) :
    R (Event.settleIfAll slot reason e) := by
  unfold Event.settleIfAll
  try dsimp only
  repeat' first
    | with_reducible assumption
    | with_reducible apply Event.plan_grows hc
    | split

theorem Event.forgetCall_grows (hc : EventClosed R) (call : Nat) (e : Event) (h : R e) :
    R (Event.forgetCall call e) := by
  unfold Event.forgetCall
  try dsimp only
  repeat' first
    | with_reducible assumption
    | with_reducible apply hc.setNet
    | split

theorem Event.unlinkPlan_grows (hc : EventClosed R) (slot : Nat) (e : Event) (h : R e) :
    R (Event.unlinkPlan slot e) := by
  unfold Event.unlinkPlan
  try dsimp only
  repeat' first
    | with_reducible assumption
    | with_reducible apply Event.plan_grows hc
    | split

/-! ## Valve Controller -/

theorem Event.setStuck_grows (hc : EventClosed R) (v : Nat) (b : Bool) (e : Event) (h : R e) :
    R (Event.setStuck v b e) := by
  unfold Event.setStuck
  try dsimp only
  repeat' first
    | with_reducible assumption
    | with_reducible apply hc.setNet
    | with_reducible apply hc.signal
    | split

theorem Event.setUncommanded_grows (hc : EventClosed R) (v : Nat) (b : Bool) (e : Event) (h : R e) :
    R (Event.setUncommanded v b e) := by
  unfold Event.setUncommanded
  try dsimp only
  repeat' first
    | with_reducible assumption
    | with_reducible apply hc.setNet
    | with_reducible apply hc.signal
    | split

theorem Event.setConflict_grows (hc : EventClosed R) (v : Nat) (b : Bool) (e : Event) (h : R e) :
    R (Event.setConflict v b e) := by
  unfold Event.setConflict
  try dsimp only
  repeat' first
    | with_reducible assumption
    | with_reducible apply hc.setNet
    | with_reducible apply hc.signal
    | split

theorem Event.stuckFollows_grows (hc : EventClosed R) (v : Nat) (x : Position) (e : Event) (h : R e) :
    R (Event.stuckFollows v x e) := by
  unfold Event.stuckFollows
  try dsimp only
  repeat' first
    | with_reducible assumption
    | with_reducible apply Event.setStuck_grows hc
    | split

theorem Event.claimReport_grows (hc : EventClosed R) (claim : Option Nat) (moved : Option Position)
    (outcome : Option Ending) (e : Event) (h : R e) :
    R (Event.claimReport claim moved outcome e) := by
  unfold Event.claimReport
  try dsimp only
  repeat' first
    | with_reducible assumption
    | with_reducible apply Event.planReport_grows hc
    | split

theorem Event.moveValve_grows (hc : EventClosed R) (v : Nat) (pos : Position) (travel : Nat)
    (outcome : Option Ending) (e : Event) (h : R e) :
    R (Event.moveValve v pos travel outcome e) := by
  unfold Event.moveValve
  try dsimp only
  repeat' first
    | with_reducible assumption
    | with_reducible apply Event.changed_grows hc
    | with_reducible apply Event.stuckFollows_grows hc
    | with_reducible apply Event.claimReport_grows hc
    | with_reducible apply Event.claim_grows hc
    | with_reducible apply hc.setNet
    | with_reducible apply hc.post
    | split

theorem Event.orderManual_grows (hc : EventClosed R) (v : Nat) (x : Valve) (dir : Direction) (e : Event) (h : R e) :
    R (Event.orderManual v x dir e) := by
  unfold Event.orderManual
  try dsimp only
  repeat' first
    | with_reducible assumption
    | with_reducible apply Event.claimReport_grows hc
    | with_reducible apply Event.moveValve_grows hc
    | with_reducible apply Event.claim_grows hc
    | split

theorem Event.orderActuated_grows (hc : EventClosed R) (v : Nat) (x : Valve) (d : ValveDef) (dir : Direction)
    (e : Event) (h : R e) :
    R (Event.orderActuated v x d dir e) := by
  unfold Event.orderActuated
  try dsimp only
  repeat' first
    | with_reducible assumption
    | with_reducible apply Event.moveValve_grows hc
    | split

theorem Event.order_grows (hc : EventClosed R) (dir : Direction) (v : Nat) (e : Event) (h : R e) :
    R (Event.order dir v e) := by
  unfold Event.order
  try dsimp only
  repeat' first
    | with_reducible assumption
    | with_reducible apply Event.setUncommanded_grows hc
    | with_reducible apply Event.orderManual_grows hc
    | with_reducible apply Event.orderActuated_grows hc
    | split

theorem Event.orders_grows (hc : EventClosed R) (dir : Direction) (l : List Nat) (e : Event) (h : R e) :
    R (Event.orders dir l e) := by
  induction l generalizing e with
  | nil => exact h
  | cons x t ih =>
    unfold Event.orders
    apply ih
    repeat' first
      | with_reducible assumption
      | with_reducible apply Event.order_grows hc
      | split

theorem Event.abort_grows (hc : EventClosed R) (v : Nat) (e : Event) (h : R e) :
    R (Event.abort v e) := by
  unfold Event.abort
  try dsimp only
  repeat' first
    | with_reducible assumption
    | with_reducible apply Event.moveValve_grows hc
    | split

theorem Event.aborts_grows (hc : EventClosed R) (l : List Nat) (e : Event) (h : R e) :
    R (Event.aborts l e) := by
  induction l generalizing e with
  | nil => exact h
  | cons x t ih =>
    unfold Event.aborts
    apply ih
    repeat' first
      | with_reducible assumption
      | with_reducible apply Event.abort_grows hc
      | split

theorem Event.conflictReport_grows (hc : EventClosed R) (v : Nat) (x : Valve) (e : Event) (h : R e) :
    R (Event.conflictReport v x e) := by
  unfold Event.conflictReport
  try dsimp only
  repeat' first
    | with_reducible assumption
    | with_reducible apply Event.setConflict_grows hc
    | with_reducible apply Event.moveValve_grows hc
    | split

theorem Event.afterConflict_grows (hc : EventClosed R) (v : Nat) (x : Valve) (shown : Option Position) (e : Event)
    (h : R e) :
    R (Event.afterConflict v x shown e) := by
  unfold Event.afterConflict
  try dsimp only
  repeat' first
    | with_reducible assumption
    | with_reducible apply Event.setConflict_grows hc
    | with_reducible apply Event.moveValve_grows hc
    | split

theorem Event.restReport_grows (hc : EventClosed R) (v : Nat) (x : Valve) (shown : Option Position) (e : Event)
    (h : R e) :
    R (Event.restReport v x shown e) := by
  unfold Event.restReport
  try dsimp only
  repeat' first
    | with_reducible assumption
    | with_reducible apply Event.setUncommanded_grows hc
    | with_reducible apply Event.moveValve_grows hc
    | split

theorem Event.limitReport_grows (hc : EventClosed R) (v : Nat) (e : Event) (h : R e) :
    R (Event.limitReport v e) := by
  unfold Event.limitReport
  try dsimp only
  repeat' first
    | with_reducible assumption
    | with_reducible apply Event.moveValve_grows hc
    | with_reducible apply Event.conflictReport_grows hc
    | with_reducible apply Event.afterConflict_grows hc
    | with_reducible apply Event.restReport_grows hc
    | split

theorem Event.travelExpiry_grows (hc : EventClosed R) (v : Nat) (e : Event) (h : R e) :
    R (Event.travelExpiry v e) := by
  unfold Event.travelExpiry
  try dsimp only
  repeat' first
    | with_reducible assumption
    | with_reducible apply Event.moveValve_grows hc
    | split

theorem Event.travelTick_grows (hc : EventClosed R) (v : Nat) (e : Event) (h : R e) :
    R (Event.travelTick v e) := by
  unfold Event.travelTick
  try dsimp only
  repeat' first
    | with_reducible assumption
    | with_reducible apply Event.travelExpiry_grows hc
    | with_reducible apply hc.setNet
    | split

theorem Event.travelTicks_grows (hc : EventClosed R) (l : List Nat) (e : Event) (h : R e) :
    R (Event.travelTicks l e) := by
  induction l generalizing e with
  | nil => exact h
  | cons x t ih =>
    unfold Event.travelTicks
    apply ih
    repeat' first
      | with_reducible assumption
      | with_reducible apply Event.travelTick_grows hc
      | split

theorem Event.verify_grows (hc : EventClosed R) (v : Nat) (x : Position) (e : Event) (h : R e) :
    R (Event.verify v x e) := by
  unfold Event.verify
  try dsimp only
  repeat' first
    | with_reducible assumption
    | with_reducible apply Event.setStuck_grows hc
    | with_reducible apply Event.setUncommanded_grows hc
    | with_reducible apply Event.moveValve_grows hc
    | split

/-! ## Call Register -/

theorem Event.call_grows (hc : EventClosed R) (n : Nat) (f : Call → Call) (e : Event) (h : R e) :
    R (Event.call n f e) := by
  unfold Event.call
  try dsimp only
  repeat' first
    | with_reducible assumption
    | with_reducible apply hc.setNet
    | with_reducible apply hc.markCall
    | split

theorem Event.callQuietly_grows (hc : EventClosed R) (n : Nat) (f : Call → Call) (e : Event) (h : R e) :
    R (Event.callQuietly n f e) := by
  unfold Event.callQuietly
  try dsimp only
  repeat' first
    | with_reducible assumption
    | with_reducible apply hc.setNet
    | split

theorem Event.sectFields_grows (hc : EventClosed R) (k : Nat) (f : Sect → Sect) (e : Event) (h : R e) :
    R (Event.sectFields k f e) := by
  unfold Event.sectFields
  try dsimp only
  repeat' first
    | with_reducible assumption
    | with_reducible apply hc.setNet
    | split

theorem Event.expire_grows (hc : EventClosed R) (n : Nat) (stage : Stage) (e : Event) (h : R e) :
    R (Event.expire n stage e) := by
  unfold Event.expire
  try dsimp only
  repeat' first
    | with_reducible assumption
    | with_reducible apply Event.callQuietly_grows hc
    | with_reducible apply hc.report
    | with_reducible apply hc.post
    | split

theorem Event.realarmed_grows (hc : EventClosed R) (n : Nat) (stage : Stage) (e : Event) (h : R e) :
    R (Event.realarmed n stage e) := by
  unfold Event.realarmed
  try dsimp only
  repeat' first
    | with_reducible assumption
    | with_reducible apply Event.callQuietly_grows hc
    | with_reducible apply hc.report
    | with_reducible apply hc.post
    | split

theorem Event.expireIfDue_grows (hc : EventClosed R) (n : Nat) (e : Event) (h : R e) :
    R (Event.expireIfDue n e) := by
  unfold Event.expireIfDue
  try dsimp only
  repeat' first
    | with_reducible assumption
    | with_reducible apply Event.expire_grows hc
    | with_reducible apply Event.outage_grows hc
    | split

theorem Event.realarmIfDue_grows (hc : EventClosed R) (n : Nat) (e : Event) (h : R e) :
    R (Event.realarmIfDue n e) := by
  unfold Event.realarmIfDue
  try dsimp only
  repeat' first
    | with_reducible assumption
    | with_reducible apply Event.realarmed_grows hc
    | with_reducible apply Event.outage_grows hc
    | split

theorem Event.callTick_grows (hc : EventClosed R) (n : Nat) (e : Event) (h : R e) :
    R (Event.callTick n e) := by
  unfold Event.callTick
  try dsimp only
  repeat' first
    | with_reducible assumption
    | with_reducible apply Event.callQuietly_grows hc
    | with_reducible apply Event.expireIfDue_grows hc
    | with_reducible apply Event.realarmIfDue_grows hc
    | with_reducible apply Event.outage_grows hc
    | split

theorem Event.callTicks_grows (hc : EventClosed R) (l : List Nat) (e : Event) (h : R e) :
    R (Event.callTicks l e) := by
  induction l generalizing e with
  | nil => exact h
  | cons x t ih =>
    unfold Event.callTicks
    apply ih
    repeat' first
      | with_reducible assumption
      | with_reducible apply Event.callTick_grows hc
      | split

theorem Event.upgrade_grows (hc : EventClosed R) (g : Nat) (n : Nat) (e : Event) (h : R e) :
    R (Event.upgrade g n e) := by
  unfold Event.upgrade
  try dsimp only
  repeat' first
    | with_reducible assumption
    | with_reducible apply Event.call_grows hc
    | with_reducible apply Event.expireIfDue_grows hc
    | split

theorem Event.upgrades_grows (hc : EventClosed R) (g : Nat) (l : List Nat) (e : Event) (h : R e) :
    R (Event.upgrades g l e) := by
  induction l generalizing e with
  | nil => exact h
  | cons x t ih =>
    unfold Event.upgrades
    apply ih
    repeat' first
      | with_reducible assumption
      | with_reducible apply Event.upgrade_grows hc
      | split

theorem Event.fallOnset_grows (hc : EventClosed R) (k : Nat) (e : Event) (h : R e) :
    R (Event.fallOnset k e) := by
  unfold Event.fallOnset
  try dsimp only
  repeat' first
    | with_reducible assumption
    | with_reducible apply Event.upgrades_grows hc
    | split

theorem Event.setCluster_grows (hc : EventClosed R) (k : Nat) (b : Bool) (e : Event) (h : R e) :
    R (Event.setCluster k b e) := by
  unfold Event.setCluster
  try dsimp only
  repeat' first
    | with_reducible assumption
    | with_reducible apply Event.sectFields_grows hc
    | with_reducible apply hc.signal
    | split

theorem Event.setSuspected_grows (hc : EventClosed R) (k : Nat) (b : Bool) (e : Event) (h : R e) :
    R (Event.setSuspected k b e) := by
  unfold Event.setSuspected
  try dsimp only
  repeat' first
    | with_reducible assumption
    | with_reducible apply Event.sectFields_grows hc
    | with_reducible apply hc.signal
    | split

theorem Event.odourJoins_grows (hc : EventClosed R) (k n : Nat) (e : Event) (h : R e) :
    R (Event.odourJoins k n e) := by
  unfold Event.odourJoins
  try dsimp only
  repeat' first
    | with_reducible assumption
    | with_reducible apply Event.sectFields_grows hc
    | with_reducible apply Event.upgrade_grows hc
    | with_reducible apply Event.upgrades_grows hc
    | with_reducible apply Event.setCluster_grows hc
    | split

theorem Event.odourLeaves_grows (hc : EventClosed R) (k : Nat) (e : Event) (h : R e) :
    R (Event.odourLeaves k e) := by
  unfold Event.odourLeaves
  try dsimp only
  repeat' first
    | with_reducible assumption
    | with_reducible apply Event.sectFields_grows hc
    | with_reducible apply Event.setCluster_grows hc
    | split

theorem Event.noGasCount_grows (hc : EventClosed R) (k : Nat) (f : Nat → Nat) (e : Event) (h : R e) :
    R (Event.noGasCount k f e) := by
  unfold Event.noGasCount
  try dsimp only
  repeat' first
    | with_reducible assumption
    | with_reducible apply Event.sectFields_grows hc
    | with_reducible apply Event.setSuspected_grows hc
    | split

theorem Event.countLink_grows (hc : EventClosed R) (o : Nat) (f : Nat → Nat) (e : Event) (h : R e) :
    R (Event.countLink o f e) := by
  unfold Event.countLink
  try dsimp only
  repeat' first
    | with_reducible assumption
    | with_reducible apply hc.setNet
    | split

theorem Event.clearOverdue_grows (hc : EventClosed R) (c : Call) (e : Event) (h : R e) :
    R (Event.clearOverdue c e) := by
  unfold Event.clearOverdue
  try dsimp only
  repeat' first
    | with_reducible assumption
    | with_reducible apply hc.report
    | split

theorem Event.link_grows (hc : EventClosed R) (o : Nat) (isNew : Bool) (n : Nat) (e : Event) (h : R e) :
    R (Event.link o isNew n e) := by
  unfold Event.link
  try dsimp only
  repeat' first
    | with_reducible assumption
    | with_reducible apply Event.call_grows hc
    | with_reducible apply Event.noGasCount_grows hc
    | with_reducible apply Event.countLink_grows hc
    | with_reducible apply Event.clearOverdue_grows hc
    | split

theorem Event.links_grows (hc : EventClosed R) (o : Nat) (l : List Nat) (e : Event) (h : R e) :
    R (Event.links o l e) := by
  induction l generalizing e with
  | nil => exact h
  | cons x t ih =>
    unfold Event.links
    apply ih
    repeat' first
      | with_reducible assumption
      | with_reducible apply Event.link_grows hc
      | split

theorem Event.linkSection_grows (hc : EventClosed R) (o k : Nat) (e : Event) (h : R e) :
    R (Event.linkSection o k e) := by
  unfold Event.linkSection
  try dsimp only
  repeat' first
    | with_reducible assumption
    | with_reducible apply Event.links_grows hc
    | with_reducible apply Event.outage_grows hc
    | split

theorem Event.unlink_grows (hc : EventClosed R) (o : Nat) (n : Nat) (e : Event) (h : R e) :
    R (Event.unlink o n e) := by
  unfold Event.unlink
  try dsimp only
  repeat' first
    | with_reducible assumption
    | with_reducible apply Event.call_grows hc
    | with_reducible apply Event.expireIfDue_grows hc
    | with_reducible apply Event.noGasCount_grows hc
    | with_reducible apply Event.countLink_grows hc
    | split

theorem Event.unlinks_grows (hc : EventClosed R) (o : Nat) (l : List Nat) (e : Event) (h : R e) :
    R (Event.unlinks o l e) := by
  induction l generalizing e with
  | nil => exact h
  | cons x t ih =>
    unfold Event.unlinks
    apply ih
    repeat' first
      | with_reducible assumption
      | with_reducible apply Event.unlink_grows hc
      | split

theorem Event.unlinkSection_grows (hc : EventClosed R) (o k : Nat) (e : Event) (h : R e) :
    R (Event.unlinkSection o k e) := by
  unfold Event.unlinkSection
  try dsimp only
  repeat' first
    | with_reducible assumption
    | with_reducible apply Event.unlinks_grows hc
    | with_reducible apply Event.outage_grows hc
    | split

theorem Event.dropCall_grows (hc : EventClosed R) (n : Nat) (e : Event) (h : R e) :
    R (Event.dropCall n e) := by
  unfold Event.dropCall
  try dsimp only
  repeat' first
    | with_reducible assumption
    | with_reducible apply hc.setNet
    | split

theorem Event.freeCall_grows (hc : EventClosed R) (how : CallEnd) (byRequest : Bool) (n : Nat) (e : Event) (h : R e) :
    R (Event.freeCall how byRequest n e) := by
  unfold Event.freeCall
  try dsimp only
  repeat' first
    | with_reducible assumption
    | with_reducible apply Event.forgetCall_grows hc
    | with_reducible apply Event.odourLeaves_grows hc
    | with_reducible apply Event.noGasCount_grows hc
    | with_reducible apply Event.countLink_grows hc
    | with_reducible apply Event.clearOverdue_grows hc
    | with_reducible apply Event.dropCall_grows hc
    | with_reducible apply Event.outage_grows hc
    | with_reducible apply hc.markFreed
    | split

theorem Event.completeCalls_grows (hc : EventClosed R) (l : List Nat) (e : Event) (h : R e) :
    R (Event.completeCalls l e) := by
  induction l generalizing e with
  | nil => exact h
  | cons x t ih =>
    unfold Event.completeCalls
    apply ih
    repeat' first
      | with_reducible assumption
      | with_reducible apply Event.freeCall_grows hc
      | split

theorem Event.enterCall_grows (hc : EventClosed R) (c : Call) (e : Event) (h : R e) :
    R (Event.enterCall c e) := by
  unfold Event.enterCall
  try dsimp only
  repeat' first
    | with_reducible assumption
    | with_reducible apply Event.odourJoins_grows hc
    | with_reducible apply Event.noGasCount_grows hc
    | with_reducible apply Event.link_grows hc
    | split

theorem Event.newCall_grows (hc : EventClosed R) (idx : Nat) (c : Call) (e : Event) (h : R e) :
    R (Event.newCall idx c e) := by
  unfold Event.newCall
  try dsimp only
  repeat' first
    | with_reducible assumption
    | with_reducible apply Event.expireIfDue_grows hc
    | with_reducible apply Event.enterCall_grows hc
    | with_reducible apply hc.setNet
    | with_reducible apply hc.markCall
    | split

theorem Event.regrade_grows (hc : EventClosed R) (n g : Nat) (c : Call) (e : Event) (h : R e) :
    R (Event.regrade n g c e) := by
  unfold Event.regrade
  try dsimp only
  repeat' first
    | with_reducible assumption
    | with_reducible apply Event.call_grows hc
    | with_reducible apply Event.upgrade_grows hc
    | split

/-! ## Pressure Supervisor -/

theorem Event.point_grows (hc : EventClosed R) (n : Nat) (f : Point → Point) (e : Event) (h : R e) :
    R (Event.point n f e) := by
  unfold Event.point
  try dsimp only
  repeat' first
    | with_reducible assumption
    | with_reducible apply hc.setNet
    | split

theorem Event.relistOne_grows (hc : EventClosed R) (n : Nat) (k : CondKind) (e : Event) (h : R e) :
    R (Event.relistOne n k e) := by
  unfold Event.relistOne
  try dsimp only
  repeat' first
    | with_reducible assumption
    | with_reducible apply Event.point_grows hc
    | with_reducible apply hc.signal
    | split

theorem Event.relistAll_grows (hc : EventClosed R) (n : Nat) (l : List CondKind) (e : Event) (h : R e) :
    R (Event.relistAll n l e) := by
  induction l generalizing e with
  | nil => exact h
  | cons x t ih =>
    unfold Event.relistAll
    apply ih
    repeat' first
      | with_reducible assumption
      | with_reducible apply Event.relistOne_grows hc
      | split

theorem Event.relist_grows (hc : EventClosed R) (n : Nat) (e : Event) (h : R e) :
    R (Event.relist n e) := by
  unfold Event.relist
  try dsimp only
  repeat' first
    | with_reducible assumption
    | with_reducible apply Event.relistAll_grows hc
    | split

theorem Event.suppressPoint_grows (hc : EventClosed R) (b : Bool) (n : Nat) (e : Event) (h : R e) :
    R (Event.suppressPoint b n e) := by
  unfold Event.suppressPoint
  try dsimp only
  repeat' first
    | with_reducible assumption
    | with_reducible apply Event.fallOnset_grows hc
    | with_reducible apply Event.point_grows hc
    | with_reducible apply Event.relist_grows hc
    | split

theorem Event.suppressPoints_grows (hc : EventClosed R) (b : Bool) (l : List Nat) (e : Event) (h : R e) :
    R (Event.suppressPoints b l e) := by
  induction l generalizing e with
  | nil => exact h
  | cons x t ih =>
    unfold Event.suppressPoints
    apply ih
    repeat' first
      | with_reducible assumption
      | with_reducible apply Event.suppressPoint_grows hc
      | split

theorem Event.suppress_grows (hc : EventClosed R) (sect : Nat) (b : Bool) (e : Event) (h : R e) :
    R (Event.suppress sect b e) := by
  unfold Event.suppress
  try dsimp only
  repeat' first
    | with_reducible assumption
    | with_reducible apply Event.suppressPoints_grows hc
    | split

theorem Event.suppressAll_grows (hc : EventClosed R) (b : Bool) (l : List Nat) (e : Event) (h : R e) :
    R (Event.suppressAll b l e) := Event.suppressPoints_grows hc b _ e h

/-! ## Outage Table and samples -/

theorem Event.outage_grows (hc : EventClosed R) (n : Nat) (f : Outage → Outage) (e : Event) (h : R e) :
    R (Event.outage n f e) := by
  unfold Event.outage
  try dsimp only
  repeat' first
    | with_reducible assumption
    | with_reducible apply hc.setNet
    | with_reducible apply hc.markOutage
    | split

theorem Event.outageQuietly_grows (hc : EventClosed R) (n : Nat) (f : Outage → Outage) (e : Event) (h : R e) :
    R (Event.outageQuietly n f e) := by
  unfold Event.outageQuietly
  try dsimp only
  repeat' first
    | with_reducible assumption
    | with_reducible apply hc.setNet
    | split

theorem Event.setUnrecorded_grows (hc : EventClosed R) (k : Nat) (b : Bool) (e : Event) (h : R e) :
    R (Event.setUnrecorded k b e) := by
  unfold Event.setUnrecorded
  try dsimp only
  repeat' first
    | with_reducible assumption
    | with_reducible apply Event.sectFields_grows hc
    | with_reducible apply hc.signal
    | split

theorem Event.stopAwaiting_grows (hc : EventClosed R) (k : Nat) (e : Event) (h : R e) :
    R (Event.stopAwaiting k e) := by
  unfold Event.stopAwaiting
  try dsimp only
  repeat' first
    | with_reducible assumption
    | with_reducible apply Event.sectFields_grows hc
    | with_reducible apply Event.setUnrecorded_grows hc
    | split

theorem Event.startAwaiting_grows (hc : EventClosed R) (k : Nat) (e : Event) (h : R e) :
    R (Event.startAwaiting k e) := by
  unfold Event.startAwaiting
  try dsimp only
  repeat' first
    | with_reducible assumption
    | with_reducible apply Event.sectFields_grows hc
    | split

theorem Event.join_grows (hc : EventClosed R) (n k : Nat) (e : Event) (h : R e) :
    R (Event.join n k e) := by
  unfold Event.join
  try dsimp only
  repeat' first
    | with_reducible assumption
    | with_reducible apply Event.linkSection_grows hc
    | with_reducible apply Event.suppress_grows hc
    | with_reducible apply Event.outage_grows hc
    | with_reducible apply Event.stopAwaiting_grows hc
    | split

theorem Event.leave_grows (hc : EventClosed R) (n k : Nat) (e : Event) (h : R e) :
    R (Event.leave n k e) := by
  unfold Event.leave
  try dsimp only
  repeat' first
    | with_reducible assumption
    | with_reducible apply Event.unlinkSection_grows hc
    | with_reducible apply Event.suppress_grows hc
    | with_reducible apply Event.outage_grows hc
    | with_reducible apply Event.startAwaiting_grows hc
    | split

theorem Event.joins_grows (hc : EventClosed R) (n : Nat) (l : List Nat) (e : Event) (h : R e) :
    R (Event.joins n l e) := by
  induction l generalizing e with
  | nil => exact h
  | cons x t ih =>
    unfold Event.joins
    apply ih
    repeat' first
      | with_reducible assumption
      | with_reducible apply Event.join_grows hc
      | split

theorem Event.leaves_grows (hc : EventClosed R) (n : Nat) (l : List Nat) (e : Event) (h : R e) :
    R (Event.leaves n l e) := by
  induction l generalizing e with
  | nil => exact h
  | cons x t ih =>
    unfold Event.leaves
    apply ih
    repeat' first
      | with_reducible assumption
      | with_reducible apply Event.leave_grows hc
      | split

theorem Event.ruleDeclared_grows (hc : EventClosed R) (n : Nat) (e : Event) (h : R e) :
    R (Event.ruleDeclared n e) := by
  unfold Event.ruleDeclared
  try dsimp only
  repeat' first
    | with_reducible assumption
    | with_reducible apply Event.suppressAll_grows hc
    | with_reducible apply Event.outage_grows hc
    | split

theorem Event.ruleActive_grows (hc : EventClosed R) (n : Nat) (e : Event) (h : R e) :
    R (Event.ruleActive n e) := by
  unfold Event.ruleActive
  try dsimp only
  repeat' first
    | with_reducible assumption
    | with_reducible apply Event.outage_grows hc
    | split

theorem Event.ruleRecharging_grows (hc : EventClosed R) (n : Nat) (e : Event) (h : R e) :
    R (Event.ruleRecharging n e) := by
  unfold Event.ruleRecharging
  try dsimp only
  repeat' first
    | with_reducible assumption
    | with_reducible apply Event.outage_grows hc
    | split

theorem Event.setRelapse_grows (hc : EventClosed R) (n : Nat) (b : Bool) (e : Event) (h : R e) :
    R (Event.setRelapse n b e) := by
  unfold Event.setRelapse
  try dsimp only
  repeat' first
    | with_reducible assumption
    | with_reducible apply Event.outageQuietly_grows hc
    | with_reducible apply Event.relapse_grows hc
    | with_reducible apply hc.signal
    | split

theorem Event.relapse_grows (hc : EventClosed R) (n : Nat) (e : Event) (h : R e) :
    R (Event.relapse n e) := by
  unfold Event.relapse
  try dsimp only
  repeat' first
    | with_reducible assumption
    | with_reducible apply Event.suppressAll_grows hc
    | with_reducible apply Event.outage_grows hc
    | with_reducible apply Event.setRelapse_grows hc
    | split

theorem Event.ruleRelighting_grows (hc : EventClosed R) (n : Nat) (e : Event) (h : R e) :
    R (Event.ruleRelighting n e) := by
  unfold Event.ruleRelighting
  try dsimp only
  repeat' first
    | with_reducible assumption
    | with_reducible apply Event.relapse_grows hc
    | split

theorem Event.createOutage_grows (hc : EventClosed R) (idx : Nat) (cause : Cause) (st : OutageState)
    (plan : Option Nat) (sections : List Nat) (e : Event) (h : R e) :
    R (Event.createOutage idx cause st plan sections e) := by
  unfold Event.createOutage
  try dsimp only
  repeat' first
    | with_reducible assumption
    | with_reducible apply Event.joins_grows hc
    | with_reducible apply hc.setNet
    | with_reducible apply hc.markOutage
    | split

theorem Event.gatherGroups_grows (hc : EventClosed R) (l : List (List Nat)) (e : Event) (h : R e) :
    R (Event.gatherGroups l e) := by
  induction l generalizing e with
  | nil => exact h
  | cons x t ih =>
    unfold Event.gatherGroups
    repeat' first
      | with_reducible assumption
      | with_reducible apply ih
      | with_reducible apply Event.createOutage_grows hc
      | split

theorem Event.raiseUnrecorded_grows (hc : EventClosed R) (l : List Nat) (e : Event) (h : R e) :
    R (Event.raiseUnrecorded l e) := by
  induction l generalizing e with
  | nil => exact h
  | cons x t ih =>
    unfold Event.raiseUnrecorded
    apply ih
    repeat' first
      | with_reducible assumption
      | with_reducible apply Event.setUnrecorded_grows hc
      | split

theorem Event.gather_grows (hc : EventClosed R) (e : Event) (h : R e) :
    R (Event.gather e) := by
  unfold Event.gather
  try dsimp only
  repeat' first
    | with_reducible assumption
    | with_reducible apply Event.gatherGroups_grows hc
    | with_reducible apply Event.raiseUnrecorded_grows hc
    | split

theorem Event.dropOutage_grows (hc : EventClosed R) (n : Nat) (e : Event) (h : R e) :
    R (Event.dropOutage n e) := by
  unfold Event.dropOutage
  try dsimp only
  repeat' first
    | with_reducible assumption
    | with_reducible apply hc.setNet
    | split

theorem Event.unlinkOutage_grows (hc : EventClosed R) (o : Outage) (e : Event) (h : R e) :
    R (Event.unlinkOutage o e) := by
  unfold Event.unlinkOutage
  try dsimp only
  repeat' first
    | with_reducible assumption
    | with_reducible apply Event.plan_grows hc
    | with_reducible apply Event.unlinkPlan_grows hc
    | with_reducible apply Event.outageQuietly_grows hc
    | split

theorem Event.complete_grows (hc : EventClosed R) (n : Nat) (e : Event) (h : R e) :
    R (Event.complete n e) := by
  unfold Event.complete
  try dsimp only
  repeat' first
    | with_reducible assumption
    | with_reducible apply Event.completeCalls_grows hc
    | with_reducible apply Event.outage_grows hc
    | with_reducible apply Event.leaves_grows hc
    | with_reducible apply Event.setRelapse_grows hc
    | with_reducible apply Event.dropOutage_grows hc
    | with_reducible apply Event.unlinkOutage_grows hc
    | with_reducible apply hc.markClosed
    | split

theorem Event.abandon_grows (hc : EventClosed R) (byTrim : Bool) (n : Nat) (e : Event) (h : R e) :
    R (Event.abandon byTrim n e) := by
  unfold Event.abandon
  try dsimp only
  repeat' first
    | with_reducible assumption
    | with_reducible apply Event.leaves_grows hc
    | with_reducible apply Event.setRelapse_grows hc
    | with_reducible apply Event.dropOutage_grows hc
    | with_reducible apply Event.unlinkOutage_grows hc
    | with_reducible apply hc.markClosed
    | split

theorem Event.ruleConfirmed_grows (hc : EventClosed R) (n : Nat) (e : Event) (h : R e) :
    R (Event.ruleConfirmed n e) := by
  unfold Event.ruleConfirmed
  try dsimp only
  repeat' first
    | with_reducible assumption
    | with_reducible apply Event.suppressAll_grows hc
    | with_reducible apply Event.outage_grows hc
    | with_reducible apply Event.setRelapse_grows hc
    | with_reducible apply Event.complete_grows hc
    | split

theorem Event.ruleTrimmed_grows (hc : EventClosed R) (n : Nat) (e : Event) (h : R e) :
    R (Event.ruleTrimmed n e) := by
  unfold Event.ruleTrimmed
  try dsimp only
  repeat' first
    | with_reducible assumption
    | with_reducible apply Event.ruleActive_grows hc
    | with_reducible apply Event.complete_grows hc
    | with_reducible apply Event.ruleConfirmed_grows hc
    | split

theorem Event.trim_grows (hc : EventClosed R) (n : Nat) (sections : List Nat) (e : Event) (h : R e) :
    R (Event.trim n sections e) := by
  unfold Event.trim
  try dsimp only
  repeat' first
    | with_reducible assumption
    | with_reducible apply Event.leaves_grows hc
    | with_reducible apply Event.gather_grows hc
    | with_reducible apply Event.abandon_grows hc
    | with_reducible apply Event.ruleTrimmed_grows hc
    | split

theorem Event.rulePublished_grows (hc : EventClosed R) (n : Nat) (e : Event) (h : R e) :
    R (Event.rulePublished n e) := by
  unfold Event.rulePublished
  try dsimp only
  repeat' first
    | with_reducible assumption
    | with_reducible apply Event.ruleDeclared_grows hc
    | with_reducible apply Event.ruleActive_grows hc
    | with_reducible apply Event.ruleRecharging_grows hc
    | with_reducible apply Event.ruleRelighting_grows hc
    | split

theorem Event.rulesPublished_grows (hc : EventClosed R) (l : List Nat) (e : Event) (h : R e) :
    R (Event.rulesPublished l e) := by
  induction l generalizing e with
  | nil => exact h
  | cons x t ih =>
    unfold Event.rulesPublished
    apply ih
    repeat' first
      | with_reducible assumption
      | with_reducible apply Event.rulePublished_grows hc
      | split

theorem Event.clearUnrecorded_grows (hc : EventClosed R) (l : List Nat) (e : Event) (h : R e) :
    R (Event.clearUnrecorded l e) := by
  induction l generalizing e with
  | nil => exact h
  | cons x t ih =>
    unfold Event.clearUnrecorded
    apply ih
    repeat' first
      | with_reducible assumption
      | with_reducible apply Event.setUnrecorded_grows hc
      | split

theorem Event.takePublication_grows (hc : EventClosed R) (cleared changed : List Nat) (e : Event) (h : R e) :
    R (Event.takePublication cleared changed e) := by
  unfold Event.takePublication
  try dsimp only
  repeat' first
    | with_reducible assumption
    | with_reducible apply Event.gather_grows hc
    | with_reducible apply Event.rulesPublished_grows hc
    | with_reducible apply Event.clearUnrecorded_grows hc
    | split

theorem Event.pointReport_grows (hc : EventClosed R) (k : Nat) (entered leftLow : Bool) (e : Event) (h : R e) :
    R (Event.pointReport k entered leftLow e) := by
  unfold Event.pointReport
  try dsimp only
  repeat' first
    | with_reducible assumption
    | with_reducible apply Event.outageQuietly_grows hc
    | with_reducible apply Event.ruleActive_grows hc
    | with_reducible apply Event.relapse_grows hc
    | split

theorem Event.pointReports_grows (hc : EventClosed R) (n : Nat) (d : PointDef) (x y : Point) (onset : Bool)
    (e : Event) (h : R e) :
    R (Event.pointReports n d x y onset e) := by
  unfold Event.pointReports
  try dsimp only
  repeat' first
    | with_reducible assumption
    | with_reducible apply Event.outlet_grows hc
    | with_reducible apply Event.fallOnset_grows hc
    | with_reducible apply Event.pointReport_grows hc
    | split

theorem Event.repoint_grows (hc : EventClosed R) (kinds : List CondKind) (n : Nat) (d : PointDef) (x y : Point) (e : Event) (h : R e) :
    R (Event.repoint kinds n d x y e) := by
  unfold Event.repoint
  try dsimp only
  repeat' first
    | with_reducible assumption
    | with_reducible apply Event.point_grows hc
    | with_reducible apply Event.relistAll_grows hc
    | with_reducible apply Event.pointReports_grows hc
    | split

theorem Event.sample_grows (hc : EventClosed R) (x : Sample) (e : Event) (h : R e) :
    R (Event.sample x e) := by
  unfold Event.sample
  try dsimp only
  repeat' first
    | with_reducible assumption
    | with_reducible apply Event.point_grows hc
    | with_reducible apply Event.repoint_grows hc
    | split

theorem Event.stale_grows (hc : EventClosed R) (n : Nat) (e : Event) (h : R e) :
    R (Event.stale n e) := by
  unfold Event.stale
  try dsimp only
  repeat' first
    | with_reducible assumption
    | with_reducible apply Event.repoint_grows hc
    | split

theorem Event.staleTick_grows (hc : EventClosed R) (n : Nat) (e : Event) (h : R e) :
    R (Event.staleTick n e) := by
  unfold Event.staleTick
  try dsimp only
  repeat' first
    | with_reducible assumption
    | with_reducible apply Event.point_grows hc
    | with_reducible apply Event.stale_grows hc
    | split

theorem Event.staleTicks_grows (hc : EventClosed R) (l : List Nat) (e : Event) (h : R e) :
    R (Event.staleTicks l e) := by
  induction l generalizing e with
  | nil => exact h
  | cons x t ih =>
    unfold Event.staleTicks
    apply ih
    repeat' first
      | with_reducible assumption
      | with_reducible apply Event.staleTick_grows hc
      | split

theorem Event.staleIfDue_grows (hc : EventClosed R) (n : Nat) (e : Event) (h : R e) :
    R (Event.staleIfDue n e) := by
  unfold Event.staleIfDue
  try dsimp only
  repeat' first
    | with_reducible assumption
    | with_reducible apply Event.stale_grows hc
    | split

theorem Event.holdTick_grows (hc : EventClosed R) (n : Nat) (e : Event) (h : R e) :
    R (Event.holdTick n e) := by
  unfold Event.holdTick
  try dsimp only
  repeat' first
    | with_reducible assumption
    | with_reducible apply Event.outageQuietly_grows hc
    | with_reducible apply Event.ruleConfirmed_grows hc
    | split

theorem Event.holdTicks_grows (hc : EventClosed R) (l : List Nat) (e : Event) (h : R e) :
    R (Event.holdTicks l e) := by
  induction l generalizing e with
  | nil => exact h
  | cons x t ih =>
    unfold Event.holdTicks
    apply ih
    repeat' first
      | with_reducible assumption
      | with_reducible apply Event.holdTick_grows hc
      | split

theorem Event.gatherIfFreed_grows (hc : EventClosed R) (before : Nat) (e : Event) (h : R e) :
    R (Event.gatherIfFreed before e) := by
  unfold Event.gatherIfFreed
  try dsimp only
  repeat' first
    | with_reducible assumption
    | with_reducible apply Event.gather_grows hc
    | split

theorem Event.outageTick_grows (hc : EventClosed R) (e : Event) (h : R e) :
    R (Event.outageTick e) := by
  unfold Event.outageTick
  try dsimp only
  repeat' first
    | with_reducible assumption
    | with_reducible apply Event.holdTicks_grows hc
    | with_reducible apply Event.gatherIfFreed_grows hc
    | split

theorem Event.holdIfDue_grows (hc : EventClosed R) (n k : Nat) (e : Event) (h : R e) :
    R (Event.holdIfDue n k e) := by
  unfold Event.holdIfDue
  try dsimp only
  repeat' first
    | with_reducible assumption
    | with_reducible apply Event.outageQuietly_grows hc
    | with_reducible apply Event.ruleConfirmed_grows hc
    | with_reducible apply Event.gatherIfFreed_grows hc
    | split

theorem Event.confirmSection_grows (hc : EventClosed R) (n k : Nat) (e : Event) (h : R e) :
    R (Event.confirmSection n k e) := by
  unfold Event.confirmSection
  try dsimp only
  repeat' first
    | with_reducible assumption
    | with_reducible apply Event.outageQuietly_grows hc
    | with_reducible apply Event.ruleConfirmed_grows hc
    | with_reducible apply Event.gatherIfFreed_grows hc
    | split

theorem Event.countPremises_grows (hc : EventClosed R) (relit : Bool) (n k : Nat) (o : Outage) (e : Event) (h : R e) :
    R (Event.countPremises relit n k o e) := by
  unfold Event.countPremises
  try dsimp only
  repeat' first
    | with_reducible assumption
    | with_reducible apply Event.outage_grows hc
    | with_reducible apply Event.gather_grows hc
    | with_reducible apply Event.complete_grows hc
    | split

/-! ## Plan requests -/

theorem Event.claim_grows (hc : EventClosed R) (v : Nat) (c : Option Nat) (e : Event) (h : R e) :
    R (Event.claim v c e) := by
  unfold Event.claim
  try dsimp only
  repeat' first
    | with_reducible assumption
    | with_reducible apply hc.setNet
    | split

theorem Event.unclaim_grows (hc : EventClosed R) (l : List Nat) (e : Event) (h : R e) :
    R (Event.unclaim l e) := by
  induction l generalizing e with
  | nil => exact h
  | cons x t ih =>
    unfold Event.unclaim
    apply ih
    repeat' first
      | with_reducible assumption
      | with_reducible apply Event.claim_grows hc
      | split

theorem Event.editPlan_grows (hc : EventClosed R) (slot : Nat) (x : Plan) (valves : List Nat) (e : Event) (h : R e) :
    R (Event.editPlan slot x valves e) := by
  unfold Event.editPlan
  try dsimp only
  repeat' first
    | with_reducible assumption
    | with_reducible apply Event.plan_grows hc
    | with_reducible apply Event.planQuietly_grows hc
    | with_reducible apply Event.assessed_grows hc
    | split

theorem Event.abortPlan_grows (hc : EventClosed R) (slot : Nat) (x : Plan) (e : Event) (h : R e) :
    R (Event.abortPlan slot x e) := by
  unfold Event.abortPlan
  try dsimp only
  repeat' first
    | with_reducible assumption
    | with_reducible apply Event.plan_grows hc
    | with_reducible apply Event.settleIfAll_grows hc
    | with_reducible apply Event.aborts_grows hc
    | split

theorem Event.orderPending_grows (hc : EventClosed R) (dir : Direction) (l : List Nat) (e : Event) (h : R e) :
    R (Event.orderPending dir l e) := by
  induction l generalizing e with
  | nil => exact h
  | cons x t ih =>
    unfold Event.orderPending
    apply ih
    repeat' first
      | with_reducible assumption
      | with_reducible apply Event.order_grows hc
      | split

theorem Event.setOut_grows (hc : EventClosed R) (slot : Nat) (x : Plan) (dir : Direction) (e : Event) (h : R e) :
    R (Event.setOut slot x dir e) := by
  unfold Event.setOut
  try dsimp only
  repeat' first
    | with_reducible assumption
    | with_reducible apply Event.plan_grows hc
    | with_reducible apply Event.settleIfAll_grows hc
    | with_reducible apply Event.orderPending_grows hc
    | split

theorem Event.releaseOutage_grows (hc : EventClosed R) (x : Plan) (e : Event) (h : R e) :
    R (Event.releaseOutage x e) := by
  unfold Event.releaseOutage
  try dsimp only
  repeat' first
    | with_reducible assumption
    | with_reducible apply Event.outage_grows hc
    | with_reducible apply Event.outageQuietly_grows hc
    | with_reducible apply Event.gather_grows hc
    | with_reducible apply Event.abandon_grows hc
    | split

theorem Event.releasePlan_grows (hc : EventClosed R) (slot : Nat) (x : Plan) (e : Event) (h : R e) :
    R (Event.releasePlan slot x e) := by
  unfold Event.releasePlan
  try dsimp only
  repeat' first
    | with_reducible assumption
    | with_reducible apply Event.unclaim_grows hc
    | with_reducible apply Event.releaseOutage_grows hc
    | with_reducible apply hc.setNet
    | with_reducible apply hc.markReleased
    | split

theorem Event.takeOver_grows (hc : EventClosed R) (slot : Nat) (p : PortId) (x : Plan) (e : Event) (h : R e) :
    R (Event.takeOver slot p x e) := by
  unfold Event.takeOver
  try dsimp only
  repeat' first
    | with_reducible assumption
    | with_reducible apply hc.setNet
    | with_reducible apply hc.markPlan
    | split

theorem Event.assessed_grows (hc : EventClosed R) (slot : Nat) (r : Consequence) (e : Event) (h : R e) :
    R (Event.assessed slot r e) := by
  unfold Event.assessed
  try dsimp only
  repeat' first
    | with_reducible assumption
    | with_reducible apply Event.plan_grows hc
    | split

theorem Event.checkEnded_grows (hc : EventClosed R) (slot : Nat) (e : Event) (h : R e) :
    R (Event.checkEnded slot e) := by
  unfold Event.checkEnded
  try dsimp only
  repeat' first
    | with_reducible assumption
    | with_reducible apply Event.plan_grows hc
    | with_reducible apply Event.assessed_grows hc
    | split

theorem Event.recheck_grows (hc : EventClosed R) (slot : Nat) (x : Plan) (e : Event) (h : R e) :
    R (Event.recheck slot x e) := by
  unfold Event.recheck
  try dsimp only
  repeat' first
    | with_reducible assumption
    | with_reducible apply Event.plan_grows hc
    | with_reducible apply Event.planQuietly_grows hc
    | with_reducible apply Event.checkEnded_grows hc
    | with_reducible apply hc.setNet
    | split

theorem Event.checkPassed_grows (hc : EventClosed R) (slot : Nat) (x : Plan) (r : Consequence) (e : Event) (h : R e) :
    R (Event.checkPassed slot x r e) := by
  unfold Event.checkPassed
  try dsimp only
  repeat' first
    | with_reducible assumption
    | with_reducible apply Event.plan_grows hc
    | with_reducible apply Event.settleIfAll_grows hc
    | with_reducible apply Event.orders_grows hc
    | with_reducible apply Event.outage_grows hc
    | with_reducible apply Event.trim_grows hc
    | split

theorem Event.checkFailed_grows (hc : EventClosed R) (slot : Nat) (reason : Reason) (r : Consequence) (e : Event)
    (h : R e) :
    R (Event.checkFailed slot reason r e) := by
  unfold Event.checkFailed
  try dsimp only
  repeat' first
    | with_reducible assumption
    | with_reducible apply Event.plan_grows hc
    | with_reducible apply Event.assessed_grows hc
    | split

theorem Event.judgeCheck_grows (hc : EventClosed R) (slot : Nat) (x : Plan) (r : Consequence) (e : Event) (h : R e) :
    R (Event.judgeCheck slot x r e) := by
  unfold Event.judgeCheck
  try dsimp only
  repeat' first
    | with_reducible assumption
    | with_reducible apply Event.checkPassed_grows hc
    | with_reducible apply Event.checkFailed_grows hc
    | split

theorem Event.planResult_grows (hc : EventClosed R) (slot : Nat) (r : Consequence) (completion : Word) (e : Event)
    (h : R e) :
    R (Event.planResult slot r completion e) := by
  unfold Event.planResult
  try dsimp only
  repeat' first
    | with_reducible assumption
    | with_reducible apply Event.assessed_grows hc
    | with_reducible apply Event.recheck_grows hc
    | with_reducible apply Event.judgeCheck_grows hc
    | split

/-! ## Completions -/

theorem Event.publish_grows (hc : EventClosed R) (x : Snapshot) (e : Event) (h : R e) :
    R (Event.publish x e) := by
  unfold Event.publish
  try dsimp only
  repeat' first
    | with_reducible assumption
    | with_reducible apply Event.takePublication_grows hc
    | with_reducible apply hc.setNet
    | with_reducible apply hc.post
    | split

theorem Event.handOver_grows (hc : EventClosed R) (r : Consequence) (completion : Word) (who : Requester)
    (e : Event) (h : R e) :
    R (Event.handOver r completion who e) := by
  unfold Event.handOver
  try dsimp only
  repeat' first
    | with_reducible assumption
    | with_reducible apply Event.plan_grows hc
    | with_reducible apply Event.planResult_grows hc
    | with_reducible apply hc.post
    | split

/-! ## Ticks -/

theorem Event.limitReports_grows (hc : EventClosed R) (l : List Nat) (e : Event) (h : R e) :
    R (Event.limitReports l e) := by
  induction l generalizing e with
  | nil => exact h
  | cons x t ih =>
    unfold Event.limitReports
    apply ih
    repeat' first
      | with_reducible assumption
      | with_reducible apply Event.limitReport_grows hc
      | split

theorem Event.trips_grows (hc : EventClosed R) (l : List Nat) (e : Event) (h : R e) :
    R (Event.trips l e) := by
  induction l generalizing e with
  | nil => exact h
  | cons x t ih =>
    unfold Event.trips
    apply ih
    repeat' first
      | with_reducible assumption
      | with_reducible apply Event.trip_grows hc
      | split

theorem Event.generalLine_grows (hc : EventClosed R) (n : Nat) (e : Event) (h : R e) :
    R (Event.generalLine n e) := by
  unfold Event.generalLine
  try dsimp only
  repeat' first
    | with_reducible assumption
    | with_reducible apply hc.signal
    | with_reducible apply hc.post
    | split

theorem Event.generalLines_grows (hc : EventClosed R) (l : List Nat) (e : Event) (h : R e) :
    R (Event.generalLines l e) := by
  induction l generalizing e with
  | nil => exact h
  | cons x t ih =>
    unfold Event.generalLines
    apply ih
    repeat' first
      | with_reducible assumption
      | with_reducible apply Event.generalLine_grows hc
      | split

theorem Event.lineUser_grows (hc : EventClosed R) (due : List Nat) (b : Block) (e : Event) (h : R e) :
    R (Event.lineUser due b e) := by
  unfold Event.lineUser
  try dsimp only
  repeat' first
    | with_reducible assumption
    | with_reducible apply Event.limitReports_grows hc
    | with_reducible apply Event.trips_grows hc
    | with_reducible apply Event.generalLines_grows hc
    | split

theorem Event.inOrder_grows {f : Block → Event → Event} (hf : ∀ b e, R e → R (f b e)) (l : List Block) (e : Event)
    (h : R e) : R (Event.inOrder f l e) := by
  induction l generalizing e with
  | nil => exact h
  | cons b t ih => exact ih _ (hf b e h)

theorem Event.inAnyOrder_grows (hc : EventClosed R) {f : Block → Event → Event} (hf : ∀ b e, R e → R (f b e))
    (bs : List Block) (e : Event) (h : R e) : R (Event.inAnyOrder bs f e) :=
  Event.inOrder_grows hf _ _ (hc.choices e _ h)

theorem Event.lineChanges_grows (hc : EventClosed R) (due : List Nat) (e : Event) (h : R e) :
    R (Event.lineChanges due e) :=
  Event.inAnyOrder_grows hc (fun b e1 h1 => Event.lineUser_grows hc due b e1 h1) _ _ (hc.setNet e _ h)

theorem Event.scan_grows (hc : EventClosed R) (pins : BitVec 64) (e : Event) (h : R e) :
    R (Event.scan pins e) := by
  unfold Event.scan
  try dsimp only
  repeat' first
    | with_reducible assumption
    | with_reducible apply Event.lineChanges_grows hc
    | with_reducible apply hc.setNet
    | split

theorem Event.lineChangeIfDue_grows (hc : EventClosed R) (line : Nat) (e : Event) (h : R e) :
    R (Event.lineChangeIfDue line e) := by
  unfold Event.lineChangeIfDue
  try dsimp only
  repeat' first
    | with_reducible assumption
    | with_reducible apply Event.lineChanges_grows hc
    | split

theorem Event.secondAt_grows (hc : EventClosed R) (b : Block) (e : Event) (h : R e) :
    R (Event.secondAt b e) := by
  unfold Event.secondAt
  try dsimp only
  repeat' first
    | with_reducible assumption
    | with_reducible apply Event.travelTicks_grows hc
    | with_reducible apply Event.callTicks_grows hc
    | with_reducible apply Event.staleTicks_grows hc
    | with_reducible apply Event.outageTick_grows hc
    | split

end Sys2Proof.Machine
end

