-- ==== Sys2Proof/Laws/Table.lean ====
section
/-!
SUPPORT. What the operations over tables do: reading after a write, and the canonical form that every write keeps.
-/

namespace Sys2Proof.Machine

variable {α β : Type}

/-! ## Reading after a write -/

@[simp] theorem lookup_nil (k : Nat) : lookup k ([] : Table α) = none := rfl

@[simp] theorem lookup_put_same (k : Nat) (v : α) (t : Table α) : lookup k (put k v t) = some v := by
  induction t with
  | nil => simp [put, lookup]
  | cons x t ih =>
    obtain ⟨j, w⟩ := x
    simp only [put]
    split
    · simp [lookup]
    · split
      · simp [lookup]
      · next h => simp [lookup, h, ih]

theorem lookup_put_other {j k : Nat} (h : j ≠ k) (v : α) (t : Table α) : lookup j (put k v t) = lookup j t := by
  induction t with
  | nil => simp [put, lookup, Ne.symm h]
  | cons x t ih =>
    obtain ⟨i, w⟩ := x
    simp only [put]
    split
    · simp [lookup, Ne.symm h]
    · split
      · next he => subst he; simp [lookup, Ne.symm h]
      · simp [lookup, ih]

theorem lookup_adjust (j k : Nat) (f : α → α) (t : Table α) :
    lookup j (adjust k f t) = if j = k then (lookup j t).map f else lookup j t := by
  induction t with
  | nil => simp [adjust, lookup]
  | cons x t ih =>
    obtain ⟨i, w⟩ := x
    by_cases hik : i = k
    · subst hik
      by_cases hji : i = j
      · subst hji; simp [adjust, lookup]
      · simp [adjust, lookup, hji, Ne.symm hji]
    · by_cases hij : i = j
      · subst hij; simp [adjust, lookup, hik]
      · simp [adjust, lookup, hik, hij, ih]

@[simp] theorem lookup_adjust_same (k : Nat) (f : α → α) (t : Table α) :
    lookup k (adjust k f t) = (lookup k t).map f := by simp [lookup_adjust]

theorem lookup_adjust_other {j k : Nat} (h : j ≠ k) (f : α → α) (t : Table α) :
    lookup j (adjust k f t) = lookup j t := by simp [lookup_adjust, h]

@[simp] theorem lookup_mapTable (k : Nat) (f : Nat → α → β) (t : Table α) :
    lookup k (mapTable f t) = (lookup k t).map (f k) := by
  induction t with
  | nil => rfl
  | cons x t ih =>
    obtain ⟨j, w⟩ := x
    by_cases h : j = k
    · subst h; simp [mapTable, lookup]
    · simp [mapTable, lookup, h, ih]

theorem lookup_remove_other {j k : Nat} (h : j ≠ k) (t : Table α) : lookup j (remove k t) = lookup j t := by
  induction t with
  | nil => rfl
  | cons x t ih =>
    obtain ⟨i, w⟩ := x
    by_cases hik : i = k
    · subst hik; simp [remove, lookup, Ne.symm h]
    · simp [remove, lookup, hik, ih]

theorem mem_keys_iff_lookup (k : Nat) (t : Table α) : k ∈ keys t ↔ (lookup k t).isSome = true := by
  induction t with
  | nil => simp [keys, lookup]
  | cons x t ih =>
    obtain ⟨j, w⟩ := x
    by_cases h : j = k
    · subst h; simp [keys, lookup]
    · simp [keys, lookup, h, Ne.symm h, ih]

/-! ## Keys, and the canonical form -/

@[simp] theorem keys_adjust (k : Nat) (f : α → α) (t : Table α) : keys (adjust k f t) = keys t := by
  induction t with
  | nil => rfl
  | cons x t ih =>
    obtain ⟨j, w⟩ := x
    by_cases h : j = k <;> simp [adjust, keys, h, ih]

@[simp] theorem keys_mapTable (f : Nat → α → β) (t : Table α) : keys (mapTable f t) = keys t := by
  induction t with
  | nil => rfl
  | cons x t ih => obtain ⟨j, w⟩ := x; simp [mapTable, keys, ih]

/-- Rising keys, as one fact about the first key and the others. -/
theorem keysRising_cons (a : Nat) (l : List Nat) :
    keysRising (a :: l) = true ↔ (∀ b ∈ l, a < b) ∧ keysRising l = true := by
  induction l generalizing a with
  | nil => simp [keysRising]
  | cons b t ih =>
    simp only [keysRising, Bool.and_eq_true, decide_eq_true_eq, List.mem_cons, forall_eq_or_imp]
    constructor
    · rintro ⟨hab, hb⟩
      exact ⟨⟨hab, fun c hc => Nat.lt_trans hab (((ih b).mp hb).1 c hc)⟩, hb⟩
    · rintro ⟨⟨hab, _⟩, hb⟩
      exact ⟨hab, hb⟩

theorem mem_keys_put {j k : Nat} {v : α} {t : Table α} (h : j ∈ keys (put k v t)) : j = k ∨ j ∈ keys t := by
  by_cases hjk : j = k
  · exact Or.inl hjk
  · right
    rw [mem_keys_iff_lookup] at h ⊢
    rwa [lookup_put_other hjk] at h

theorem mem_keys_remove {j k : Nat} {t : Table α} (h : j ∈ keys (remove k t)) : j ∈ keys t := by
  induction t with
  | nil => exact h
  | cons x t ih =>
    obtain ⟨i, w⟩ := x
    simp only [remove] at h
    split at h
    · exact List.mem_cons_of_mem _ h
    · simp only [keys, List.mem_cons] at h ⊢
      exact h.imp_right ih

theorem Table.wf_adjust (k : Nat) (f : α → α) (t : Table α) : Table.wf (adjust k f t) = Table.wf t := by
  simp [Table.wf]

theorem Table.wf_mapTable (f : Nat → α → β) (t : Table α) : Table.wf (mapTable f t) = Table.wf t := by
  simp [Table.wf]

theorem Table.wf_put (k : Nat) (v : α) (t : Table α) (h : Table.wf t = true) : Table.wf (put k v t) = true := by
  unfold Table.wf at h ⊢
  induction t with
  | nil => rfl
  | cons x t ih =>
    obtain ⟨j, w⟩ := x
    have hj := (keysRising_cons j (keys t)).mp h
    simp only [put]
    split
    · next hkj =>
      refine (keysRising_cons k _).mpr ⟨?_, h⟩
      intro b hb
      rcases List.mem_cons.mp hb with rfl | hb
      · exact hkj
      · exact Nat.lt_trans hkj (hj.1 b hb)
    · next hkj =>
      split
      · next he => subst he; exact h
      · next hne =>
        refine (keysRising_cons j _).mpr ⟨?_, ih hj.2⟩
        intro b hb
        rcases mem_keys_put hb with rfl | hb
        · omega
        · exact hj.1 b hb

theorem Table.wf_remove (k : Nat) (t : Table α) (h : Table.wf t = true) : Table.wf (remove k t) = true := by
  unfold Table.wf at h ⊢
  induction t with
  | nil => rfl
  | cons x t ih =>
    obtain ⟨j, w⟩ := x
    have hj := (keysRising_cons j (keys t)).mp h
    simp only [remove]
    split
    · exact hj.2
    · exact (keysRising_cons j _).mpr ⟨fun b hb => hj.1 b (mem_keys_remove hb), ih hj.2⟩

/-! ## Records as members -/

theorem mem_of_lookup {k : Nat} {v : α} {t : Table α} (h : lookup k t = some v) : (k, v) ∈ t := by
  induction t with
  | nil => simp at h
  | cons x t ih =>
    obtain ⟨j, w⟩ := x
    by_cases hj : j = k
    · simp [lookup, hj] at h; simp [hj, h]
    · simp [lookup, hj] at h; exact List.mem_cons_of_mem _ (ih h)

theorem keys_eq_map (t : Table α) : keys t = t.map (fun x => x.1) := by
  induction t with
  | nil => rfl
  | cons x t ih => simp [keys, ih]

/-- In canonical form a record is found under its key. -/
theorem lookup_of_mem {k : Nat} {v : α} {t : Table α} (hw : Table.wf t = true) (h : (k, v) ∈ t) :
    lookup k t = some v := by
  induction t with
  | nil => simp at h
  | cons x t ih =>
    obtain ⟨j, w⟩ := x
    have hr := (keysRising_cons j (keys t)).1 hw
    rcases List.mem_cons.1 h with he | hm
    · obtain ⟨rfl, rfl⟩ := Prod.mk.inj he
      simp [lookup]
    · have hk : k ∈ keys t := by
        rw [keys_eq_map]
        exact List.mem_map.2 ⟨_, hm, rfl⟩
      have hlt := hr.1 k hk
      have hne : j ≠ k := Nat.ne_of_lt hlt
      simp [lookup, hne, ih hr.2 hm]

theorem mem_iff_lookup {k : Nat} {v : α} {t : Table α} (hw : Table.wf t = true) :
    (k, v) ∈ t ↔ lookup k t = some v := ⟨lookup_of_mem hw, mem_of_lookup⟩

end Sys2Proof.Machine
end

