-- ==== Sys2Proof/Laws/Ops.lean ====
section
/-!
SUPPORT. What the shared operations do, said once: the end of an event, the delivery of notices, the taking of a request
and its response.
-/

namespace Sys2Proof.Machine

/-! ## Orders: nothing is lost and nothing is made in a merge -/

theorem mem_pullFirst_none {α : Type} {b : Block} {l : List (Block × α)} (h : (pullFirst b l).1 = none) :
    ∀ x ∈ l, x.1 ≠ b := by
  induction l with
  | nil => simp
  | cons y t ih =>
    obtain ⟨c, v⟩ := y
    intro x hx
    simp only [pullFirst] at h
    split at h
    · simp at h
    · next hne =>
      rcases List.mem_cons.mp hx with rfl | hx
      · exact hne
      · exact ih h x hx

theorem pullFirst_perm {α : Type} {b : Block} {l : List (Block × α)} {v : α} (h : (pullFirst b l).1 = some v) :
    (l.map Prod.snd).Perm (v :: (pullFirst b l).2.map Prod.snd) := by
  induction l with
  | nil => simp [pullFirst] at h
  | cons y t ih =>
    obtain ⟨c, w⟩ := y
    simp only [pullFirst] at h ⊢
    split at h
    · next heq => simp only [Option.some.injEq] at h; subst h; simp [heq]
    · next hne =>
      simp only [hne, if_false, List.map_cons]
      exact (List.Perm.cons w (ih h)).trans (List.Perm.swap v w _)

theorem itemAt_mem {α : Type} (d : α) (l : List α) (n : Nat) : itemAt d l n = d ∨ itemAt d l n ∈ l := by
  induction l generalizing n with
  | nil => exact Or.inl rfl
  | cons x t ih =>
    cases n with
    | zero => exact Or.inr (List.mem_cons_self ..)
    | succ n => exact (ih n).imp id (List.mem_cons_of_mem _)

theorem mem_blocksOf {α : Type} {b : Block} {l : List (Block × α)} (h : b ∈ blocksOf l) : ∃ x ∈ l, x.1 = b := by
  induction l with
  | nil => simp [blocksOf] at h
  | cons y t ih =>
    obtain ⟨c, v⟩ := y
    simp only [blocksOf, List.mem_cons, List.mem_filter] at h
    rcases h with rfl | ⟨h, _⟩
    · exact ⟨_, List.mem_cons_self .., rfl⟩
    · obtain ⟨x, hx, rfl⟩ := ih h
      exact ⟨x, List.mem_cons_of_mem _ hx, rfl⟩

theorem mergePicks_perm {α : Type} (n : Nat) (l : List (Block × α)) (cs : Nat) (h : l.length ≤ n) :
    (l.map Prod.snd).Perm (mergePicks n l cs).1 := by
  induction n generalizing l cs with
  | zero => have : l = [] := by simpa using h
            subst this; simp [mergePicks]
  | succ n ih =>
    cases l with
    | nil => simp [mergePicks]
    | cons y t =>
      obtain ⟨b0, x0⟩ := y
      simp only [mergePicks]
      split
      · next x rest heq =>
        have h1 := pullFirst_perm (congrArg Prod.fst heq)
        rw [heq] at h1
        have hl := h1.length_eq
        simp only [List.length_map, List.length_cons] at hl h
        exact h1.trans (List.Perm.cons x (ih rest _ (by omega)))
      · next rest heq =>
        exfalso
        have hnone := mem_pullFirst_none (congrArg Prod.fst heq)
        rcases itemAt_mem b0 (blocksOf ((b0, x0) :: t)) (choose (blocksOf ((b0, x0) :: t)).length cs).1 with h2 | h2
        · exact hnone _ (List.mem_cons_self ..) h2.symm
        · obtain ⟨x, hx, he⟩ := mem_blocksOf h2
          exact hnone x hx he

/-- A merge is a permutation of its items. -/
theorem merge_perm {α : Type} (l : List (Block × α)) (cs : Nat) : (l.map Prod.snd).Perm (merge l cs).1 :=
  mergePicks_perm _ l cs (Nat.le_refl _)

theorem mem_merge {α : Type} {l : List (Block × α)} {cs : Nat} {x : α} : x ∈ (merge l cs).1 ↔ ∃ b, (b, x) ∈ l := by
  rw [← (merge_perm l cs).mem_iff]
  simp

@[simp] theorem merge_nil {α : Type} (cs : Nat) : merge ([] : List (Block × α)) cs = ([], cs) := rfl

/-! ## Delivery of notices (R173, R174, R176) -/

/-- A property of ports that offers keep holds after a delivery. -/
theorem deliverAll_keeps {Q : Port → Prop} (hQ : ∀ n x, Q x → Q (Port.offer n x)) (clock : Word) (l : List Post)
    (ps : Ports) (p : PortId) (h : Q (ps.get p)) : Q ((deliverAll clock l ps).get p) := by
  induction l generalizing ps with
  | nil => exact h
  | cons n t ih =>
    refine ih _ ?_
    simp only [deliver, Ports.get_map]
    split
    · exact hQ _ _ h
    · exact h

theorem Port.offer_role (n : Notice) (x : Port) : (x.offer n).role = x.role := by
  unfold Port.offer Port.refresh; split <;> rfl

theorem Port.offer_classes (n : Notice) (x : Port) : (x.offer n).classes = x.classes := by
  unfold Port.offer Port.refresh; split <;> rfl

theorem Port.offer_response (n : Notice) (x : Port) : (x.offer n).response = x.response := by
  unfold Port.offer Port.refresh; split <;> rfl

theorem Port.offer_lastRequest (n : Notice) (x : Port) : (x.offer n).lastRequest = x.lastRequest := by
  unfold Port.offer Port.refresh; split <;> rfl

theorem Port.offer_buffer (n : Notice) (x : Port) : (x.offer n).buffer = x.buffer := by
  unfold Port.offer Port.refresh; split <;> rfl

theorem Port.offer_dataOut (n : Notice) (x : Port) : (x.offer n).dataOut = x.dataOut := by
  unfold Port.offer Port.refresh; split <;> rfl

/-- What is in a queue, or was lost, stays so under offers. -/
theorem Port.offer_holds (n m : Notice) (x : Port) (h : m ∈ x.queue ∨ x.lost = true) :
    m ∈ (x.offer n).queue ∨ (x.offer n).lost = true := by
  unfold Port.offer Port.refresh
  split
  · rcases h with h | h
    · exact Or.inl (List.mem_append_left _ h)
    · exact Or.inr h
  · exact Or.inr rfl

/-- A notice offered is in the queue, or the queue was full and the lost flag is set. -/
theorem Port.offer_self (n : Notice) (x : Port) : n ∈ (x.offer n).queue ∨ (x.offer n).lost = true := by
  unfold Port.offer Port.refresh
  split
  · exact Or.inl (by simp)
  · exact Or.inr rfl

/-- Offers keep a port sound. -/
theorem Port.offer_sound (n : Notice) (x : Port) (h : x.Sound) : (x.offer n).Sound := by
  have h1 := h.length
  unfold Port.offer Port.refresh
  split
  · next hlt =>
    have hlost : x.lost = false := by
      cases hl : x.lost with
      | false => rfl
      | true => exact absurd (h.full hl) (by simp only [Config.noticeQueue] at hlt; omega)
    exact ⟨by simp only [Config.noticeQueue] at hlt; simp; omega, rfl, by simp [hlost], fun _ => h.counted hlost⟩
  · next hge =>
    refine ⟨h1, rfl, fun _ => ?_, by simp⟩
    simp only [Config.noticeQueue] at hge
    show x.queue.length = 32
    omega

theorem deliverAll_role (c : Word) (l : List Post) (ps : Ports) (p : PortId) :
    ((deliverAll c l ps).get p).role = (ps.get p).role :=
  deliverAll_keeps (Q := fun x => x.role = (ps.get p).role) (fun n x h => by rw [Port.offer_role]; exact h) c l ps p rfl

theorem deliverAll_classes (c : Word) (l : List Post) (ps : Ports) (p : PortId) :
    ((deliverAll c l ps).get p).classes = (ps.get p).classes :=
  deliverAll_keeps (Q := fun x => x.classes = (ps.get p).classes)
    (fun n x h => by rw [Port.offer_classes]; exact h) c l ps p rfl

theorem deliverAll_response (c : Word) (l : List Post) (ps : Ports) (p : PortId) :
    ((deliverAll c l ps).get p).response = (ps.get p).response :=
  deliverAll_keeps (Q := fun x => x.response = (ps.get p).response)
    (fun n x h => by rw [Port.offer_response]; exact h) c l ps p rfl

theorem deliverAll_lastRequest (c : Word) (l : List Post) (ps : Ports) (p : PortId) :
    ((deliverAll c l ps).get p).lastRequest = (ps.get p).lastRequest :=
  deliverAll_keeps (Q := fun x => x.lastRequest = (ps.get p).lastRequest)
    (fun n x h => by rw [Port.offer_lastRequest]; exact h) c l ps p rfl

theorem deliverAll_buffer (c : Word) (l : List Post) (ps : Ports) (p : PortId) :
    ((deliverAll c l ps).get p).buffer = (ps.get p).buffer :=
  deliverAll_keeps (Q := fun x => x.buffer = (ps.get p).buffer)
    (fun n x h => by rw [Port.offer_buffer]; exact h) c l ps p rfl

theorem deliverAll_dataOut (c : Word) (l : List Post) (ps : Ports) (p : PortId) :
    ((deliverAll c l ps).get p).dataOut = (ps.get p).dataOut :=
  deliverAll_keeps (Q := fun x => x.dataOut = (ps.get p).dataOut)
    (fun n x h => by rw [Port.offer_dataOut]; exact h) c l ps p rfl

/-- Delivery reaches the ports entitled to a notice. -/
theorem deliverAll_reaches (clock : Word) (l : List Post) (ps : Ports) (p : PortId) (n : Post) (hn : n ∈ l)
    (he : entitled p (ps.get p) n = true) :
    { body := n.body, time := clock } ∈ ((deliverAll clock l ps).get p).queue
      ∨ ((deliverAll clock l ps).get p).lost = true := by
  induction l generalizing ps with
  | nil => simp at hn
  | cons m t ih =>
    rcases List.mem_cons.mp hn with rfl | hn
    · refine deliverAll_keeps
        (Q := fun x => ({ body := n.body, time := clock } : Notice) ∈ x.queue ∨ x.lost = true)
        (fun k x h => Port.offer_holds k _ x h) clock t _ p ?_
      simp only [deliver, Ports.get_map, he, if_true]
      exact Port.offer_self _ _
    · refine ih _ hn ?_
      have hcl : ((deliver clock m ps).get p).classes = (ps.get p).classes := by
        simp only [deliver, Ports.get_map]
        split
        · exact Port.offer_classes _ _
        · rfl
      unfold entitled at he ⊢
      rw [hcl]
      exact he

/-! ## The order of reports (R150) -/

theorem insertBy_perm {α : Type} (less : α → α → Bool) (x : α) (l : List α) : (insertBy less x l).Perm (x :: l) := by
  induction l with
  | nil => exact .refl _
  | cons y t ih =>
    unfold insertBy
    split
    · exact .refl _
    · exact (ih.cons y).trans (.swap x y t)

theorem sortBy_perm {α : Type} (less : α → α → Bool) (l : List α) : (sortBy less l).Perm l := by
  induction l with
  | nil => exact .refl _
  | cons x t ih => exact (insertBy_perm less x _).trans (ih.cons x)

/-- Places refilled with as many items as they are: the items, and what never moved. -/
theorem refill_perm {α : Type} (p : α → Bool) (q l : List α) (h : q.length = (l.filter p).length) :
    (refill p q l).Perm (q ++ l.filter (fun x => !p x)) := by
  induction l generalizing q with
  | nil =>
    obtain rfl : q = [] := List.length_eq_zero_iff.1 (by simpa using h)
    exact .refl _
  | cons x t ih =>
    unfold refill
    cases hp : p x
    · have := ih q (by simpa [hp] using h)
      simpa [hp] using (this.cons x).trans List.perm_middle.symm
    · cases q with
      | nil => simp [hp] at h
      | cons y q' => simpa [hp] using (ih q' (by simpa [hp] using h)).cons y

theorem inIndexOrder_perm (b : Block) (k : SourceKind) (l : List (Block × Report)) : (inIndexOrder b k l).Perm l :=
  (refill_perm _ _ l (sortBy_perm _ _).length_eq).trans
    (((sortBy_perm _ _).append_right _).trans (List.filter_append_perm _ l))

/-- No report is lost and none is made. -/
theorem neighbourOrder_perm (l : List (Block × Report)) : (neighbourOrder l).Perm l :=
  (inIndexOrder_perm _ _ _).trans ((inIndexOrder_perm _ _ _).trans (inIndexOrder_perm _ _ _))

/-- No report is lost and none is made. -/
theorem reportOrder_perm (l : List (Block × Report)) : (reportOrder l).Perm l :=
  (inIndexOrder_perm _ _ _).trans (neighbourOrder_perm l)

/-- Insertion leaves the order of items that compare as equal both ways. -/
theorem insertBy_filter {α : Type} (less : α → α → Bool) (q : α → Bool) (x : α) (l : List α)
    (h : ∀ y ∈ l, q x = true → q y = true → less x y = true) :
    (insertBy less x l).filter q = (x :: l).filter q := by
  induction l with
  | nil => rfl
  | cons y t ih =>
    have ht := ih (fun z hz => h z (List.mem_cons_of_mem _ hz))
    have hy := h y (List.mem_cons_self ..)
    unfold insertBy
    split
    · rfl
    · rename_i hl
      cases hx : q x <;> cases hq : q y <;> simp_all

theorem sortBy_filter {α : Type} (less : α → α → Bool) (q : α → Bool) (l : List α)
    (h : ∀ x ∈ l, ∀ y ∈ l, q x = true → q y = true → less x y = true) : (sortBy less l).filter q = l.filter q := by
  induction l with
  | nil => rfl
  | cons x t ih =>
    have ht := ih (fun a ha b hb => h a (List.mem_cons_of_mem _ ha) b (List.mem_cons_of_mem _ hb))
    rw [sortBy, insertBy_filter less q x _ (fun y hy => h x (List.mem_cons_self ..) y
      (List.mem_cons_of_mem _ ((sortBy_perm less t).subset hy)))]
    simp [List.filter_cons, ht]

/-- Items that a test leaves in their places. -/
theorem refill_filter_other {α : Type} (p r : α → Bool) (q l : List α) (hq : ∀ x ∈ q, p x = true)
    (hr : ∀ x, r x = true → p x = false) : (refill p q l).filter r = l.filter r := by
  have no : ∀ x, p x = true → r x = false := fun x hx => by
    cases h : r x
    · rfl
    · simp [hr x h] at hx
  induction l generalizing q with
  | nil => rfl
  | cons x t ih =>
    unfold refill
    cases hp : p x
    · simp [List.filter_cons, ih q hq]
    · cases q with
      | nil => simp [List.filter_cons, ih [] (by simp)]
      | cons y q' =>
        simp [no x hp, no y (hq y (List.mem_cons_self ..)),
          ih q' (fun z hz => hq z (List.mem_cons_of_mem _ hz))]

/-- Items of a test come in the order of the list that refills their places. -/
theorem refill_filter_own {α : Type} (p r : α → Bool) (q l : List α) (hl : q.length = (l.filter p).length)
    (hr : ∀ x, r x = true → p x = true) : (refill p q l).filter r = q.filter r := by
  induction l generalizing q with
  | nil =>
    obtain rfl : q = [] := List.length_eq_zero_iff.1 (by simpa using hl)
    rfl
  | cons x t ih =>
    unfold refill
    cases hp : p x
    · have hx : r x = false := by
        cases h : r x
        · rfl
        · simp [hr x h] at hp
      simp [hx, ih q (by simpa [hp] using hl)]
    · cases q with
      | nil => simp [hp] at hl
      | cons y q' => simp [List.filter_cons, ih q' (by simpa [hp] using hl)]

/-- The reports of one block about one condition keep their order. -/
theorem inIndexOrder_filter (b : Block) (k : SourceKind) (b' : Block) (c : CondId) (l : List (Block × Report)) :
    (inIndexOrder b k l).filter (fun x => x.1 == b' && x.2.cond == c) = l.filter (fun x => x.1 == b' && x.2.cond == c) := by
  unfold inIndexOrder
  by_cases h : b' = b ∧ sourceKindOf c.kind = k
  · obtain ⟨rfl, rfl⟩ := h
    rw [refill_filter_own]
    · rw [sortBy_filter]
      · rw [List.filter_filter]
        congr 1
        funext x
        cases hx : (x.1 == b' && x.2.cond == c)
        · simp
        · simp only [Bool.and_eq_true, beq_iff_eq] at hx
          simp [hx.1, hx.2]
      · intro x _ y _ hx hy
        simp only [Bool.and_eq_true, beq_iff_eq] at hx hy
        simp [hx.2, hy.2]
    · exact (sortBy_perm _ _).length_eq
    · intro x hx
      simp only [Bool.and_eq_true, beq_iff_eq] at hx
      simp [hx.1, hx.2]
  · refine refill_filter_other _ _ _ _ (fun x hx => ?_) (fun x hx => ?_)
    · simpa using (List.mem_filter.1 ((sortBy_perm _ _).subset hx)).2
    · simp only [Bool.and_eq_true, beq_iff_eq] at hx
      simp only [hx.1, hx.2, Bool.and_eq_false_iff, beq_eq_false_iff_ne]
      by_contra hn
      exact h (by push Not at hn; exact hn)

/-- The reports of one block about one condition keep their order (R150). -/
theorem neighbourOrder_filter (b : Block) (c : CondId) (l : List (Block × Report)) :
    (neighbourOrder l).filter (fun x => x.1 == b && x.2.cond == c) = l.filter (fun x => x.1 == b && x.2.cond == c) := by
  simp only [neighbourOrder, inIndexOrder_filter]

theorem insertBy_pairwise {α : Type} {less : α → α → Bool} (total : ∀ x y, less x y = false → less y x = true)
    (trans : ∀ x y z, less x y = true → less y z = true → less x z = true) (x : α) {l : List α}
    (h : l.Pairwise (fun a b => less a b = true)) : (insertBy less x l).Pairwise (fun a b => less a b = true) := by
  induction l with
  | nil => simp [insertBy]
  | cons y t ih =>
    obtain ⟨hy, ht⟩ := List.pairwise_cons.1 h
    unfold insertBy
    split
    · rename_i hl
      exact List.pairwise_cons.2 ⟨List.forall_mem_cons.2 ⟨hl, fun z hz => trans _ _ _ hl (hy z hz)⟩, h⟩
    · rename_i hl
      refine List.pairwise_cons.2 ⟨fun z hz => ?_, ih ht⟩
      rcases List.mem_cons.1 ((insertBy_perm less x t).subset hz) with rfl | hz
      · exact total _ _ (by simpa using hl)
      · exact hy z hz

theorem sortBy_pairwise {α : Type} {less : α → α → Bool} (total : ∀ x y, less x y = false → less y x = true)
    (trans : ∀ x y z, less x y = true → less y z = true → less x z = true) (l : List α) :
    (sortBy less l).Pairwise (fun a b => less a b = true) := by
  induction l with
  | nil => exact .nil
  | cons x t ih => exact insertBy_pairwise total trans x ih

/-- The reports of one block about objects of one kind stand in ascending source index. -/
def AscendingFor (b : Block) (k : SourceKind) (l : List (Block × Report)) : Prop :=
  (l.filter (fun x => x.1 == b && sourceKindOf x.2.cond.kind == k)).Pairwise (fun x y => x.2.cond.index ≤ y.2.cond.index)

theorem inIndexOrder_ascending (b : Block) (k : SourceKind) (l : List (Block × Report)) :
    AscendingFor b k (inIndexOrder b k l) := by
  unfold AscendingFor inIndexOrder
  rw [refill_filter_own _ _ _ _ (sortBy_perm _ _).length_eq (fun _ h => h), List.filter_eq_self.2 (fun x hx =>
    (List.mem_filter.1 ((sortBy_perm _ _).subset hx)).2)]
  refine (sortBy_pairwise (fun x y h => ?_) (fun x y z h h' => ?_) _).imp (fun h => of_decide_eq_true h) <;>
    simp only [decide_eq_true_eq, decide_eq_false_iff_not] at * <;> omega

/-- The reports of other blocks and those about objects of other kinds keep their order. -/
theorem inIndexOrder_other (b : Block) (k : SourceKind) (r : Block × Report → Bool) (l : List (Block × Report))
    (hr : ∀ x, r x = true → (x.1 == b && sourceKindOf x.2.cond.kind == k) = false) :
    (inIndexOrder b k l).filter r = l.filter r :=
  refill_filter_other _ _ _ _ (fun _ hx => (List.mem_filter.1 ((sortBy_perm _ _).subset hx)).2) hr

theorem inIndexOrder_keeps_ascending {b b' : Block} {k k' : SourceKind} (h : b ≠ b' ∨ k ≠ k') {l : List (Block × Report)}
    (hl : AscendingFor b' k' l) : AscendingFor b' k' (inIndexOrder b k l) := by
  unfold AscendingFor
  rw [inIndexOrder_other]
  · exact hl
  · intro x hx
    simp only [Bool.and_eq_true, beq_iff_eq] at hx
    rcases h with h | h
    · simp [hx.1, h.symm]
    · simp [hx.2, h.symm]

/-- The neighbours of the Pressure Supervisor report in ascending index of one kind (R150). -/
theorem neighbourOrder_ascending (l : List (Block × Report)) :
    AscendingFor .ogt .outage (neighbourOrder l) ∧ AscendingFor .clr .call (neighbourOrder l)
      ∧ AscendingFor .clr .sect (neighbourOrder l) :=
  ⟨inIndexOrder_ascending _ _ _, inIndexOrder_keeps_ascending (by decide) (inIndexOrder_ascending _ _ _),
    inIndexOrder_keeps_ascending (by decide) (inIndexOrder_keeps_ascending (by decide) (inIndexOrder_ascending _ _ _))⟩

/-- The Pressure Supervisor's own reports stay in entry order (R124). -/
theorem neighbourOrder_psv (l : List (Block × Report)) :
    (neighbourOrder l).filter (fun x => x.1 == .psv) = l.filter (fun x => x.1 == .psv) := by
  unfold neighbourOrder
  rw [inIndexOrder_other, inIndexOrder_other, inIndexOrder_other] <;> intro x hx <;>
    simp only [beq_iff_eq] at hx <;> simp [hx]

/-- The Pressure Supervisor, the Outage Table and the Call Register report in ascending index of one kind (R150). -/
theorem reportOrder_ascending (l : List (Block × Report)) :
    AscendingFor .psv .point (reportOrder l) ∧ AscendingFor .ogt .outage (reportOrder l)
      ∧ AscendingFor .clr .call (reportOrder l) ∧ AscendingFor .clr .sect (reportOrder l) :=
  have h := neighbourOrder_ascending l
  ⟨inIndexOrder_ascending _ _ _, inIndexOrder_keeps_ascending (by decide) h.1,
    inIndexOrder_keeps_ascending (by decide) h.2.1, inIndexOrder_keeps_ascending (by decide) h.2.2⟩

@[simp] theorem neighbourOrder_nil : neighbourOrder [] = [] := rfl

@[simp] theorem neighbourOrder_single (x : Block × Report) : neighbourOrder [x] = [x] :=
  List.perm_singleton.1 (neighbourOrder_perm [x])

/-- The reports of one block about one condition keep their order (R150). -/
theorem reportOrder_filter (b : Block) (c : CondId) (l : List (Block × Report)) :
    (reportOrder l).filter (fun x => x.1 == b && x.2.cond == c) = l.filter (fun x => x.1 == b && x.2.cond == c) := by
  rw [reportOrder, inIndexOrder_filter, neighbourOrder_filter]

@[simp] theorem reportOrder_nil : reportOrder [] = [] := rfl

@[simp] theorem reportOrder_single (x : Block × Report) : reportOrder [x] = [x] :=
  List.perm_singleton.1 (reportOrder_perm [x])

theorem reportOrder_isEmpty (l : List (Block × Report)) : (reportOrder l).isEmpty = l.isEmpty := by
  have h := (reportOrder_perm l).length_eq
  cases l <;> cases hb : reportOrder _ <;> simp_all

/-! ## The end of an event -/

theorem writeReasons_keeps {P : Net → Prop} (hc : PlanClosed P) (l : List PlanMark) (n : Net) (h : P n) :
    P (writeReasons l n) := by
  induction l generalizing n with
  | nil => exact h
  | cons x t ih =>
    refine ih _ ?_
    split
    · exact hc.plans _ _ h
    · exact h

/-- The network after an event: a property that plan writes keep holds if it holds of the event. -/
theorem finish_net_keeps {P : Net → Prop} (hc : PlanClosed P) (e : Event) (s : State) (h : P e.net) :
    P (finish e s).net := writeReasons_keeps hc _ _ h

theorem event_net_keeps {P : Net → Prop} (hc : PlanClosed P) (f : Event → Event) (s : State)
    (h : P (f (Event.start s)).net) : P (event f s).net := writeReasons_keeps hc _ _ h

/-- An event leaves everything but the network blocks, the alarm list and the notices. -/
theorem finishWith_rest (w : AluWork) (e : Event) (s : State) : KeepsRest none s (finishWith w e s) where
  pending := rfl
  cfu := rfl
  tbu := rfl
  msc := rfl
  role q := deliverAll_role _ _ _ q
  classes q := deliverAll_classes _ _ _ q
  buffer q := deliverAll_buffer _ _ _ q
  dataOut q := deliverAll_dataOut _ _ _ q
  response q _ := deliverAll_response _ _ _ q
  lastRequest q _ := deliverAll_lastRequest _ _ _ q

theorem finishAsMade_rest (e : Event) (s : State) : KeepsRest none s (finishAsMade e s) := finishWith_rest _ _ s

theorem finish_rest (e : Event) (s : State) : KeepsRest none s (finish e s) := finishWith_rest _ _ s

theorem event_rest (f : Event → Event) (s : State) : KeepsRest none s (event f s) := finishWith_rest _ _ s

/-- A notice posted reaches every subscriber. -/
theorem finishWith_notified (w : AluWork) (e : Event) (s : State) (b : Block) (y : NoticeBody) (l : List PortId)
    (c : NoticeClass) (hy : noticeClass y = some c) (h : (b, { body := y, also := l }) ∈ e.posts) :
    Notified c y s (finishWith w e s) := by
  intro q hq
  refine deliverAll_reaches s.tbu.clock _ s.ports q { body := y, also := l } ?_ ?_
  · rw [mem_merge]
    exact ⟨b, by simp [eventPosts, h]⟩
  · simp [entitled, hy, hq]

theorem finishAsMade_notified (e : Event) (s : State) (b : Block) (y : NoticeBody) (l : List PortId) (c : NoticeClass)
    (hy : noticeClass y = some c) (h : (b, { body := y, also := l }) ∈ e.posts) : Notified c y s (finishAsMade e s) :=
  finishWith_notified _ _ s b y l c hy h

theorem finish_notified (e : Event) (s : State) (b : Block) (y : NoticeBody) (l : List PortId) (c : NoticeClass)
    (hy : noticeClass y = some c) (h : (b, { body := y, also := l }) ∈ e.posts) : Notified c y s (finish e s) :=
  finishWith_notified _ _ s b y l c hy h

/-! ## Requests (R170 to R172) -/

@[simp] theorem hornSounds_def (a : Alu) : hornSounds a = decide (a.horn ≠ .silent) := by
  unfold hornSounds; split <;> simp_all

/-- A response answers the request. -/
theorem answered_respond (p : PortId) (tag : Byte) (st : Status) (body : List Byte) (s : State)
    (h : (s.ports.get p).lastRequest = s.tbu.uptime) : Answered p tag st body (respond p tag st body s) := by
  constructor <;> simp [respond, State.setPort, composed, h]

theorem respond_get_other (p q : PortId) (tag : Byte) (st : Status) (body : List Byte) (s : State) (h : q ≠ p) :
    (respond p tag st body s).ports.get q = s.ports.get q := by simp [h]

theorem renew_lastRequest (p : PortId) (s : State) : ((renew p s).ports.get p).lastRequest = s.tbu.uptime := by simp

theorem respond_renew_only (p : PortId) (tag : Byte) (st : Status) (body : List Byte) (s : State) :
    OnlyAnswered p s (respond p tag st body (renew p s)) := by
  simp [OnlyAnswered, respond, renew, State.setPort]

/-- What a request leaves as it was, from what its event leaves. -/
theorem respond_rest (p : PortId) (tag : Byte) (st : Status) (body : List Byte) (s t : State)
    (h : KeepsRest none (renew p s) t) : KeepsRest (some p) s (respond p tag st body t) where
  pending := h.pending
  cfu := h.cfu
  tbu := h.tbu
  msc := h.msc
  role q := by
    have := h.role q
    by_cases hq : q = p
    · subst hq; simpa using this
    · simpa [hq] using this
  classes q := by
    have := h.classes q
    by_cases hq : q = p
    · subst hq; simpa using this
    · simpa [hq] using this
  buffer q := by
    have := h.buffer q
    by_cases hq : q = p
    · subst hq; simpa using this
    · simpa [hq] using this
  dataOut q := by
    have := h.dataOut q
    by_cases hq : q = p
    · subst hq; simpa using this
    · simpa [hq] using this
  response q hq := by
    have hne : q ≠ p := fun he => hq (by rw [he])
    have := h.response q (by simp)
    simpa [hne] using this
  lastRequest q hq := by
    have hne : q ≠ p := fun he => hq (by rw [he])
    have := h.lastRequest q (by simp)
    simpa [hne] using this

/-- A request that passes checks 2 and 3 runs its owner's act. -/
theorem request_taken (c : ReqClass) (p : PortId) (tag : Byte) (act : State → Answer) (s : State)
    (hr : s.cfu.inReset = false) (h : refusalOf (renew p s) c p = none) :
    request c p tag act s = respond p tag (act (renew p s)).2.1 (act (renew p s)).2.2 (act (renew p s)).1 := by
  simp [request, hr, h]

/-- Checks 2 and 3 pass in RUNNING for a role that the class permits. -/
theorem refusalOf_running (c : ReqClass) (p : PortId) (s : State) (roles : List Role) (h : CanSend roles p s)
    (hp : ∀ r ∈ roles, permits r c = true) : refusalOf (renew p s) c p = none := by
  obtain ⟨⟨_, hd⟩, r, hr, hrole⟩ := h
  simp [refusalOf, hd, hrole, hp r hr]

theorem request_canSend (c : ReqClass) (p : PortId) (tag : Byte) (act : State → Answer) (s : State) (roles : List Role)
    (h : CanSend roles p s) (hp : ∀ r ∈ roles, permits r c = true) :
    request c p tag act s = respond p tag (act (renew p s)).2.1 (act (renew p s)).2.2 (act (renew p s)).1 :=
  request_taken c p tag act s h.1.1 (refusalOf_running c p s roles h hp)

/-- An event renews nobody: the requesting port's last-request time stays the uptime. -/
theorem finishWith_lastRequest (w : AluWork) (e : Event) (s : State) (p : PortId) :
    ((finishWith w e s).ports.get p).lastRequest = (s.ports.get p).lastRequest := deliverAll_lastRequest _ _ _ p

/-- An act that refuses: only the port is answered. -/
theorem refused_of (c : ReqClass) (p : PortId) (tag : Byte) (act : State → Answer) (s : State) (roles : List Role)
    (st : Status) (body : List Byte) (h : CanSend roles p s) (hp : ∀ r ∈ roles, permits r c = true)
    (ha : act (renew p s) = (renew p s, st, body)) :
    OnlyAnswered p s (request c p tag act s) ∧ Answered p tag st body (request c p tag act s) := by
  rw [request_canSend c p tag act s roles h hp, ha]
  exact ⟨respond_renew_only p tag st body s, answered_respond p tag st body _ (by simp)⟩

/-- An act that is one event of the network blocks. -/
theorem taken_of (c : ReqClass) (p : PortId) (tag : Byte) (act : State → Answer) (s : State) (roles : List Role)
    (st : Status) (body : List Byte) (w : AluWork) (e : Event) (h : CanSend roles p s)
    (hp : ∀ r ∈ roles, permits r c = true) (ha : act (renew p s) = (finishWith w e (renew p s), st, body)) :
    request c p tag act s = respond p tag st body (finishWith w e (renew p s))
      ∧ Answered p tag st body (request c p tag act s) ∧ KeepsRest (some p) s (request c p tag act s) := by
  rw [request_canSend c p tag act s roles h hp, ha]
  refine ⟨rfl, answered_respond p tag st body _ ?_, respond_rest p tag st body s _ (finishWith_rest _ _ _)⟩
  rw [finishWith_lastRequest]
  simp

end Sys2Proof.Machine
end

