-- ==== Sys2Proof/Laws/PerInstr.lean ====
section
/-!
SUPPORT. What holds of every command as syntax: the body of a well-formed request fits in a request frame (R180).
-/

namespace Sys2Proof.Laws.RequestFits

/-- The body that encodes a well-formed request is no longer than a frame admits. -/
def Statement (i : Instr) : Prop :=
  ∀ p tag code body, i.wf = true → encodeRequest i = some (p, tag, code, body) → body.length ≤ 240

/-- A row that is no request has no body. -/
theorem noBody {i : Instr} (h : encodeRequest i = none) : Statement i := by
  intro p tag code body _ e
  rw [h] at e
  exact absurd e (by simp)

/-- A request of a fixed form. -/
theorem fixedBody {i : Instr} {p : PortId} {tag code : Byte} {l : List Byte} (h : encodeRequest i = some (p, tag, code, l))
    (hl : Nat.ble l.length 240 = true) : Statement i := by
  intro q t c body _ e
  rw [h] at e
  simp only [Option.some.injEq, Prod.mk.injEq] at e
  obtain ⟨_, _, _, rfl⟩ := e
  exact Nat.le_of_ble_eq_true hl

/-- A request whose body the sender gives. -/
theorem givenBody {i : Instr} {p : PortId} {tag code : Byte} {l : List Byte} (h : encodeRequest i = some (p, tag, code, l))
    (hw : i.wf = fitsFrame l) : Statement i := by
  intro q t c body w e
  rw [h] at e
  simp only [Option.some.injEq, Prod.mk.injEq] at e
  obtain ⟨_, _, _, rfl⟩ := e
  rw [hw] at w
  exact of_decide_eq_true w

theorem powerOnReset : Statement .powerOnReset := noBody rfl

theorem lineReset : Statement .lineReset := noBody rfl

theorem transfer a b : Statement (.transfer a b) := noBody rfl

theorem null a b : Statement (.null a b) := fixedBody rfl rfl

theorem readIdentity a b : Statement (.readIdentity a b) := fixedBody rfl rfl

theorem readStatus a b : Statement (.readStatus a b) := fixedBody rfl rfl

theorem beginConfig a b : Statement (.beginConfig a b) := fixedBody rfl rfl

theorem loadRecords a b c : Statement (.loadRecords a b c) := givenBody rfl rfl

theorem commitConfig a b c : Statement (.commitConfig a b c) := fixedBody rfl rfl

theorem abandonConfig a b : Statement (.abandonConfig a b) := fixedBody rfl rfl

theorem setClock a b c : Statement (.setClock a b c) := fixedBody rfl rfl

theorem readNotices a b : Statement (.readNotices a b) := fixedBody rfl rfl

theorem readTrial a b : Statement (.readTrial a b) := fixedBody rfl rfl

theorem readPorts a b : Statement (.readPorts a b) := fixedBody rfl rfl

theorem readDefinition a b c d : Statement (.readDefinition a b c d) := fixedBody rfl rfl

theorem readSection a b c : Statement (.readSection a b c) := fixedBody rfl rfl

theorem readValve a b c : Statement (.readValve a b c) := fixedBody rfl rfl

theorem readSource a b c : Statement (.readSource a b c) := fixedBody rfl rfl

theorem readPoint a b c : Statement (.readPoint a b c) := fixedBody rfl rfl

theorem readLines a b : Statement (.readLines a b) := fixedBody rfl rfl

theorem readLamps a b : Statement (.readLamps a b) := fixedBody rfl rfl

theorem readPlan a b c : Statement (.readPlan a b c) := fixedBody rfl rfl

theorem readOutage a b c d : Statement (.readOutage a b c d) := fixedBody rfl rfl

theorem readCall a b c : Statement (.readCall a b c) := fixedBody rfl rfl

theorem readAlarms a b c : Statement (.readAlarms a b c) := fixedBody rfl rfl

theorem readWithheld a b c : Statement (.readWithheld a b c) := fixedBody rfl rfl

theorem confirmClosed a b c : Statement (.confirmClosed a b c) := fixedBody rfl rfl

theorem confirmOpen a b c : Statement (.confirmOpen a b c) := fixedBody rfl rfl

theorem reportInoperable a b c : Statement (.reportInoperable a b c) := fixedBody rfl rfl

theorem verifyPosition a b c d : Statement (.verifyPosition a b c d) := fixedBody rfl rfl

theorem planCreate a b c : Statement (.planCreate a b c) := fixedBody rfl rfl

theorem planAddValve a b c d : Statement (.planAddValve a b c d) := fixedBody rfl rfl

theorem planRemoveValve a b c d : Statement (.planRemoveValve a b c d) := fixedBody rfl rfl

theorem planAssess a b c : Statement (.planAssess a b c) := fixedBody rfl rfl

theorem planDeclareOutage a b c d : Statement (.planDeclareOutage a b c d) := fixedBody rfl rfl

theorem planExecute a b c : Statement (.planExecute a b c) := fixedBody rfl rfl

theorem planAbort a b c : Statement (.planAbort a b c) := fixedBody rfl rfl

theorem planRetry a b c : Statement (.planRetry a b c) := fixedBody rfl rfl

theorem planRestore a b c : Statement (.planRestore a b c) := fixedBody rfl rfl

theorem planRelease a b c : Statement (.planRelease a b c) := fixedBody rfl rfl

theorem planTakeOver a b c : Statement (.planTakeOver a b c) := fixedBody rfl rfl

theorem sourceOut a b c : Statement (.sourceOut a b c) := fixedBody rfl rfl

theorem sourceIn a b c : Statement (.sourceIn a b c) := fixedBody rfl rfl

theorem setLimits a b c d e f g h i : Statement (.setLimits a b c d e f g h i) := fixedBody rfl rfl

theorem trial a b c : Statement (.trial a b c) := givenBody rfl rfl

theorem outageConfirmSection a b c d : Statement (.outageConfirmSection a b c d) := fixedBody rfl rfl

theorem outageRelit a b c d : Statement (.outageRelit a b c d) := fixedBody rfl rfl

theorem outageNoAccess a b c d : Statement (.outageNoAccess a b c d) := fixedBody rfl rfl

theorem callNew a b c d e f g h : Statement (.callNew a b c d e f g h) := fixedBody rfl rfl

theorem callAssign a b c d : Statement (.callAssign a b c d) := fixedBody rfl rfl

theorem callArrived a b c : Statement (.callArrived a b c) := fixedBody rfl rfl

theorem callMadeSafe a b c : Statement (.callMadeSafe a b c) := fixedBody rfl rfl

theorem callClose a b c : Statement (.callClose a b c) := fixedBody rfl rfl

theorem callCancel a b c : Statement (.callCancel a b c) := fixedBody rfl rfl

theorem callRegrade a b c d : Statement (.callRegrade a b c d) := fixedBody rfl rfl

theorem sampleBatch a b c : Statement (.sampleBatch a b c) := givenBody rfl rfl

theorem alarmAck a b c : Statement (.alarmAck a b c) := fixedBody rfl rfl

theorem hornSilence a b : Statement (.hornSilence a b) := fixedBody rfl rfl

theorem lampTest a b : Statement (.lampTest a b) := fixedBody rfl rfl

theorem scanTick a : Statement (.scanTick a) := noBody rfl

theorem oneSecondTick : Statement .oneSecondTick := noBody rfl

theorem lineChange a : Statement (.lineChange a) := noBody rfl

theorem travelTimerExpiry a : Statement (.travelTimerExpiry a) := noBody rfl

theorem liveWalkCompletes : Statement .liveWalkCompletes := noBody rfl

theorem trialCompletes : Statement .trialCompletes := noBody rfl

theorem rechargeHoldExpiry a b : Statement (.rechargeHoldExpiry a b) := noBody rfl

theorem stalenessExpiry a : Statement (.stalenessExpiry a) := noBody rfl

theorem deadlineExpiry a : Statement (.deadlineExpiry a) := noBody rfl

theorem realarmExpiry a : Statement (.realarmExpiry a) := noBody rfl

theorem stepTick : Statement .stepTick := noBody rfl

theorem cadencePartEnd : Statement .cadencePartEnd := noBody rfl

theorem mimicRowScan : Statement .mimicRowScan := noBody rfl

theorem lampTestEnd : Statement .lampTestEnd := noBody rfl

theorem leaveReset : Statement .leaveReset := noBody rfl

end Sys2Proof.Laws.RequestFits
end

