-- ==== Sys2Proof/Laws/Validation.lean ====
section
/-!
SUPPORT. Each test of a record at commit is the constraint of its kind (R4 to R13), and the record that a table names is
the first in key order that fails its test (R3).
-/

namespace Sys2Proof.Machine

theorem hasRole_iff (m : Image) (n : Nat) (r : LineRole) : hasRole m n r = true ↔ LineHasRole m n r := by
  unfold hasRole LineHasRole
  cases lookup n m.lines <;> simp

theorem isDefined_iff {α : Type} (k : Nat) (t : Table α) : isDefined k t = true ↔ lookup k t ≠ none := by
  unfold isDefined; cases lookup k t <;> simp

theorem validSection_iff (m : Image) (k : Nat) (d : SectionDef) : validSection m k d = true ↔ SectionOK m k d := by
  unfold validSection
  constructor
  · intro h
    simp only [Bool.and_eq_true, decide_eq_true_eq] at h
    refine ⟨h.1, fun n hn => ?_⟩
    have := h.2
    simp only [hn] at this
    cases hl : lookup n m.sources with
    | none => simp [hl] at this
    | some x => exact ⟨x, rfl, by simpa [hl] using this⟩
  · rintro ⟨h1, h2⟩
    simp only [Bool.and_eq_true, decide_eq_true_eq]
    refine ⟨h1, ?_⟩
    cases hs : d.source with
    | none => rfl
    | some n =>
      obtain ⟨x, hx, he⟩ := h2 n hs
      simp [hx, he]

/-- A test of the actuated valves of lower index. -/
theorem actuatedBelow_all (m : Image) (k : Nat) (f : ValveDef → Bool) (hw : m.valves.wf = true) :
    (actuatedBelow m k).all f = true ↔
      ∀ j e, j < k → lookup j m.valves = some e → e.kind = .actuated → f e = true := by
  simp only [actuatedBelow, List.all_eq_true, List.mem_map, List.mem_filter, Bool.and_eq_true, decide_eq_true_eq,
    beq_iff_eq]
  constructor
  · intro h j e hj he hk
    exact h e ⟨(j, e), ⟨mem_of_lookup he, hj, hk⟩, rfl⟩
  · rintro h e ⟨⟨j, e'⟩, ⟨hm, hj, hk⟩, rfl⟩
    exact h j e' hj (lookup_of_mem hw hm) hk

/-- A test of the sources of lower number. -/
theorem sourcesBelow_all (m : Image) (k : Nat) (f : SourceDef → Bool) (hw : m.sources.wf = true) :
    (sourcesBelow m k).all f = true ↔ ∀ j e, j < k → lookup j m.sources = some e → f e = true := by
  simp only [sourcesBelow, List.all_eq_true, List.mem_map, List.mem_filter, decide_eq_true_eq]
  constructor
  · intro h j e hj he
    exact h e ⟨(j, e), ⟨mem_of_lookup he, hj⟩, rfl⟩
  · rintro h e ⟨⟨j, e'⟩, ⟨hm, hj⟩, rfl⟩
    exact h j e' hj (lookup_of_mem hw hm)

theorem validActuated_iff (m : Image) (k : Nat) (d : ValveDef) (hw : m.valves.wf = true) :
    validActuated m k d = true ↔ ActuatedOK m k d := by
  unfold validActuated
  constructor
  · intro h
    split at h
    · rename_i t co oo cl ol ht hco hoo hcl hol
      simp only [Bool.and_eq_true, decide_eq_true_eq, actuatedBelow_all m k _ hw, hasRole_iff, bne_iff_ne, ne_eq,
        Bool.not_eq_true', namesOutput, namesLimit, Bool.or_eq_false_iff, beq_eq_false_iff_ne] at h
      obtain ⟨⟨⟨⟨⟨⟨⟨⟨⟨⟨h1, h2⟩, h3⟩, h4⟩, h5⟩, h6⟩, h7⟩, h8⟩, h9⟩, h10⟩, h11⟩ := h
      refine ⟨⟨t, ht, h1, h2⟩, ⟨co, oo, hco, hoo, h3, h4, h5, fun j e hj he hk => ?_⟩,
        ⟨cl, ol, hcl, hol, h7, fun j e hj he hk => ?_, h9, h10⟩, ?_⟩
      · have := h6 j e hj he hk
        exact ⟨by simp [Ne.symm this.1.1, Ne.symm this.1.2], by simp [Ne.symm this.2.1, Ne.symm this.2.2]⟩
      · have := h8 j e hj he hk
        exact ⟨by simp [Ne.symm this.1.1, Ne.symm this.1.2], by simp [Ne.symm this.2.1, Ne.symm this.2.2]⟩
      · simpa [actuatedBelow, Config.actuatedValves] using h11
    · simp at h
  · rintro ⟨⟨t, ht, h1, h2⟩, ⟨co, oo, hco, hoo, h3, h4, h5, h6⟩, ⟨cl, ol, hcl, hol, h7, h8, h9, h10⟩, h11⟩
    simp only [ht, hco, hoo, hcl, hol]
    simp only [Bool.and_eq_true, decide_eq_true_eq, actuatedBelow_all m k _ hw, hasRole_iff, bne_iff_ne, ne_eq,
        Bool.not_eq_true', namesOutput, namesLimit, Bool.or_eq_false_iff, beq_eq_false_iff_ne]
    refine ⟨⟨⟨⟨⟨⟨⟨⟨⟨⟨h1, h2⟩, h3⟩, h4⟩, h5⟩, fun j e hj he hk => ?_⟩, h7⟩, fun j e hj he hk => ?_⟩, h9⟩, h10⟩, ?_⟩
    · obtain ⟨ha, hb⟩ := h6 j e hj he hk
      simp only [List.mem_cons, List.not_mem_nil, or_false, not_or] at ha hb
      exact ⟨⟨Ne.symm ha.1, Ne.symm ha.2⟩, Ne.symm hb.1, Ne.symm hb.2⟩
    · obtain ⟨ha, hb⟩ := h8 j e hj he hk
      simp only [List.mem_cons, List.not_mem_nil, or_false, not_or] at ha hb
      exact ⟨⟨Ne.symm ha.1, Ne.symm ha.2⟩, Ne.symm hb.1, Ne.symm hb.2⟩
    · simpa [actuatedBelow, Config.actuatedValves] using h11

theorem validManual_iff (d : ValveDef) : validManual d = true ↔
    d.timeout = none ∧ d.closeOutput = none ∧ d.openOutput = none ∧ d.closedLimit = none ∧ d.openLimit = none := by
  simp [validManual, and_assoc]

theorem validValve_iff (m : Image) (k : Nat) (d : ValveDef) (hw : m.valves.wf = true) :
    validValve m k d = true ↔ ValveOK m k d := by
  unfold validValve
  simp only [Bool.and_eq_true, isDefined_iff, bne_iff_ne, ne_eq, Bool.or_eq_true, beq_iff_eq]
  constructor
  · rintro ⟨⟨⟨⟨h1, h2⟩, h3⟩, h4⟩, h5⟩
    refine ⟨⟨h1, h2, h3⟩, h4, fun hk => ?_, fun hk => ?_⟩
    · exact (validManual_iff d).1 (by simpa [hk] using h5)
    · exact (validActuated_iff m k d hw).1 (by simpa [hk] using h5)
  · rintro ⟨⟨h1, h2, h3⟩, h4, h5, h6⟩
    refine ⟨⟨⟨⟨h1, h2⟩, h3⟩, h4⟩, ?_⟩
    cases hk : d.kind
    · exact (validManual_iff d).2 (h5 hk)
    · exact (validActuated_iff m k d hw).2 (h6 hk)

theorem validSource_iff (m : Image) (k : Nat) (d : SourceDef) (hw : m.sources.wf = true) :
    validSource m k d = true ↔ SourceOK m k d := by
  unfold validSource
  simp only [Bool.and_eq_true, sourcesBelow_all m k _ hw, bne_iff_ne, ne_eq]
  have hs : ((lookup d.sect m.sections).map (fun x => x.source == some k)).getD false = true ↔
      ∃ x, lookup d.sect m.sections = some x ∧ x.source = some k := by
    cases lookup d.sect m.sections <;> simp
  rw [hs]
  constructor
  · rintro ⟨⟨⟨h1, h2⟩, h3⟩, h4⟩
    refine ⟨h1, h2, fun n hn => ?_, fun n hn => ?_⟩
    · simpa [hn, hasRole_iff, sourcesBelow_all m k _ hw] using h3
    · simp only [hn, Bool.and_eq_true, sourcesBelow_all m k _ hw, bne_iff_ne, ne_eq] at h4
      refine ⟨?_, h4.2⟩
      have := h4.1
      cases hl : lookup n m.points with
      | none => simp [hl] at this
      | some x => exact ⟨x, rfl, by simpa [hl] using this⟩
  · rintro ⟨h1, h2, h3, h4⟩
    refine ⟨⟨⟨h1, h2⟩, ?_⟩, ?_⟩
    · cases ht : d.tripLine with
      | none => rfl
      | some n => simpa [hasRole_iff, sourcesBelow_all m k _ hw] using h3 n ht
    · cases ho : d.outlet with
      | none => rfl
      | some n =>
        obtain ⟨⟨x, hx, he⟩, h5⟩ := h4 n ho
        simp only [Bool.and_eq_true, sourcesBelow_all m k _ hw, bne_iff_ne, ne_eq]
        exact ⟨by simp [hx, he], h5⟩

theorem validPoint_iff (m : Image) (k : Nat) (d : PointDef) : validPoint m k d = true ↔ PointOK m d := by
  unfold validPoint limitsValid
  simp only [Bool.and_eq_true, isDefined_iff, decide_eq_true_eq]
  constructor
  · rintro ⟨⟨⟨⟨⟨⟨⟨h1, ⟨⟨⟨⟨h2, h3⟩, h4⟩, h5⟩, h6⟩, h7⟩, h8⟩, h9⟩, h10⟩, h11⟩, h12⟩, h13⟩
    exact ⟨h1, ⟨h2, h3, h4⟩, h5, ⟨h6, h7⟩, ⟨h8, h9⟩, ⟨h10, h11⟩, h12, h13⟩
  · rintro ⟨h1, ⟨h2, h3, h4⟩, h5, ⟨h6, h7⟩, ⟨h8, h9⟩, ⟨h10, h11⟩, h12, h13⟩
    exact ⟨⟨⟨⟨⟨⟨⟨h1, ⟨⟨⟨⟨h2, h3⟩, h4⟩, h5⟩, h6⟩, h7⟩, h8⟩, h9⟩, h10⟩, h11⟩, h12⟩, h13⟩

theorem validLine_iff (m : Image) (k : Nat) (d : LineDef) (hv : m.valves.wf = true) (hs : m.sources.wf = true) :
    validLine m k d = true ↔ LineOK m k d := by
  have hl : m.valves.any (fun x => x.2.kind == .actuated && namesLimit k x.2) = true ↔
      ∃ v e, lookup v m.valves = some e ∧ e.kind = .actuated ∧ (e.closedLimit = some k ∨ e.openLimit = some k) := by
    simp only [List.any_eq_true, Bool.and_eq_true, beq_iff_eq, namesLimit, Bool.or_eq_true]
    exact ⟨fun ⟨⟨v, e⟩, hm, h1, h2⟩ => ⟨v, e, lookup_of_mem hv hm, h1, h2⟩,
      fun ⟨v, e, hm, h1, h2⟩ => ⟨(v, e), mem_of_lookup hm, h1, h2⟩⟩
  have ht : m.sources.any (fun x => x.2.tripLine == some k) = true ↔
      ∃ n e, lookup n m.sources = some e ∧ e.tripLine = some k := by
    simp only [List.any_eq_true, beq_iff_eq]
    exact ⟨fun ⟨⟨v, e⟩, hm, h1⟩ => ⟨v, e, lookup_of_mem hs hm, h1⟩,
      fun ⟨v, e, hm, h1⟩ => ⟨(v, e), mem_of_lookup hm, h1⟩⟩
  unfold validLine
  simp only [Bool.and_eq_true, decide_eq_true_eq]
  constructor
  · rintro ⟨h1, h2⟩
    refine ⟨h1, fun hr => ?_, fun hr => ?_, ?_⟩
    · simp only [hr, Bool.and_eq_true, hl] at h2
      exact h2.2
    · simp only [hr, Bool.and_eq_true, ht] at h2
      exact h2.2
    · cases hr : d.role <;> cases hd : d.route <;> simp_all
  · rintro ⟨h1, h2, h3, h4⟩
    refine ⟨h1, ?_⟩
    cases hr : d.role <;> simp only [Bool.and_eq_true, hl, ht]
    · exact ⟨by simpa using h4.2 (by simp [hr]), h2 hr⟩
    · exact ⟨by simpa using h4.2 (by simp [hr]), h3 hr⟩
    · cases hd : d.route
      · exact absurd (h4.1 hd) (by simp [hr])
      · rfl
    · simpa using h4.2 (by simp [hr])

theorem validLamp_iff (m : Image) (k : Nat) (d : LampDef) : validLamp m k d = true ↔ LampOK m d := by
  unfold validLamp LampOK
  cases d.kind <;> simp [isDefined_iff]

theorem validParameters_iff (d : Parameters) : validParameters d = true ↔ ParametersOK d := by
  unfold validParameters within
  constructor
  · intro h
    simp at h
    refine ⟨?_, by omega, by omega, by omega, by omega, by omega, by omega, by omega, by omega⟩
    simp
    omega
  · rintro ⟨h1, h2, h3, h4, h5, h6, h7, h8, h9⟩
    simp at h1
    simp
    omega

theorem validCadence_iff (k : Nat) (d : CadenceDef) : validCadence k d = true ↔
    1 ≤ d.onSteps ∧ d.onSteps ≤ 20 ∧ 1 ≤ d.offSteps ∧ d.offSteps ≤ 20 := by
  simp [validCadence, within, and_assoc]

/-- The record that a table names: one breaks its constraint and none before it does. -/
theorem offenderIn_eq_some {α : Type} (kind : RecordKind) (ok : Nat → α → Bool) (t : Table α) (hw : t.wf = true)
    (x : Offender) : offenderIn kind ok t = some x ↔
      ∃ k d, x = { kind := kind, key := some k } ∧ lookup k t = some d ∧ ok k d = false
        ∧ ∀ j e, j < k → lookup j t = some e → ok j e = true := by
  induction t with
  | nil => simp [offenderIn]
  | cons y t ih =>
    obtain ⟨i, w⟩ := y
    have hr := (keysRising_cons i (keys t)).1 hw
    unfold offenderIn
    cases hi : ok i w
    · simp only [Bool.false_eq_true, if_false, Option.some.injEq]
      constructor
      · rintro rfl
        refine ⟨i, w, rfl, by simp [lookup], hi, fun j e hj he => ?_⟩
        have : j ∈ keys ((i, w) :: t) := (mem_keys_iff_lookup _ _).2 (by simp [he])
        rcases List.mem_cons.1 this with rfl | hm
        · omega
        · have := hr.1 j hm
          omega
      · rintro ⟨k, d, rfl, hk, hb, ha⟩
        by_cases he : i = k
        · rw [he]
        · exfalso
          have hm : k ∈ keys ((i, w) :: t) := (mem_keys_iff_lookup _ _).2 (by simp [hk])
          rcases List.mem_cons.1 hm with rfl | hm
          · exact he rfl
          · have := ha i w (hr.1 k hm) (by simp [lookup])
            simp [hi] at this
    · simp only [if_true, ih hr.2]
      constructor
      · rintro ⟨k, d, hx, hk, hb, ha⟩
        have hm : k ∈ keys t := (mem_keys_iff_lookup _ _).2 (by simp [hk])
        have hne : i ≠ k := Nat.ne_of_lt (hr.1 k hm)
        refine ⟨k, d, hx, by simp [lookup, hne, hk], hb, fun j e hj he => ?_⟩
        by_cases hij : i = j
        · subst hij
          simp [lookup] at he
          rw [← he]; exact hi
        · exact ha j e hj (by simpa [lookup, hij] using he)
      · rintro ⟨k, d, hx, hk, hb, ha⟩
        have hne : i ≠ k := by
          rintro rfl
          simp [lookup] at hk
          rw [← hk, hi] at hb
          simp at hb
        refine ⟨k, d, hx, by simpa [lookup, hne] using hk, hb, fun j e hj he => ?_⟩
        by_cases hij : i = j
        · subst hij
          have : i ∈ keys t := (mem_keys_iff_lookup _ _).2 (by simp [he])
          have := hr.1 i this
          omega
        · exact ha j e hj (by simpa [lookup, hij] using he)

theorem offenderIn_eq_none {α : Type} (kind : RecordKind) (ok : Nat → α → Bool) (t : Table α) (hw : t.wf = true) :
    offenderIn kind ok t = none ↔ ∀ k d, lookup k t = some d → ok k d = true := by
  induction t with
  | nil => simp [offenderIn]
  | cons y t ih =>
    obtain ⟨i, w⟩ := y
    have hr := (keysRising_cons i (keys t)).1 hw
    unfold offenderIn
    cases hi : ok i w
    · simp only [Bool.false_eq_true, if_false, reduceCtorEq, false_iff, not_forall]
      exact ⟨i, w, by simp [lookup], by simp [hi]⟩
    · simp only [if_true, ih hr.2]
      constructor
      · intro h k d hk
        by_cases he : i = k
        · subst he
          simp [lookup] at hk
          rw [← hk]; exact hi
        · exact h k d (by simpa [lookup, he] using hk)
      · intro h k d hk
        have hm : k ∈ keys t := (mem_keys_iff_lookup _ _).2 (by simp [hk])
        exact h k d (by simp [lookup, Nat.ne_of_lt (hr.1 k hm), hk])

end Sys2Proof.Machine
end

