-- ==== Sys2Proof/Tests/Slice0.lean ====
section
/-!
SUPPORT. Tests on small states: the checks of WellFormed, words written out from the spec's encodings, one step of the
commands, and for each statement with hypotheses a state and operands that meet them.
-/

set_option maxRecDepth 20000

open Sys2Proof Sys2Proof.Machine

namespace Sys2Proof.Tests

/-! ## A small network -/

/-- Three sections in a row: a source feeds 0, a manual valve joins 0 and 1, an actuated one 1 and 2. -/
def image : Image :=
  { sections := [(0, { premises := 10, priority := 2, source := some 0 }), (1, { premises := 20, priority := 0, source := none }),
                 (2, { premises := 5, priority := 1, source := none })]
    valves := [(0, { sideA := 0, sideB := 1, kind := .manual, recorded := .opened, timeout := none, closeOutput := none,
                     openOutput := none, closedLimit := none, openLimit := none }),
               (1, { sideA := 1, sideB := 2, kind := .actuated, recorded := .opened, timeout := some 30,
                     closeOutput := some 0, openOutput := some 1, closedLimit := some 0, openLimit := some 1 })]
    sources := [(0, { sect := 0, tripLine := some 2, outlet := some 0 })]
    points := [(0, { sect := 0, offset := 5, ll := 100, l := 200, h := 800, hh := 900, deadband := 10, persistence := 2,
                     period := 60, window := 2, threshold := 40 }),
               (1, { sect := 1, offset := -5, ll := 100, l := 200, h := 800, hh := 900, deadband := 10, persistence := 1,
                     period := 60, window := 2, threshold := 40 })]
    lines := [(0, { role := .limit, polarity := .activeHigh, debounce := 2, route := none }),
              (1, { role := .limit, polarity := .activeHigh, debounce := 2, route := none }),
              (2, { role := .trip, polarity := .activeHigh, debounce := 2, route := none }),
              (3, { role := .general, polarity := .activeLow, debounce := 2, route := some .notice })]
    lamps := [(0, { kind := .valve, object := 0 }), (25, { kind := .sect, object := 1 })]
    ports := [(0, { role := .switching, classes := 0x7F }), (1, { role := .dispatch, classes := 0x7F }),
              (2, { role := .telemetry, classes := 0 }), (3, { role := .switching, classes := 0 })]
    parameters := none, cadences := [], priorities := none }

/-- The network right after commit, before its first walk completes; both limit lines INACTIVE, line 3 ACTIVE. -/
def running : State :=
  { State.reset with
    cfu := { State.reset.cfu with device := .running, image := image }
    tbu := { uptime := 200, clock := 1000, clockSet := true }
    net := startWalk (seedNet image 0 0)
    ports := State.reset.ports.map (seedPort image 0) }

/-- The same with another network state. -/
def withNet (f : Net → Net) : State := { running with net := f running.net }

/-- A state whose checks pass for a port of the small network. -/
theorem canSend {s : State} (p : PortId) (r : Role) (roles : List Role) (hc : s.cfu = running.cfu)
    (hp : s.ports = running.ports) (hr : (running.ports.get p).role = some r) (hm : r ∈ roles) : CanSend roles p s :=
  ⟨⟨by rw [hc]; rfl, by rw [hc]; rfl⟩, r, hm, by rw [hp]; exact hr⟩

theorem running_running : Running running := ⟨rfl, rfl⟩

/-- The state that a command leaves. -/
def after (i : Instr) (s : State) : State := stateOf s (exec i s)

theorem test_image_is_valid : offender image.withDefaults = none := by decide

/-! ## Invariants, decided -/

/-- The conditions of TablesSound, to be decided on a small state. -/
def tablesHold (s : State) : Bool :=
  (s.cfu.image.sections.wf && s.net.sections.wf) && (s.cfu.image.valves.wf && s.net.valves.wf)
    && (s.cfu.image.sources.wf && s.net.sources.wf) && (s.cfu.image.points.wf && s.net.points.wf)
    && (s.cfu.image.lines.wf && s.cfu.image.lamps.wf && s.cfu.image.ports.wf && s.cfu.image.cadences.wf)
    && (s.net.plans.wf && decide (∀ k ∈ keys s.net.plans, k < 16))
    && (s.net.outages.wf && decide (∀ k ∈ keys s.net.outages, k < 32))
    && (s.net.calls.wf && decide (∀ k ∈ keys s.net.calls, k < 128))
    && decide (s.net.outages.map (fun x => x.2.number)).Nodup && decide (s.net.calls.map (fun x => x.2.number)).Nodup

theorem tables_sound {s : State} (h : tablesHold s = true) : TablesSound s := by
  simp only [tablesHold, Bool.and_eq_true, decide_eq_true_eq] at h
  obtain ⟨⟨⟨⟨⟨⟨⟨⟨⟨a, b⟩, c⟩, d⟩, ⟨⟨⟨e1, e2⟩, e3⟩, e4⟩⟩, f⟩, g⟩, i⟩, j⟩, k⟩ := h
  exact ⟨a, b, c, d, ⟨e1, e2, e3, e4⟩, f, g, i, j, k⟩

/-- The conditions of OutagesSound, to be decided on a small state. -/
def outagesHold (s : State) : Bool :=
  decide (∀ x ∈ s.net.outages, (memberSections x.2).Nodup ∧ x.2.off + x.2.relit + x.2.noAccess = x.2.affected
      ∧ x.2.affected = ((memberSections x.2).map (premisesOf s.cfu.image)).sum
      ∧ x.2.priority = ((memberSections x.2).map (priorityPremisesOf s.cfu.image)).sum)
    && decide (s.net.outages.Pairwise (fun x y => ∀ k ∈ memberSections x.2, k ∉ memberSections y.2))
    && decide (∀ k ∈ waiting s.net, outageOf k s.net.outages = none)
    && decide (∀ x ∈ s.net.plans, ∀ c ∈ x.2.consequence.toList, c.sections.Nodup)
    && decide (s.cfu.device = .running)

theorem outages_sound {s : State} (h : outagesHold s = true) : OutagesSound s := by
  simp only [outagesHold, Bool.and_eq_true, decide_eq_true_eq] at h
  obtain ⟨⟨⟨⟨a, b⟩, c⟩, d⟩, e⟩ := h
  refine ⟨fun x hx => ?_, b, c, fun x hx k hk => d x hx k (by simp [hk]), fun hn => absurd e hn⟩
  obtain ⟨h1, h2, h3, h4⟩ := a x hx
  exact ⟨h1, h2, h3, h4⟩

/-- The conditions of PlansSound, to be decided on a small state. -/
def plansHold (s : State) : Bool :=
  decide (∀ a ∈ s.net.valves, (∀ x ∈ s.net.plans, a.1 ∈ x.2.valves → a.2.claim = some x.1)
      ∧ ∀ k ∈ a.2.claim.toList, ∃ x ∈ s.net.plans, lookup k s.net.plans = some x.2 ∧ a.1 ∈ x.2.valves)
    && decide (∀ x ∈ s.net.plans, (x.2.state = .executing ∨ x.2.state = .isolated → x.2.direction = .closes)
      ∧ (x.2.state = .restoring ∨ x.2.state = .restored → x.2.direction = .opens)
      ∧ (x.2.state = .held → x.2.direction ≠ .unset))

theorem plans_sound {s : State} (h : plansHold s = true) : PlansSound s := by
  simp only [plansHold, Bool.and_eq_true, decide_eq_true_eq] at h
  obtain ⟨a, b⟩ := h
  refine ⟨fun v y k hv => ⟨fun hc => ?_, fun ⟨x, hx, hm⟩ => ?_⟩, fun k x hx => b _ (mem_of_lookup hx)⟩
  · obtain ⟨x, -, hx, hm⟩ := (a _ (mem_of_lookup hv)).2 k (by simp [hc])
    exact ⟨_, hx, hm⟩
  · exact (a _ (mem_of_lookup hv)).1 _ (mem_of_lookup hx) hm

/-- The conditions of Alu.Sound, to be decided on a small list. -/
def alarmsHold (a : Alu) : Bool :=
  decide (a.entries.length ≤ 96) && decide (a.entries.map Entry.cond ++ a.withheld.map Withheld.cond).Nodup
    && decide (a.withheld ≠ [] → a.entries.length = 96) && decide (a.entries.map Entry.number).Nodup
    && decide (∀ x ∈ a.entries, 1 ≤ x.number ∧ x.number ≤ 65535)

theorem alarms_sound {s : State} (h : alarmsHold s.alu = true) : AlarmsSound s := by
  simp only [alarmsHold, Bool.and_eq_true, decide_eq_true_eq] at h
  obtain ⟨⟨⟨⟨a, b⟩, c⟩, d⟩, e⟩ := h
  exact ⟨a, b, c, d, e⟩

/-! ## WellFormed: an ill-formed term for each check -/

def long : List Byte := List.replicate 241 0

theorem test_wf_refuses_a_long_configuration_body : (Instr.loadRecords .p0 0 long).wf = false := by decide
theorem test_wf_refuses_a_long_trial_body : (Instr.trial .p0 0 long).wf = false := by decide
theorem test_wf_refuses_a_long_sample_body : (Instr.sampleBatch .p0 0 long).wf = false := by decide
theorem test_wf_refuses_line_64 : (Instr.lineChange 64).wf = false := by decide
theorem test_wf_refuses_valve_1024 : (Instr.travelTimerExpiry 1024).wf = false := by decide
theorem test_wf_refuses_outage_0 : (Instr.rechargeHoldExpiry 0 1).wf = false := by decide
theorem test_wf_refuses_outage_65536 : (Instr.rechargeHoldExpiry 65536 1).wf = false := by decide
theorem test_wf_refuses_section_512 : (Instr.rechargeHoldExpiry 1 512).wf = false := by decide
theorem test_wf_refuses_point_256 : (Instr.stalenessExpiry 256).wf = false := by decide
theorem test_wf_refuses_call_0 : (Instr.deadlineExpiry 0).wf = false := by decide
theorem test_wf_refuses_call_65536 : (Instr.deadlineExpiry 65536).wf = false := by decide
theorem test_wf_refuses_realarm_of_call_0 : (Instr.realarmExpiry 0).wf = false := by decide
theorem test_wf_refuses_realarm_of_call_65536 : (Instr.realarmExpiry 65536).wf = false := by decide
theorem test_wf_takes_the_ends_of_the_ranges :
    (Instr.lineChange 63).wf = true ∧ (Instr.travelTimerExpiry 1023).wf = true
      ∧ (Instr.rechargeHoldExpiry 65535 511).wf = true ∧ (Instr.stalenessExpiry 255).wf = true
      ∧ (Instr.deadlineExpiry 1).wf = true := by decide

/-! ## Encodings, written out from Chapter 9 -/

/-- The check value of the CRC-16 of R169 over the ASCII digits 1 to 9. -/
theorem test_crc_of_the_nine_digits : crc16 [0x31, 0x32, 0x33, 0x34, 0x35, 0x36, 0x37, 0x38, 0x39] = 0x29B1 := by decide

/-- SET_CLOCK 00010203h: code 07h, four bytes, most significant first. -/
theorem test_set_clock_is_read :
    (requestRow 0x07).bind (fun r => r.command .p1 0xAA [0x00, 0x01, 0x02, 0x03]) = some (.setClock .p1 0xAA 0x00010203) := by
  decide

/-- PLAN_ADD_VALVE: code 29h, plan, then the valve in two bytes. -/
theorem test_plan_add_valve_is_read :
    (requestRow 0x29).bind (fun r => r.command .p0 0x01 [0x05, 0x01, 0x02]) = some (.planAddValve .p0 0x01 5 258) := by decide

/-- OUTAGE_RELIT: code 41h, outage in two bytes, count in four. -/
theorem test_outage_relit_is_read :
    (requestRow 0x41).bind (fun r => r.command .p0 0x01 [0x00, 0x1F, 0x00, 0x00, 0x01, 0x00]) =
      some (.outageRelit .p0 0x01 31 256) := by decide

/-- CALL_NEW: kind, section, grade, location tag, presence byte, receipt time. -/
theorem test_call_new_is_read :
    (requestRow 0x48).bind (fun r =>
        r.command .p1 0x01 [0x01, 0x00, 0x02, 0x03, 0, 0, 0, 9, 0x01, 0, 0, 0, 7]) =
      some (.callNew .p1 0x01 1 2 3 9 1 7) := by decide

/-- A frame with one wrong bit in its CRC is no request. -/
theorem test_wrong_crc_is_found : frameBytes [0x00, 0x42, 0x00, 0x00, 0x00] = .checkError 0x42 := by decide

/-- A body length over 240 is malformed. -/
theorem test_body_length_241_is_malformed : frameBytes (0x50 :: 0x07 :: 241 :: List.replicate 250 0) = .frameError 7 := by
  decide

/-! ## One step of a command -/

theorem test_line_reset_keeps_power_on : (after .lineReset State.reset).cfu.causePower = true
    ∧ (after .lineReset State.reset).cfu.causeLine = true ∧ (after .lineReset State.reset).cfu.inReset = true := by decide

theorem test_power_on_while_held_in_reset : (after .powerOnReset (after .lineReset State.reset)).cfu.inReset = true
    ∧ (after .powerOnReset (after .lineReset State.reset)).cfu.causeLine = false
    ∧ (after .powerOnReset State.reset).cfu.inReset = false := by decide

theorem test_three_clocks_carry_three_bits :
    (after (.transfer .p0 [true, true, true]) running).ports.p0.dataOut =
      (bitsOf (responseFrame running.ports.p0.response)).take 3 := by decide

theorem test_first_walk_publishes_supply :
    (after .liveWalkCompletes running).net.sections.map (fun x => (x.1, x.2.supply)) =
      [(0, .supplied), (1, .supplied), (2, .uncertain)] := by decide

theorem test_trial_closes_the_manual_valve :
    (trialResult image (snapshotOf intended (after .liveWalkCompletes running).net) [0]).sections = [1]
      ∧ (trialResult image (snapshotOf intended (after .liveWalkCompletes running).net) [0]).premises = 20 := by decide

theorem test_source_out_counts_a_change :
    (after (.sourceOut .p0 0 0) running).net.topology = 1 ∧ (after (.sourceOut .p0 0 0) running).net.walkPending = true := by
  decide

theorem test_plan_create_takes_slot_0 :
    (after (.planCreate .p0 0 0) running).net.plans.map (fun x => (x.1, x.2.state)) = [(0, .draft)] := by decide

/-- A point whose raw value lies below the negated offset reads 0; one near the top reads 65535 (R114). -/
theorem test_scaling_saturates :
    scaled { sect := 0, offset := -5, ll := 0, l := 0, h := 0, hh := 0, deadband := 0, persistence := 1, period := 5,
             window := 1, threshold := 1 } 3 = 0
      ∧ scaled { sect := 0, offset := 10, ll := 0, l := 0, h := 0, hh := 0, deadband := 0, persistence := 1, period := 5,
                 window := 1, threshold := 1 } 65530 = 65535 := by decide

/-- For T = 40 the latch sets at a sum of -40 and clears at -19 (R121). -/
theorem test_fall_latch_at_its_bounds :
    fallLatch 2 40 [-20, -20] false = true ∧ fallLatch 2 40 [-20, -19] false = false
      ∧ fallLatch 2 40 [-10, -10] true = true ∧ fallLatch 2 40 [-10, -9] true = false := by decide

/-- The default cadence of priority 3: a first pulse of 7 + 10 steps, then 6 + 10 (Table 8-4). -/
theorem test_cadence_of_priority_3 : pulseOn image 3 1 = 7 ∧ pulseOn image 3 2 = 6 ∧ (cadenceOf image 3).offSteps = 10 := by
  decide

/-- The leave of a section takes its premises from off, then from relit, then from no-access (R90). -/
theorem test_leave_takes_off_then_relit :
    let o : Outage :=
      { number := 1, cause := .planned, state := .relighting, members := [{ sect := 1, hold := 0, confirmed := true }],
        affected := 20, priority := 0, off := 3, relit := 9, noAccess := 8, plan := none, linked := 0, created := 0,
        relapse := false }
    (left image 1 o).off = 0 ∧ (left image 1 o).relit = 0 ∧ (left image 1 o).noAccess = 0
      ∧ (left image 1 o).affected = 0 := by decide

/-- An outage, an alarm and a call number after 65535 is 1 (Introduction 5.2). -/
theorem test_numbers_wrap_over_held_ones : nextNumber [1, 2] 3 65535 = 3 := by decide

theorem test_lamp_test_lights_every_lamp : (after (.lampTest .p0 0) running).msc.lamps = List.replicate 288 .on := by decide

theorem test_second_tick_counts : (after .oneSecondTick State.reset).tbu.uptime = 1
    ∧ (after .oneSecondTick State.reset).tbu.clock = 0 := by decide

theorem test_confirm_without_a_claim_is_not_owner :
    ((after (.confirmClosed .p0 7 0) running).ports.p0.response.status) = .notOwner := by decide

theorem test_alarm_ack_of_number_0 : ((after (.alarmAck .p1 7 0) running).ports.p1.response.status) = .badArgument := by decide

theorem test_view_of_a_call_by_switching_is_not_permitted :
    ((after (.callArrived .p0 7 1) running).ports.p0.response.status) = .notPermitted := by decide

/-- An absent consequence: presence 0, then an empty list and 13 further bytes (assumption 31). -/
theorem test_absent_consequence_is_15_zero_bytes : optConsequence none = List.replicate 15 0 := by decide

/-! ## Witnesses: states and operands that meet the hypotheses of the statements -/

/-- A plan of port 0 in slot 0. -/
def plan (st : PlanState) (l : List Nat) (dir : Direction) : Plan :=
  { owner := .p0, state := st, valves := l, direction := dir, reasonCall := none, consequence := none, outage := none,
    accepted := false, attempts := 0, lastReason := .requested }

/-- The network with that plan in slot 0, its valves claimed and at a position. -/
def planned (x : Plan) (pos : Position) : State :=
  withNet (fun n =>
    { n with
      plans := [(0, x)]
      valves := mapTable (fun k y => if k ∈ x.valves then { y with claim := some 0, position := pos } else y) n.valves })

theorem owns (x : Plan) (pos : Position) (h : x.owner = .p0) : OwnsPlan .p0 0 x (planned x pos) :=
  ⟨canSend .p0 .switching _ rfl rfl rfl (by simp), by decide, rfl, h⟩

/-- An outage of section 1 under number 31. -/
def outage (st : OutageState) (hold off : Nat) : Outage :=
  { number := 31, cause := .planned, state := st, members := [{ sect := 1, hold := hold, confirmed := false }],
    affected := 20, priority := 0, off := off, relit := 0, noAccess := 20 - off, plan := none, linked := 0, created := 5,
    relapse := false }

/-- The network with that outage. -/
def cutOff (st : OutageState) (hold off : Nat) : State := withNet (fun n => { n with outages := [(0, outage st hold off)] })

/-- A call of section 1 under number 7. -/
def call (kind : CallKind) (st : CallState) : Call :=
  { number := 7, kind := kind, sect := 1, grade := 2, pendingGrade := none, state := st, location := 9, crew := none,
    received := 900, arrival := none, elapsed := 10, attend := 0, safe := 0, realarm := 0, overdueAttend := false,
    overdueSafe := false, outage := none }

/-- The network with that call. -/
def called (c : Call) : State := withNet (fun n => { n with calls := [(0, c)] })

/-- An alarm entry under number 3. -/
def entry (st : EntryState) : Entry :=
  { number := 3, cond := { kind := .cluster, index := 1 }, priority := 1, state := st, firstRaised := 0, lastChange := 0,
    repeats := 1, ackPort := none, seq := 1 }

/-- The network with that entry listed. -/
def alarmed (st : EntryState) : State := { running with alu := { Alu.reset with entries := [entry st], seq := 1 } }

/-- A state with one condition listed in an entry of a state. -/
def listing (c : CondId) (st : EntryState) (s : State) : State :=
  { s with alu := { Alu.reset with entries := [{ entry st with cond := c }], seq := 1 } }

theorem witness_step : ∃ c rest s, State.pending s = c :: rest := ⟨.stepTick, [], { running with pending := [.stepTick] }, rfl⟩

theorem witness_frames : ∃ i s t, exec i s = .next t := ⟨.leaveReset, running, running, rfl⟩

theorem witness_reset_held : (after .lineReset running).cfu.inReset = true := rfl

/-- The session of port 0. -/
def configuring : State :=
  { State.reset with cfu := { State.reset.cfu with device := .configuring, authority := some .p0, image := image } }

theorem witness_session :
    (State.reset.cfu.inReset = false ∧ State.reset.cfu.device = .standby)
      ∧ (configuring.cfu.inReset = false ∧ configuring.cfu.device = .configuring
          ∧ configuring.cfu.authority = some .p0 ∧ PortId.p1 ≠ .p0) := by decide

theorem witness_commit_refused :
    configuring.cfu.authority = some .p0 ∧ (0 : Half) ≠ configuring.cfu.checksum
      ∧ offender Image.empty.withDefaults = some { kind := .source, key := none } := by decide

theorem witness_load :
    parseBody [1, 7, 0, 1, 0x7F] = .inl [.port 0 { role := .switching, classes := 0x7F }]
      ∧ parseBody [1, 11, 0, 1, 0x7F] = .inr 1 ∧ configuring.cfu.authority = some .p0 := by decide

/-- The session with another travel timeout of valve 1. -/
def configuringTimeout (t : Nat) : State :=
  { configuring with cfu := { configuring.cfu with
      image := { image with valves := adjust 1 (fun d => { d with timeout := some t }) image.valves } } }

theorem witness_image_checks :
    TablesSound configuring ∧ offender configuring.cfu.image.withDefaults = none
      ∧ TablesSound (configuringTimeout 601)
      ∧ offender (configuringTimeout 601).cfu.image.withDefaults = some { kind := .valve, key := some 1 }
      ∧ offender (configuringTimeout 600).cfu.image.withDefaults = none
      ∧ offender (configuringTimeout 9).cfu.image.withDefaults = some { kind := .valve, key := some 1 }
      ∧ offender (configuringTimeout 0).cfu.image.withDefaults = none := by
  refine ⟨tables_sound (by decide), ?_, tables_sound (by decide), ?_⟩ <;> decide

/-- The session with line 3 routed ALARM, and levels at the pins. -/
def configuringAlarm (pins : BitVec 64) : State :=
  { configuring with
    cfu := { configuring.cfu with
      image := { image with
        lines := put 3 { role := .general, polarity := .activeLow, debounce := 2, route := some .alarm } image.lines } }
    net := { Net.reset with pins := pins } }

theorem witness_initial_conditions (pins : BitVec 64) :
    TablesSound (configuringAlarm pins) ∧ offender (configuringAlarm pins).cfu.image.withDefaults = none :=
  ⟨tables_sound rfl, by
    show offender (configuringAlarm 0).cfu.image.withDefaults = none
    decide⟩

/-- Both limits, the trip line and line 3 ACTIVE; then one limit alone and line 3 INACTIVE. -/
theorem test_commit_raises_the_initial_conditions :
    (after (.commitConfig .p0 0 0xFFFF) (configuringAlarm 7)).alu.entries.map (fun x => (x.number, x.cond)) =
        [(1, { kind := .limitConflict, index := 1 }), (2, { kind := .sourceTrip, index := 0 }),
         (3, { kind := .lineActive, index := 3 })]
      ∧ (after (.commitConfig .p0 0 0xFFFF) (configuringAlarm 9)).alu.entries = [] := by decide

theorem witness_commit : configuring.cfu.device = .configuring ∧ configuring.cfu.authority = some .p0
    ∧ offender configuring.cfu.image.withDefaults = none := by decide

theorem witness_switching : CanSend [.switching] .p0 running := canSend .p0 .switching _ rfl rfl rfl (by simp)

theorem witness_dispatch : CanSend [.dispatch] .p1 running := canSend .p1 .dispatch _ rfl rfl rfl (by simp)

theorem witness_telemetry : CanSend [.telemetry] .p2 running := canSend .p2 .telemetry _ rfl rfl rfl (by simp)

theorem witness_any_role : CanSend anyRole .p2 running ∧ ∃ r, (running.ports.get .p2).role = some r :=
  ⟨canSend .p2 .telemetry _ rfl rfl rfl (by simp [anyRole]), _, rfl⟩

theorem witness_definitions : recordKindOf (11 : Byte).toNat = none ∧ recordKindOf (10 : Byte).toNat = some .priorities := by
  decide

/-- A port with a number of notices waiting. -/
def waitingPort (n : Nat) (lost : Bool) : Port :=
  { Port.reset with
    classes := 0x7F
    queue := List.replicate n { body := .lost 0, time := 0 }
    lost := lost }

theorem witness_read_notices :
    ((waitingPort 32 true).queue ≠ [] ∧ (waitingPort 32 true).lost = true)
      ∧ ((waitingPort 0 true).queue = [] ∨ (waitingPort 0 true).lost = false)
      ∧ CanSend anyRole .p0 { running with
          ports := running.ports.set .p0 { waitingPort 32 true with role := some .switching } } :=
  ⟨by decide, by decide, ⟨⟨rfl, rfl⟩, .switching, by simp [anyRole], rfl⟩⟩

theorem witness_full_queue :
    entitled .p0 (waitingPort 32 false) { body := .lineChange 3 true 0, also := [] } = true
      ∧ 32 ≤ (waitingPort 32 false).queue.length ∧ (waitingPort 31 false).queue.length < 32
      ∧ entitled .p0 (waitingPort 31 false) { body := .lineChange 3 true 0, also := [] } = true
      ∧ (waitingPort 32 false).queue.length = 32 := by decide

theorem witness_ports_sound : PortsSound State.reset ∧ step State.reset = .next State.reset := by
  refine ⟨fun p => ⟨?_, fun _ => ?_⟩, rfl⟩ <;> cases p
  all_goals first | exact ⟨rfl, rfl⟩ | exact ⟨by decide, rfl, by decide, by decide⟩

theorem witness_port_unit_refuses :
    encodeRequest (.readLines .p0 1) = some (.p0, 1, 0x15, []) ∧ (∃ row, requestRow 0x15 = some row ∧ row.cls = .read)
      ∧ configuring.cfu.device ≠ .running
      ∧ encodeRequest (.abandonConfig .p1 1) = some (.p1, 1, 0x06, [])
      ∧ (∃ row, requestRow 0x06 = some row ∧ row.cls = .config) ∧ configuring.cfu.authority ≠ some .p1
      ∧ encodeRequest (.callArrived .p0 1 7) = some (.p0, 1, 0x4A, [0, 7])
      ∧ (∃ row, requestRow 0x4A = some row ∧ row.cls = .call) ∧ permits .switching .call = false := by
  refine ⟨rfl, ⟨_, rfl, rfl⟩, by decide, rfl, ⟨_, rfl, rfl⟩, by decide, by decide, ⟨_, rfl, rfl⟩, rfl⟩

theorem witness_refused_request :
    ∃ t, exec (.callArrived .p1 1 7) running = .next t ∧ (t.ports.get .p1).response.status ∉ [Status.ok, .accepted] :=
  ⟨_, rfl, by decide⟩

theorem witness_request : ∃ p tag code body, encodeRequest (.callNew .p1 0 0 1 2 9 1 7) = some (p, tag, code, body)
    ∧ body.length ≤ 240 ∧ running.cfu.inReset = false := ⟨_, _, _, _, rfl, by decide, rfl⟩

theorem witness_bad_frames :
    (0 < (wholeBytes (List.replicate 39 true)).length ∧ (wholeBytes (List.replicate 39 true)).length < 5)
      ∧ wholeBytes (bitsOf [0, 1, 0, 0, 0]) = [0, 1, 0, 0, 0]
      ∧ ([0, 0] : List Byte) ≠ halfBytes (crc16 [0, 1, 0]) ∧ requestRow 0x0B = none
      ∧ (∃ row, requestRow 0x5A = some row ∧ row.command .p0 1 [0] = none ∧ refusalOf running row.cls .p0 = none) :=
  ⟨by decide, by decide, by decide, by decide, _, rfl, rfl, rfl⟩

/-- The network with one line's scan state. -/
def scanned (n : Nat) (x : LineScan) : State := withNet (fun a => { a with lines := a.lines.set n x })

theorem witness_scan :
    Running running ∧ ¬ Running State.reset
      ∧ (∃ x, running.net.lines[0]? = some x ∧ (lineOf running.cfu.image 0).debounce = 2
          ∧ logical (lineOf running.cfu.image 0) ((0 : BitVec 64).getLsbD 0) = x.active
          ∧ logical (lineOf running.cfu.image 0) ((1 : BitVec 64).getLsbD 0) ≠ x.active ∧ x.count + 1 < 2)
      ∧ (∃ x, (scanned 0 { rawHigh := true, active := false, count := 1 }).net.lines[0]? = some x
          ∧ logical (lineOf running.cfu.image 0) ((1 : BitVec 64).getLsbD 0) ≠ x.active ∧ 2 ≤ x.count + 1) := by
  refine ⟨⟨rfl, rfl⟩, fun h => absurd h.2 (by decide), ⟨_, rfl, ?_⟩, _, rfl, ?_⟩ <;> decide

theorem witness_line_change :
    Running (scanned 3 { rawHigh := true, active := true, count := 2 })
      ∧ (scanned 3 { rawHigh := true, active := true, count := 2 }).net.lines[3]? =
          some { rawHigh := true, active := true, count := 2 }
      ∧ (lineOf running.cfu.image 3).debounce ≤ 2 ∧ (lineOf running.cfu.image 3).role = .general
      ∧ (lineOf running.cfu.image 3).route = some .notice := ⟨⟨rfl, rfl⟩, rfl, by decide, rfl, rfl⟩

/-- The small network with line 4 a GENERAL line routed ALARM, and one line's scan state. -/
def alarmLine (x : LineScan) : State :=
  { scanned 4 x with
    cfu := { running.cfu with
      image := { image with
        lines := image.lines ++ [(4, { role := .general, polarity := .activeHigh, debounce := 2, route := some .alarm })] } } }

theorem witness_line_change_delivers (active : Bool) :
    (Running (alarmLine { rawHigh := !active, active := active, count := 2 })
        ∧ (lineOf (alarmLine { rawHigh := !active, active := active, count := 2 }).cfu.image 4).route = some .alarm
        ∧ AlarmsSound (alarmLine { rawHigh := !active, active := active, count := 2 }))
      ∧ (tablesHold (scanned 0 { rawHigh := !active, active := active, count := 2 }) = true
          ∧ ∃ d, lookup 1 image.valves = some d ∧ d.kind = .actuated ∧ d.closedLimit = some 0)
      ∧ (tablesHold (scanned 2 { rawHigh := !active, active := active, count := 2 }) = true
          ∧ ∃ d z, lookup 0 image.sources = some d ∧ d.tripLine = some 2
            ∧ lookup 0 (scanned 2 { rawHigh := !active, active := active, count := 2 }).net.sources = some z
            ∧ z.tripped = false) := by
  refine ⟨⟨⟨rfl, rfl⟩, ?_, ?_⟩, ⟨?_, ?_⟩, ?_, ?_⟩
  · cases active <;> decide
  · cases active <;> (constructor <;> simp [alarmLine, scanned, withNet, running, State.reset, Alu.reset])
  · cases active <;> decide
  · exact ⟨_, rfl, rfl, rfl⟩
  · cases active <;> decide
  · exact ⟨_, _, rfl, rfl, rfl, rfl⟩

theorem witness_trip_that_clears :
    ∃ z, lookup 0 ({ (scanned 2 { rawHigh := false, active := true, count := 2 }).net with
        sources := adjust 0 (fun y => { y with tripped := true, live := false }) running.net.sources }).sources = some z
      ∧ z.tripped = true := ⟨_, rfl, rfl⟩

theorem test_trip_line_takes_the_source_out :
    (after (.lineChange 2) (scanned 2 { rawHigh := true, active := false, count := 2 })).net.sources.map
        (fun x => (x.2.tripped, x.2.live)) = [(true, false)]
      ∧ (after (.lineChange 2) (scanned 2 { rawHigh := true, active := false, count := 2 })).alu.entries.map Entry.cond =
          [{ kind := .sourceTrip, index := 0 }] := by decide

/-- At the scan of `pins` the line is due, every debounce count is at least 1, and the invariants hold. -/
def dueAt (s : State) (pins : BitVec 64) (n : Nat) : Bool :=
  tablesHold s && alarmsHold s.alu && !s.cfu.inReset && s.cfu.device == .running
    && (List.range 64).all (fun k => decide (1 ≤ (lineOf s.cfu.image k).debounce))
    && (s.net.lines[n]?).any (fun x => logical (lineOf s.cfu.image n) (pins.getLsbD n) != x.active
      && decide ((lineOf s.cfu.image n).debounce ≤ x.count + 1))

theorem witness_scan_delivers (active : Bool) :
    let x : LineScan := { rawHigh := active, active := active, count := 1 }
    dueAt (scanned 3 x) (if active then 8 else 0) 3 = true ∧ dueAt (alarmLine x) (if active then 0 else 16) 4 = true
      ∧ dueAt (scanned 0 x) (if active then 0 else 1) 0 = true ∧ dueAt (scanned 2 x) (if active then 0 else 4) 2 = true := by
  cases active <;> decide

theorem witness_scan_of_a_trip (tripped : Bool) :
    ∃ z, lookup 0 ({ running.net with
        sources := adjust 0 (fun y => { y with tripped := tripped }) running.net.sources }).sources = some z
      ∧ z.tripped = tripped ∧ image.sources.map (fun d => d.2.tripLine) = [some 2] := ⟨_, rfl, rfl, rfl⟩

/-- The horn sounds in a part of a cadence, the divider at a count; no line is due at any scan. -/
def sounding (pulse : Nat) (on : Bool) (steps divider : Nat) : State :=
  { running with alu := { Alu.reset with horn := .sounding 2 pulse on steps, hornOut := on, divider := divider } }

theorem witness_scan_of_the_horn (pulse : Nat) (on : Bool) (steps divider : Nat) :
    Running (sounding pulse on steps divider) ∧ (sounding pulse on steps divider).alu.horn = .sounding 2 pulse on steps
      ∧ (sounding pulse on steps divider).alu.divider = divider
      ∧ ∀ n, n < 64 → 1 ≤ (lineOf (sounding pulse on steps divider).cfu.image n).debounce
          ∧ ∀ x ∈ (sounding pulse on steps divider).net.lines[n]?,
              x.count + 1 < (lineOf (sounding pulse on steps divider).cfu.image n).debounce := by
  refine ⟨⟨rfl, rfl⟩, rfl, rfl, ?_⟩
  show ∀ n, n < 64 → 1 ≤ (lineOf image n).debounce ∧ ∀ x ∈ running.net.lines[n]?, x.count + 1 < (lineOf image n).debounce
  decide

theorem test_tenth_scan_steps_the_horn :
    (after (.scanTick 0) (sounding 4 false 1 9)).alu.horn = .sounding 2 1 true 4
      ∧ (after (.scanTick 0) (sounding 1 true 2 9)).alu.horn = .sounding 2 1 true 1
      ∧ (after (.scanTick 0) (sounding 1 true 1 8)).alu.horn = .sounding 2 1 true 1 := by decide

theorem test_scan_delivers_a_trip :
    (after (.scanTick 4) (scanned 2 { rawHigh := true, active := false, count := 1 })).net.sources.map
        (fun x => (x.2.tripped, x.2.live)) = [(true, false)]
      ∧ (after (.scanTick 4) (scanned 2 { rawHigh := true, active := false, count := 1 })).alu.entries.map Entry.cond =
          [{ kind := .sourceTrip, index := 0 }] := by decide

/-- The records of a valve of the small network, in a plan's hands. -/
theorem witness_crew_reports :
    CanSend [.switching] .p0 (planned (plan .executing [0] .closes) .closing)
      ∧ (∃ x d, lookup 0 (planned (plan .executing [0] .closes) .closing).net.valves = some x ∧ x.position = .closing
          ∧ x.claim = some 0 ∧ lookup 0 image.valves = some d ∧ d.kind = .manual)
      ∧ (∃ x, lookup 0 (planned (plan .restoring [0] .opens) .opening).net.valves = some x ∧ x.position = .opening)
      ∧ (∃ x, lookup 0 (planned (plan .isolated [0] .closes) .closed).net.valves = some x ∧ x.position = .closed) :=
  ⟨canSend .p0 .switching _ rfl rfl rfl (by simp), ⟨_, _, rfl, rfl, rfl, rfl, rfl⟩, ⟨_, rfl, rfl⟩, _, rfl, rfl⟩

theorem witness_verify :
    (∃ x d, lookup 0 running.net.valves = some x ∧ lookup 0 image.valves = some d ∧ d.kind = .manual ∧ x.claim = none
        ∧ x.position = .opened)
      ∧ (∃ x d pl, lookup 1 (planned (plan .held [1] .closes) .stuck).net.valves = some x ∧ x.position = .stuck
          ∧ lookup 1 image.valves = some d ∧ d.kind = .actuated ∧ x.claim = some 0
          ∧ lookup 0 (planned (plan .held [1] .closes) .stuck).net.plans = some pl ∧ pl.owner = .p0 ∧ pl.state = .held) :=
  ⟨⟨_, _, rfl, rfl, rfl, rfl, rfl⟩, _, _, _, rfl, rfl, rfl, rfl, rfl, rfl, rfl, rfl⟩

theorem witness_travel :
    Running (planned (plan .executing [1] .closes) .closing)
      ∧ (∃ x d, lookup 1 (planned (plan .executing [1] .closes) .closing).net.valves = some x ∧ x.position = .closing
          ∧ x.travel = 0 ∧ lookup 1 image.valves = some d ∧ d.kind = .actuated ∧ d.closeOutput = some 0
          ∧ d.openOutput = some 1) := ⟨⟨rfl, rfl⟩, _, _, rfl, rfl, rfl, rfl, rfl, rfl, rfl⟩

/-- An event over a state, two limit lines at given levels. -/
def limits (a b : Bool) (s : State) : Event :=
  Event.start { s with
    net := { s.net with
      lines := { rawHigh := a, active := a, count := 0 } :: { rawHigh := b, active := b, count := 0 } :: s.net.lines.drop 2 } }

theorem witness_orders :
    (∃ x d, lookup 0 (limits false true running).net.valves = some x ∧ x.position ≠ .closed
        ∧ lookup 0 (limits false true running).image.valves = some d ∧ d.kind = .manual)
      ∧ (∃ x d, lookup 1 (limits true false running).net.valves = some x
          ∧ lookup 1 (limits true false running).image.valves = some d ∧ d.kind = .actuated ∧ d.closeOutput = some 0
          ∧ d.openOutput = some 1 ∧ d.timeout = some 30 ∧ shownBy (limitPair d (limits true false running).net) = some .closed
          ∧ shownBy (limitPair d (limits false true running).net) ≠ some .closed
          ∧ x.position ≠ .closed ∧ x.position ≠ .closing)
      ∧ (∃ x d, lookup 1 (limits false false (planned (plan .executing [1] .closes) .closing)).net.valves = some x
          ∧ x.position = .closing ∧ lookup 1 image.valves = some d
          ∧ shownBy (limitPair d (limits false false running).net) ≠ some .closed) := by
  refine ⟨⟨_, _, rfl, ?_, rfl, ?_⟩, ⟨_, _, rfl, rfl, ?_⟩, _, _, rfl, ?_, rfl, ?_⟩ <;> decide

theorem witness_limit_reports :
    (∃ d, lookup 1 image.valves = some d ∧ d.kind = .actuated
        ∧ limitPair d (limits true true running).net = (true, true)
        ∧ limitPair d (limits true false running).net = (true, false)
        ∧ limitPair d (limits false true running).net = (false, true)
        ∧ limitPair d (limits false false running).net = (false, false))
      ∧ (∃ x, lookup 1 running.net.valves = some x ∧ x.conflict = false ∧ x.position = .unknown)
      ∧ (∃ x, lookup 1 (withNet (fun n => { n with valves := adjust 1 (fun y => { y with conflict := true }) n.valves })).net.valves
          = some x ∧ x.conflict = true) := by
  refine ⟨⟨_, rfl, ?_⟩, ⟨_, rfl, ?_⟩, _, rfl, ?_⟩ <;> decide

theorem witness_limit_reports_in_each_position (pos : Position) :
    ∃ x, lookup 1 (planned (plan .held [1] .closes) pos).net.valves = some x ∧ x.position = pos ∧ x.conflict = false :=
  ⟨_, rfl, rfl, rfl⟩

theorem witness_outputs_sound : OutputsSound State.reset ∧ step State.reset = .next State.reset :=
  ⟨fun h => absurd h (by decide), rfl⟩

theorem witness_sources :
    lookup 1 running.net.sources = none ∧ (∃ x, lookup 0 running.net.sources = some x ∧ x.live = true)
      ∧ running.net.engine ≠ .idle ∧ (after .liveWalkCompletes running).net.engine = .idle := by
  refine ⟨rfl, ⟨_, rfl, rfl⟩, ?_, ?_⟩ <;> decide

theorem witness_walk : Running running ∧ ∃ x, running.net.engine = .walking x := ⟨⟨rfl, rfl⟩, _, rfl⟩

theorem witness_arbiter :
    (∃ n : Net, n.trials = [{ requester := .port .p0, closure := [0] }] ∧ n.walkPending = false)
      ∧ (∃ n : Net, n.trials = [{ requester := .port .p0, closure := [0] }] ∧ n.walkPending = true)
      ∧ (∃ n : Net, n.trials = [] ∧ n.walkPending = true) ∧ ∃ n : Net, n.trials = [] ∧ n.walkPending = false :=
  ⟨⟨{ Net.reset with trials := [{ requester := .port .p0, closure := [0] }] }, rfl, rfl⟩,
    ⟨{ Net.reset with trials := [{ requester := .port .p0, closure := [0] }], walkPending := true }, rfl, rfl⟩,
    ⟨{ Net.reset with walkPending := true }, rfl, rfl⟩, Net.reset, rfl, rfl⟩

theorem witness_engine_sound : EngineSound State.reset ∧ step State.reset = .next State.reset :=
  ⟨⟨by decide, rfl, rfl, rfl⟩, rfl⟩

/-- A standalone trial of port 1 runs. -/
def trialRuns : State := withNet (fun n => { n with engine := .trial (snapshotOf intended n) (.port .p1) [0] })

theorem witness_trials :
    CanSend [.dispatch, .switching] .p1 running ∧ indicesOf [0, 0, 0, 1] = some [0, 1] ∧ [0, 1].Nodup
      ∧ (∀ v ∈ [0, 1], (lookup v running.net.valves).isSome = true) ∧ hasTrial .p1 running.net = false
      ∧ running.net.trials.length < 8 ∧ Running trialRuns ∧ ∃ x c, trialRuns.net.engine = .trial x (.port .p1) c :=
  ⟨canSend .p1 .dispatch _ rfl rfl rfl (by simp), by decide, by decide, by decide, rfl, by decide, ⟨rfl, rfl⟩, _, _, rfl⟩

theorem witness_plan_create :
    CanSend [.switching] .p0 running ∧ callNumbered 9 running.net.calls = none
      ∧ lookup 0 running.net.plans = none
      ∧ (∃ s : State, CanSend [.switching] .p0 s ∧ ∀ k, k < 16 → lookup k s.net.plans ≠ none) :=
  ⟨witness_switching, rfl, rfl,
    withNet (fun n => { n with plans := (List.range 16).map (fun k => (k, plan .draft [] .unset)) }),
    canSend .p0 .switching _ rfl rfl rfl (by simp), by decide⟩

theorem witness_valve_list :
    OwnsPlan .p0 0 (plan .draft [0] .unset) (planned (plan .draft [0] .unset) .opened)
      ∧ OwnsPlan .p0 0 (plan .assessed [0] .unset) (planned (plan .assessed [0] .unset) .opened)
      ∧ (∃ y, lookup 1 (planned (plan .draft [0] .unset) .opened).net.valves = some y ∧ y.claim = none)
      ∧ lookup 5 running.net.valves = none
      ∧ (∃ y z, lookup 1 (withNet (fun n =>
            { n with plans := [(0, plan .draft [0] .unset), (1, plan .draft [1] .unset)],
                     valves := mapTable (fun k y => { y with claim := some k }) n.valves })).net.valves = some y
          ∧ y.claim = some 1 ∧ lookup 1 [(0, plan .draft [0] .unset), (1, plan .draft [1] .unset)] = some z)
      ∧ 16 ≤ (plan .draft (List.range 16) .unset).valves.length ∧ 20 ∉ (plan .draft (List.range 16) .unset).valves :=
  ⟨owns _ _ rfl, owns _ _ rfl, ⟨_, rfl, rfl⟩, rfl, ⟨_, _, rfl, rfl, rfl⟩, by decide, by decide⟩

theorem witness_plan_trials :
    OwnsPlan .p0 0 (plan .draft [0] .unset) (planned (plan .draft [0] .unset) .opened)
      ∧ OwnsPlan .p0 0 (plan .draft [] .unset) (planned (plan .draft [] .unset) .opened)
      ∧ OwnsPlan .p0 0 (plan .assessed [0] .unset) (planned (plan .assessed [0] .unset) .opened)
      ∧ OwnsPlan .p0 0 (plan .held [0] .closes) (planned (plan .held [0] .closes) .opened)
      ∧ running.net.trials.length < 8 ∧ (after .liveWalkCompletes running).net.engine = .idle
      ∧ 8 ≤ (List.replicate 8 ({ requester := .plan 0, closure := [] } : TrialEntry)).length :=
  ⟨owns _ _ rfl, owns _ _ rfl, owns _ _ rfl, owns _ _ rfl, by decide, by decide, by decide⟩

/-- An assessed plan whose closure takes section 1. -/
def assessed : Plan :=
  { plan .assessed [0] .unset with
    consequence := some { sections := [1], overflow := false, premises := 20, priority := 0, basis := 0 } }

theorem witness_declaration :
    TablesSound (planned assessed .opened) ∧ OwnsPlan .p0 0 assessed (planned assessed .opened)
      ∧ (∃ c, assessed.consequence = some c ∧ c.sections ≠ [] ∧ c.overflow = false
          ∧ ∀ k ∈ c.sections, outageOf k (planned assessed .opened).net.outages = none)
      ∧ assessed.outage = none ∧ lookup 0 (planned assessed .opened).net.outages = none := by
  refine ⟨tables_sound (by decide), owns _ _ rfl, ⟨_, rfl, ?_⟩, rfl, rfl⟩
  all_goals decide

theorem witness_plan_moves :
    OwnsPlan .p0 0 (plan .executing [1] .closes) (planned (plan .executing [1] .closes) .closing)
      ∧ OwnsPlan .p0 0 (plan .restoring [0, 1] .opens) (planned (plan .restoring [0, 1] .opens) .opening)
      ∧ OwnsPlan .p0 0 (plan .held [0, 1] .closes) (planned (plan .held [0, 1] .closes) .stuck)
      ∧ OwnsPlan .p0 0 (plan .isolated [0, 1] .closes) (planned (plan .isolated [0, 1] .closes) .closed)
      ∧ OwnsPlan .p0 0 (plan .draft [0, 1] .unset) (planned (plan .draft [0, 1] .unset) .opened) :=
  ⟨owns _ _ rfl, owns _ _ rfl, owns _ _ rfl, owns _ _ rfl, owns _ _ rfl⟩

/-- An isolated plan with outage 31 linked. -/
def linked (st : OutageState) : State :=
  withNet (fun n => { n with plans := [(0, { plan .isolated [0] .closes with outage := some 31 })],
                             outages := [(0, { outage st 0 20 with plan := some 0 })] })

theorem witness_release :
    TablesSound (linked .active)
      ∧ OwnsPlan .p0 0 { plan .isolated [0] .closes with outage := some 31 } (linked .active)
      ∧ (∃ o, outageAt 31 (linked .active).net = some o ∧ o.state ≠ .declared)
      ∧ (∃ o, outageAt 31 (linked .declared).net = some o ∧ o.state = .declared ∧ waiting (linked .declared).net = []
          ∧ ∀ k ∈ memberSections o, supplyAt (linked .declared).net k ≠ .unsupplied)
      ∧ anyTravelling (planned (plan .held [0] .closes) .closing).net [0] = true
      ∧ anyTravelling (planned (plan .held [0] .closes) .closed).net [0] = false := by
  refine ⟨tables_sound (by decide),
    ⟨canSend .p0 .switching _ rfl rfl rfl (by simp), by decide, rfl, rfl⟩, ⟨_, rfl, ?_⟩, ⟨_, rfl, rfl, ?_⟩, ?_, ?_⟩
  all_goals decide

theorem witness_release_refused (st : PlanState) : OwnsPlan .p0 0 (plan st [0] .closes) (planned (plan st [0] .closes) .opened) :=
  owns _ _ rfl

/-- Calls 9 and 4 of sections 1 and 2, their stages without time, linked to the plan's DECLARED outage. -/
def linkedCalls : State :=
  withNet (fun n =>
    { n with
      plans := [(0, { plan .assessed [0] .unset with outage := some 31 })]
      outages := [(0, { outage .declared 0 25 with
        members := [{ sect := 1, hold := 0, confirmed := false }, { sect := 2, hold := 0, confirmed := false }]
        affected := 25, noAccess := 0, priority := 1, plan := some 0, linked := 2 })]
      calls := [(0, { call .noGas .received with number := 9, outage := some 31 }),
                (1, { call .noGas .received with number := 4, sect := 2, outage := some 31 })] })

/-- The leaves run section by section; the reports go out by call number (R150). -/
theorem test_release_raises_in_call_order :
    let e := (Event.start linkedCalls).releasePlan 0 { plan .assessed [0] .unset with outage := some 31 }
    e.reports.map (fun x => x.2.cond.index) = [9, 4]
      ∧ (reportOrder e.reports).map (fun x => (x.2.kind, x.2.cond)) =
          [(.raise, { kind := .overdueAttend, index := 4 }), (.raise, { kind := .overdueAttend, index := 9 })] := by decide

theorem witness_take_over :
    CanSend [.switching] .p3 (planned (plan .held [0] .closes) .closed)
      ∧ lookup 0 (planned (plan .held [0] .closes) .closed).net.plans = some (plan .held [0] .closes)
      ∧ (paramsOf image).grace ≤ (running.tbu.uptime - (running.ports.get .p0).lastRequest).toNat
      ∧ (running.tbu.uptime - ({ running.ports.get .p0 with lastRequest := 100 } : Port).lastRequest).toNat
          < (paramsOf image).grace :=
  ⟨canSend .p3 .switching _ rfl rfl rfl (by simp), rfl, by decide, by decide⟩

/-- The execute check of a plan runs: valve 0 closes, outage 31 holds section 1 or nothing does. -/
def checking (covered : Bool) (basis : Word) : State :=
  withNet (fun n =>
    { n with
      engine := .trial { snapshotOf intended n with revision := basis } (.plan 0) [0]
      plans := [(0, { plan .checking [0] .unset with outage := if covered then some 31 else none, attempts := 1 })]
      outages := [(0, outage .declared 0 20)]
      valves := adjust 0 (fun y => { y with claim := some 0 }) n.valves })

theorem witness_check :
    (∃ x, Running (checking true 0) ∧ (checking true 0).net.engine = .trial x (.plan 0) [0]
        ∧ x.revision = (checking true 0).net.topology ∧ (trialResult image x [0]).overflow = false
        ∧ (trialResult image x [0]).sections = [1] ∧ (trialResult image x [0]).priority = 0
        ∧ (outageAt 31 (checking true 0).net).map memberSections = some [1])
      ∧ (∃ x, (checking false 0).net.engine = .trial x (.plan 0) [0] ∧ (trialResult image x [0]).sections ≠ [])
      ∧ (∃ x, (checking true 7).net.engine = .trial x (.plan 0) [0] ∧ x.revision ≠ (checking true 7).net.topology)
      ∧ (∃ x, lookup 0 (checking true 0).net.plans = some x ∧ x.state = .checking ∧ x.attempts < 3) := by
  refine ⟨⟨_, ⟨rfl, rfl⟩, rfl, rfl, ?_⟩, ⟨_, rfl, ?_⟩, ⟨_, rfl, ?_⟩, _, rfl, rfl, ?_⟩ <;> decide

/-- The execute check of a plan whose two valves both conduct; outage 31 holds sections 1 and 2, priority premises 1. -/
def priorityCheck (accepted : Bool) (attempts : Nat) (basis : Word) (waits : Nat) (pend : Bool) (st : PlanState) : State :=
  withNet (fun n =>
    { n with
      engine := .trial { snapshotOf intended n with valves := [(0, .conducts), (1, .conducts)], revision := basis } (.plan 0) [0]
      trials := List.replicate waits { requester := .port .p1, closure := [1] }
      walkPending := pend
      plans := [(0, { plan st [0] .unset with outage := some 31, accepted := accepted, attempts := attempts })]
      outages := [(0, { outage .declared 0 25 with
        members := [{ sect := 1, hold := 0, confirmed := false }, { sect := 2, hold := 0, confirmed := false }]
        affected := 25, noAccess := 0, priority := 1, plan := some 0 })]
      valves := adjust 0 (fun y => { y with claim := some 0 }) n.valves })

theorem witness_check_of_priority (accepted : Bool) :
    ∃ x, (priorityCheck accepted 1 0 0 false .checking).net.engine = .trial x (.plan 0) [0]
      ∧ x.revision = (priorityCheck accepted 1 0 0 false .checking).net.topology
      ∧ (trialResult image x [0]).sections = [1, 2] ∧ (trialResult image x [0]).overflow = false
      ∧ (trialResult image x [0]).priority = 1
      ∧ (outageAt 31 (priorityCheck accepted 1 0 0 false .checking).net).map memberSections = some [1, 2] := by
  refine ⟨_, rfl, rfl, ?_⟩
  cases accepted <;> decide

/-- A check that passes: the flow of valve 1 in its snapshot decides which sections valve 0 takes from outage 31, whose
members are 1 and 2. -/
def trimming (flows : Table Flow) (supply : Supply) (st : OutageState) (off : Nat) (confirmed : Bool) : State :=
  withNet (fun n =>
    { n with
      engine := .trial { snapshotOf intended n with valves := flows, revision := 0 } (.plan 0) [0]
      plans := [(0, { plan .checking [0] .unset with outage := some 31, accepted := true, attempts := 1 })]
      sections := mapTable (fun _ z => { z with supply := supply }) n.sections
      outages := [(0, { outage st 0 off with
        members := [{ sect := 1, hold := 0, confirmed := confirmed }, { sect := 2, hold := 9, confirmed := false }]
        affected := 25, noAccess := 25 - off, priority := 1, plan := some 0 })]
      valves := adjust 0 (fun y => { y with claim := some 0 }) n.valves })

/-- Valve 0 takes section 1 alone, both, or none. -/
def takesOne : Table Flow := [(0, .conducts), (1, .blocks)]
def takesBoth : Table Flow := [(0, .conducts), (1, .conducts)]
def takesNone : Table Flow := [(0, .blocks), (1, .blocks)]

/-- `off` is 25 or 5 (the premises of section 2), so that the trim leaves 20 off or none. -/
theorem witness_trim (st : OutageState) (confirmed : Bool) (all : Bool) :
    let s := trimming takesOne .supplied st (if all then 25 else 5) confirmed
    TablesSound s ∧ OutagesSound s ∧ Running s
      ∧ (∃ x o, s.net.engine = .trial x (.plan 0) [0] ∧ x.revision = s.net.topology
          ∧ (trialResult image x [0]).sections = [1] ∧ (trialResult image x [0]).overflow = false
          ∧ outageAt 31 s.net = some o ∧ o.state = st ∧ memberSections o = [1, 2]
          ∧ (o.trimmed image s.net.calls [1]).off = (if all then 20 else 0)
          ∧ (o.trimmed image s.net.calls [1]).members = [{ sect := 1, hold := 0, confirmed := confirmed }])
      ∧ supplyAt s.net 1 = .supplied ∧ hasFreshLow image s.net 1 = false := by
  refine ⟨tables_sound ?_, outages_sound ?_, ⟨rfl, rfl⟩, ⟨_, _, rfl, rfl, ?_, ?_, rfl, rfl, rfl, ?_, rfl⟩, ?_, ?_⟩
  all_goals cases st <;> cases confirmed <;> cases all <;> decide

theorem witness_trim_of_all_or_none (st : OutageState) :
    (∃ x, (trimming takesBoth .unsupplied st 25 false).net.engine = .trial x (.plan 0) [0]
        ∧ (trialResult image x [0]).sections = [1, 2])
      ∧ supplyAt (trimming takesBoth .unsupplied st 25 false).net 1 ≠ .supplied
      ∧ (∃ x, (trimming takesNone .supplied st 25 false).net.engine = .trial x (.plan 0) [0]
        ∧ (trialResult image x [0]).sections = [] ∧ (trialResult image x [0]).overflow = false)
      ∧ waiting (trimming takesNone .supplied st 25 false).net = []
      ∧ supplyAt (trimming takesNone .supplied st 25 false).net 1 ≠ .unsupplied := by
  refine ⟨⟨_, rfl, ?_⟩, ?_, ⟨_, rfl, ?_⟩, ?_, ?_⟩
  all_goals cases st <;> decide

/-- The outage of `trimming` after the check that passes: state, members, off, affected. -/
def trimmedTo (st : OutageState) (off : Nat) (confirmed : Bool) : List (OutageState × List Nat × Nat × Nat) :=
  ((Event.start (trimming takesOne .supplied st off confirmed)).checkPassed 0
      { plan .checking [0] .unset with outage := some 31, accepted := true }
      { sections := [1], overflow := false, premises := 20, priority := 0, basis := 0 }).net.outages.map
    (fun x => (x.2.state, memberSections x.2, x.2.off, x.2.affected))

/-- Section 2 leaves: its 5 premises are taken from off, and the state rule follows. -/
theorem test_a_check_trims_the_outage :
    trimmedTo .declared 25 false = [(.declared, [1], 20, 20)] ∧ trimmedTo .active 25 false = [(.recharging, [1], 20, 20)]
      ∧ trimmedTo .recharging 25 true = [(.relighting, [1], 20, 20)]
      ∧ trimmedTo .recharging 25 false = [(.recharging, [1], 20, 20)] ∧ trimmedTo .recharging 5 true = []
      ∧ trimmedTo .relighting 25 false = [(.relighting, [1], 20, 20)] ∧ trimmedTo .relighting 5 false = [] := by
  refine ⟨?_, ?_, ?_, ?_, ?_, ?_, ?_⟩ <;> rfl

theorem witness_check_that_is_late (attempts waits : Nat) (pend : Bool) :
    ∃ x p, Running (priorityCheck false attempts 7 waits pend .checking)
      ∧ (priorityCheck false attempts 7 waits pend .checking).net.engine = .trial x (.plan 0) [0]
      ∧ x.revision ≠ (priorityCheck false attempts 7 waits pend .checking).net.topology
      ∧ lookup 0 (priorityCheck false attempts 7 waits pend .checking).net.plans = some p ∧ p.attempts = attempts
      ∧ p.state = .checking ∧ (priorityCheck false attempts 7 waits pend .checking).net.trials.length = waits
      ∧ (priorityCheck false attempts 7 waits pend .checking).net.walkPending = pend :=
  ⟨_, _, ⟨rfl, rfl⟩, rfl, (by decide : (7 : Word) ≠ 0), rfl, rfl, rfl,
    by simp [priorityCheck, withNet], rfl⟩

theorem witness_assessment :
    ∃ x p, Running (priorityCheck false 0 0 0 false .assessing)
      ∧ (priorityCheck false 0 0 0 false .assessing).net.engine = .trial x (.plan 0) [0]
      ∧ lookup 0 (priorityCheck false 0 0 0 false .assessing).net.plans = some p ∧ p.state = .assessing :=
  ⟨_, _, ⟨rfl, rfl⟩, rfl, rfl, rfl⟩

/-- A check that passes is next to run. -/
def passing : State := { priorityCheck true 1 0 0 false .checking with pending := [.trialCompletes] }

/-- A held plan is sent out again next. -/
def retried : State :=
  { planned (plan .held [1] .closes) .stuck with pending := [.planRetry .p0 0 0] }

/-- Valve `v` enters CLOSING in the step of a state. -/
def entersClosing (v : Nat) (s : State) : Bool :=
  positionAt s.net v != some .closing && positionAt (stateOf s (step s)).net v == some .closing

/-- Whichever of hand-over and grant comes first (assumption 5). -/
theorem passing_enters_closing : entersClosing 0 passing = true := by
  have h : positionAt (stateOf passing (step passing)).net 0 = some .closing := by
    show positionAt (event (fun e => e.trialEnds (trialResult image
      { snapshotOf intended running.net with valves := [(0, .conducts), (1, .conducts)], revision := 0 } [0]) 0 (.plan 0))
        { passing with pending := [] }).net 0 = _
    unfold event Event.trialEnds
    dsimp only
    split <;> decide
  simp only [entersClosing, h]
  decide

theorem witness_closing :
    (TablesSound passing ∧ PlansSound passing ∧ Running passing ∧ entersClosing 0 passing = true)
      ∧ (TablesSound retried ∧ PlansSound retried ∧ Running retried ∧ entersClosing 1 retried = true) :=
  ⟨⟨tables_sound (by decide), plans_sound (by decide), ⟨rfl, rfl⟩, passing_enters_closing⟩,
    tables_sound (by decide), plans_sound (by decide), ⟨rfl, rfl⟩, by decide⟩

theorem witness_brings :
    Brings (.planRetry .p0 0 0) (.planRetry .p0 0 0)
      ∧ Brings (.transfer .p0 (bitsOf (frameOf 0x2E 0 [0]))) (.planRetry .p0 0 0) :=
  ⟨.inl rfl, .inr ⟨_, _, 0x2E, 0, [0], _, rfl, by decide, rfl, rfl⟩⟩

/-- Reports to plans in each state, their valve at a position. -/
theorem witness_plan_reports :
    (∀ st dir, lookup 0 (planned (plan st [0] dir) .opened).net.plans = some (plan st [0] dir))
      ∧ allAt (planned (plan .executing [0] .closes) .closed).net .closed [0] = true
      ∧ allAt (planned (plan .executing [0] .closes) .closing).net .closed [0] = false
      ∧ allAt (planned (plan .restoring [0] .opens) .opened).net .opened [0] = true
      ∧ allAt (planned (plan .restoring [0] .opens) .opening).net .opened [0] = false
      ∧ Position.stuck ∉ [Position.closed, .closing] ∧ Position.opening ∉ [Position.closed, .closing]
      ∧ Position.closing ∈ [Position.closed, .closing] ∧ Position.closed ∉ [Position.opened, .opening]
      ∧ Position.opening ∈ [Position.opened, .opening] :=
  ⟨fun _ _ => rfl, by decide, by decide, by decide, by decide, by decide, by decide, by decide, by decide, by decide⟩

theorem test_last_valve_isolates_the_plan :
    (after (.confirmClosed .p0 0 0) (planned (plan .executing [0] .closes) .closing)).net.plans.map (fun x => x.2.state) =
        [.isolated]
      ∧ (after (.reportInoperable .p0 0 0) (planned (plan .executing [0] .closes) .closing)).net.plans.map
          (fun x => (x.2.state, x.2.lastReason)) = [(.held, .valveFailed)] := by decide

/-- An assessed plan whose consequence is given, its outage if it has one, and the outages there are. -/
def declares (sections : List Nat) (overflow : Bool) (link : Option Nat) (l : Table Outage) : State :=
  withNet (fun n =>
    { n with
      plans := [(0, { assessedPlan sections overflow with outage := link })]
      valves := adjust 0 (fun y => { y with claim := some 0 }) n.valves
      outages := l })
where
  assessedPlan (sections : List Nat) (overflow : Bool) : Plan :=
    { plan .assessed [0] .unset with
      consequence := some { sections := sections, overflow := overflow, premises := 0, priority := 0, basis := 0 } }

/-- Empty outages in every record. -/
def allRecords : Table Outage :=
  (List.range 32).map (fun k => (k, { outage .active 0 0 with number := k + 1, members := [], affected := 0, noAccess := 0 }))

/-- An outage with 64 members, none of them a section of the small network. -/
def fullOutage : Outage :=
  { outage .declared 0 0 with
    members := (List.range 64).map (fun k => { sect := k + 9, hold := 0, confirmed := false }), affected := 0, noAccess := 0 }

theorem declares_owned (sections : List Nat) (overflow : Bool) (link : Option Nat) (l : Table Outage) :
    ∃ x c, OwnsPlan .p0 0 x (declares sections overflow link l) ∧ x.state = .assessed ∧ x.consequence = some c
      ∧ c.sections = sections ∧ c.overflow = overflow ∧ x.outage = link :=
  ⟨_, _, ⟨canSend .p0 .switching _ rfl rfl rfl (by simp), by decide, rfl, rfl⟩, rfl, rfl, rfl, rfl, rfl⟩

theorem witness_declarations_checked :
    (tablesHold (declares [1, 2] false none [(0, { outage .active 0 20 with plan := none })]) = true
        ∧ outageOf 1 (declares [1, 2] false none [(0, outage .active 0 20)]).net.outages = some (outage .active 0 20))
      ∧ (tablesHold (declares [1] false none allRecords) = true
          ∧ ∀ k, k < 32 → lookup k (declares [1] false none allRecords).net.outages ≠ none)
      ∧ (∀ st, tablesHold (declares [1, 2] false (some 31) [(0, outage st 0 20)]) = true
          ∧ ∃ o, outageAt 31 (declares [1, 2] false (some 31) [(0, outage st 0 20)]).net = some o ∧ o.state = st
            ∧ [1, 2].filter (fun k => !(memberSections o).contains k) = [2] ∧ o.members.length = 1
            ∧ [1].filter (fun k => !(memberSections o).contains k) = [])
      ∧ (tablesHold (declares [1] false (some 31) [(0, fullOutage)]) = true
          ∧ ∃ o, outageAt 31 (declares [1] false (some 31) [(0, fullOutage)]).net = some o ∧ o.members.length = 64
            ∧ [1].filter (fun k => !(memberSections o).contains k) = [1]) := by
  refine ⟨⟨?_, rfl⟩, ⟨?_, ?_⟩, fun st => ⟨?_, _, rfl, rfl, ?_, ?_⟩, ?_, _, rfl, ?_, ?_⟩
  · decide
  · decide
  · decide
  · cases st <;> decide
  · rfl
  · exact ⟨rfl, rfl⟩
  · decide
  · decide
  · decide

theorem witness_plans_sound : TablesSound State.reset ∧ PlansSound State.reset ∧ step State.reset = .next State.reset :=
  ⟨by constructor <;> simp [State.reset, Image.empty, Net.reset, Table.wf, keys, keysRising],
    ⟨fun v y k h => absurd h (by simp [State.reset, Net.reset]), fun k x h => absurd h (by simp [State.reset, Net.reset])⟩,
    rfl⟩

theorem witness_outages_sound : OutagesSound State.reset := by
  constructor <;> simp [State.reset, Net.reset, waiting, keys]

theorem witness_confirm :
    TablesSound (cutOff .recharging 0 20) ∧ TablesSound (cutOff .recharging 0 0) ∧ Running (cutOff .recharging 0 20) ∧ (∃ o, outageAt 31 (cutOff .recharging 0 20).net = some o ∧ o.state = .recharging
        ∧ 1 ∈ memberSections o ∧ (∃ x ∈ o.members, x.sect = 1 ∧ x.confirmed = false ∧ x.hold = 0) ∧ o.off ≠ 0)
      ∧ (∃ o, outageAt 31 (cutOff .recharging 0 0).net = some o ∧ o.off = 0)
      ∧ (∃ x ∈ ({ outage .recharging 0 20 with
            members := [{ sect := 1, hold := 0, confirmed := true }, { sect := 2, hold := 9, confirmed := false }] }
            : Outage).members, x.confirmed = false) := by
  refine ⟨tables_sound (by decide), tables_sound (by decide), ⟨rfl, rfl⟩, ⟨_, rfl, rfl, ?_⟩, ⟨_, rfl, rfl⟩, ?_⟩ <;> decide

/-- An outage without premises off, its plan and a linked call. -/
def closingOutage (st : OutageState) : State :=
  withNet (fun n =>
    { n with
      plans := [(0, { plan .restored [0] .opens with outage := some 31 })]
      outages := [(0, { outage st 0 (if st = .relighting then 1 else 0) with plan := some 0, linked := 1 })]
      calls := [(0, { call .noGas .received with outage := some 31 })] })

theorem witness_freed :
    TablesSound (closingOutage .recharging) ∧ (∃ o, outageAt 31 (closingOutage .recharging).net = some o ∧ o.state = .recharging ∧ o.off = 0 ∧ o.plan = some 0
        ∧ ∀ x ∈ o.members, x.sect = 1)
      ∧ (∃ o, outageAt 31 (closingOutage .relighting).net = some o ∧ o.state = .relighting ∧ o.off = 1)
      ∧ waiting (closingOutage .recharging).net = [] ∧ supplyAt (closingOutage .recharging).net 1 ≠ .unsupplied
      ∧ (∃ c, callNumbered 7 (closingOutage .recharging).net.calls = some (0, c) ∧ c.outage = some 31 ∧ c.kind = .noGas)
      ∧ (∃ x, lookup 0 (closingOutage .recharging).net.plans = some x ∧ x.outage = some 31) := by
  refine ⟨tables_sound (by decide), ⟨_, rfl, rfl, rfl, rfl, ?_⟩, ⟨_, rfl, rfl, rfl⟩, ?_, ?_, ⟨_, rfl, rfl, rfl⟩, _, rfl,
    rfl⟩ <;> decide

theorem test_last_premises_free_the_outage :
    let t := after (.outageRelit .p1 0 31 1) (closingOutage .relighting)
    t.net.outages = [] ∧ t.net.calls = [] ∧ t.net.plans.map (fun x => x.2.outage) = [none]
      ∧ (after (.outageConfirmSection .p0 0 31 1) (closingOutage .recharging)).net.outages = [] := by decide

/-- A walk runs over an outage of section 1; the sources are live, or none is. -/
def publishing (st : OutageState) (live : Bool) (before : Supply) : State :=
  withNet (fun n =>
    { n with
      engine := .walking { snapshotOf conducting n with live := if live then [0] else [] }
      sections := mapTable (fun _ z => { z with supply := before }) n.sections
      outages := [(0, outage st 0 20)] })

/-- Sections 0 to 2 lose supply with every record in use. -/
def noRecord : State :=
  withNet (fun n => { n with engine := .walking { snapshotOf conducting n with live := [] }, outages := allRecords })

theorem witness_publication (st : OutageState) (live : Bool) :
    TablesSound (publishing st live .uncertain) ∧ OutagesSound (publishing st live .uncertain)
      ∧ Running (publishing st live .uncertain) ∧ (∃ x, (publishing st live .uncertain).net.engine = .walking x)
      ∧ (∃ o, outageAt 31 (publishing st live .uncertain).net = some o ∧ o.state = st ∧ memberSections o = [1])
      ∧ supplyAt (after .liveWalkCompletes (publishing st live .uncertain)).net 1 =
          (if live then .supplied else .unsupplied)
      ∧ supplyAt (after .liveWalkCompletes (publishing st true .supplied)).net 1 = .supplied
      ∧ hasFreshLow image (publishing st live .uncertain).net 1 = false := by
  refine ⟨tables_sound ?_, outages_sound ?_, ⟨rfl, rfl⟩, ⟨_, rfl⟩, ⟨_, rfl, rfl, rfl⟩, ?_, ?_, ?_⟩
  all_goals cases st <;> cases live <;> decide

theorem witness_waiting_sections :
    (TablesSound noRecord ∧ OutagesSound noRecord
        ∧ (lookup 0 (after .liveWalkCompletes noRecord).net.sections).map Sect.unrecorded = some true)
      ∧ (lookup 2 (after .liveWalkCompletes (publishing .active false .uncertain)).net.sections).map Sect.awaiting =
          some false
      ∧ (∃ z, lookup 0 (withNet (fun n => { n with sections := adjust 0 (fun y => { y with awaiting := true }) n.sections })).net.sections
          = some z ∧ z.awaiting = true) := by
  refine ⟨⟨tables_sound ?_, outages_sound ?_, ?_⟩, ?_, _, rfl, rfl⟩ <;> decide

theorem test_publication_gathers_the_losses :
    (after .liveWalkCompletes (publishing .recharging false .uncertain)).net.outages.map
        (fun x => (x.2.cause, x.2.state, memberSections x.2)) =
      [(.planned, .active, [1]), (.supplyLoss, .active, [0, 2])] := by decide

theorem witness_losses_and_links :
    (TablesSound running ∧ OutagesSound running ∧ LossesRecorded running ∧ LinksSound running)
      ∧ step running = .next running := by
  refine ⟨⟨tables_sound (by decide), outages_sound (by decide), ⟨fun k z h hz => ?_, fun k z h hz => ?_⟩, ?_⟩, rfl⟩
  · have := mem_of_lookup h
    simp [running, startWalk, seedNet, image, mapTable, seedSect] at this
    rcases this with ⟨-, rfl⟩ | ⟨-, rfl⟩ | ⟨-, rfl⟩ <;> simp at hz
  · have := mem_of_lookup h
    simp [running, startWalk, seedNet, image, mapTable, seedSect] at this
    rcases this with ⟨-, rfl⟩ | ⟨-, rfl⟩ | ⟨-, rfl⟩ <;> simp at hz
  · have hs : ∀ k z, lookup k running.net.sections = some z → z.odour = 0 ∧ z.noGas = 0 := fun k z h => by
      have := mem_of_lookup h
      simp [running, startWalk, seedNet, image, mapTable, seedSect] at this
      rcases this with ⟨-, rfl⟩ | ⟨-, rfl⟩ | ⟨-, rfl⟩ <;> simp
    have hc : running.net.calls = [] := rfl
    have ho : ∀ n, outageAt n running.net = none := fun _ => rfl
    have hp : ∀ k, lookup k running.net.plans = none := fun _ => rfl
    constructor
    · intro slot x n h; simp [hp] at h
    · intro n o slot h; simp [ho] at h
    · simp [hc]
    · intro n o h; simp [ho] at h
    · intro k z h; simp [hc, (hs k z h).1]
    · intro k z h; simp [hc, (hs k z h).2]

theorem witness_premises :
    CanSend [.dispatch, .switching] .p1 (cutOff .relighting 0 20) ∧ outageAt 30 (cutOff .relighting 0 20).net = none
      ∧ (∃ o, outageAt 31 (cutOff .relighting 0 20).net = some o ∧ o.state = .relighting ∧ o.off = 20)
      ∧ (∃ o, outageAt 31 (cutOff .active 0 20).net = some o ∧ o.state ≠ .relighting) := by
  refine ⟨canSend .p1 .dispatch _ rfl rfl rfl (by simp), rfl, ⟨_, rfl, rfl, rfl⟩, _, rfl, ?_⟩
  decide

theorem witness_sample :
    CanSend [.telemetry] .p2 running ∧ lookup 9 running.net.points = none
      ∧ (∃ x d, lookup 0 running.net.points = some x ∧ lookup 0 image.points = some d ∧ d.period ≤ (60 : Byte).toNat
          ∧ (59 : Byte).toNat < d.period ∧ x.lastSample + (59 : Byte).toNat ≤ running.tbu.uptime.toNat ∧ x.value = none)
      ∧ (∃ x, lookup 0 (withNet (fun n =>
            { n with points := adjust 0 (fun y => { y with lastSample := 150, value := some 300 }) n.points })).net.points
              = some x ∧ running.tbu.uptime.toNat < x.lastSample + (59 : Byte).toNat ∧ x.value = some 300) := by
  refine ⟨witness_telemetry, rfl, ⟨_, _, rfl, rfl, ?_⟩, _, rfl, ?_⟩ <;> decide

theorem witness_batches :
    CanSend [.telemetry] .p2 running ∧ ([1, 0, 0, 0, 1] : List Byte).length % 4 ≠ 0
      ∧ 64 < (List.replicate 68 (0 : Byte)).length ∧ (List.replicate 68 (0 : Byte)).length % 4 = 0
      ∧ ([0, 1, 0xF4, 0] : List Byte).length % 4 = 0 ∧ (List.replicate 60 (0 : Byte)).length + 4 ≤ 64 := by
  refine ⟨witness_telemetry, ?_⟩
  decide

theorem test_a_batch_takes_its_entries_in_order :
    (after (.sampleBatch .p2 0 [1, 1, 0xF4, 0, 9, 0, 0, 0, 1, 1, 0xFE, 0]) running).ports.p2.response.body = [2, 1, 0, 0]
      ∧ ((lookup 1 (after (.sampleBatch .p2 0 [1, 1, 0xF4, 0, 1, 1, 0xFE, 0]) running).net.points).map
          (fun x => (x.value, x.ring))) = some (some 505, [10]) := by decide

/-- Point 1, of a section in an outage, in a band; every section supplied, a call of ODOUR open there. -/
def reporting (st : OutageState) (band : Band) (timer : Nat) : State :=
  withNet (fun n =>
    { n with
      sections := mapTable (fun _ z => { z with supply := .supplied }) n.sections
      outages := [(0, outage st 9 20)]
      points := adjust 1 (fun y => { y with band := band, fresh := true, value := some 50, timer := timer }) n.points
      calls := [(0, call .odour .assigned)] })

/-- The same with point 0, the outlet point of source 0, in a band. -/
def outletAt (band : Band) : State :=
  withNet (fun n => { n with points := adjust 0 (fun y => { y with band := band, fresh := true }) n.points })

theorem witness_point_reports (st : OutageState) (band : Band) (timer : Nat) :
    tablesHold (reporting st band timer) = true ∧ CanSend [.telemetry] .p2 (reporting st band timer)
      ∧ Running (reporting st band timer)
      ∧ (∃ x d, lookup 1 (reporting st band timer).net.points = some x ∧ lookup 1 image.points = some d ∧ d.sect = 1
          ∧ x.band = band ∧ x.timer = timer ∧ x.staleListed = false ∧ (0 : Byte).toNat < d.period
          ∧ x.lastSample + (0 : Byte).toNat ≤ (reporting st band timer).tbu.uptime.toNat)
      ∧ outageOf 1 (reporting st band timer).net.outages = some (outage st 9 20)
      ∧ outletSource image 1 = none ∧ outletSource image 0 = some 0
      ∧ (∃ z, lookup 0 (outletAt band).net.sources = some z) :=
  ⟨rfl, canSend .p2 .telemetry _ rfl rfl rfl (by simp), ⟨rfl, rfl⟩, ⟨_, _, rfl, rfl, rfl, rfl, rfl, rfl, by decide, by
      show 0 + 0 ≤ _; exact Nat.zero_le _⟩, rfl, by decide, by decide, _, rfl⟩

/-- 0 takes point 1 into LOWLOW, 500 into NORMAL. -/
theorem test_samples_move_the_outages :
    (after (.sampleBatch .p2 0 [1, 1, 0xF4, 0]) (reporting .active .lowlow 60)).net.outages.map (fun x => x.2.state) =
        [.recharging]
      ∧ (after (.sampleBatch .p2 0 [1, 0, 0, 0]) (reporting .relighting .normal 60)).net.outages.map
          (fun x => (x.2.state, x.2.relapse)) = [(.active, true)]
      ∧ (after (.sampleBatch .p2 0 [1, 0, 0, 0]) (reporting .recharging .normal 60)).net.outages.map
          (fun x => x.2.members.map Member.hold) = [[(paramsOf image).rechargeHold]]
      ∧ (after (.stalenessExpiry 1) (reporting .active .lowlow 0)).net.outages.map (fun x => x.2.state) = [.recharging] := by
  decide

/-- Outages 31 and 8 RELIGHTING, of sections 1 and 0; one sample below takes each section's point into LOWLOW. -/
def bothRelighting : State :=
  withNet (fun n =>
    { n with
      outages := [(0, outage .relighting 0 20),
                  (1, { outage .relighting 0 20 with number := 8, members := [{ sect := 0, hold := 0, confirmed := true }] })]
      points := mapTable (fun _ y => { y with band := .normal, fresh := true, candidate := some .lowlow, agreement := 1 })
        n.points })

/-- The entries relapse outage 31 before 8; RELAPSE goes out by outage number (R150), the points' own reports in entry
order (R124). -/
theorem test_batch_raises_in_outage_order :
    let l := (Event.samples [{ point := 1, raw := 0, age := 0 }, { point := 0, raw := 0, age := 0 }]
      (Event.start bothRelighting)).1.reports
    let indices := fun (b : Block) (m : List (Block × Report)) => (m.filter (fun x => x.1 == b)).map (fun x => x.2.cond.index)
    indices .ogt l = [31, 8] ∧ indices .ogt (neighbourOrder l) = [8, 31]
      ∧ indices .psv l = indices .psv (neighbourOrder l) ∧ (indices .psv l).head? = some 1 := by decide

theorem test_outlet_point_takes_the_source_out :
    (after (.sampleBatch .p2 0 [0, 0, 0, 0]) (withNet (fun n =>
        { n with points := adjust 0 (fun y => { y with candidate := some .lowlow, agreement := 1 }) n.points }))).net.sources.map
          (fun x => (x.2.outletLow, x.2.live)) = [(true, false)] := by decide

theorem test_staleness_raises_stale_first :
    ((Event.start (withNet (fun n => { n with points := adjust 1 (fun y =>
        { y with band := .lowlow, fresh := true, timer := 0, lowListed := true, lowlowListed := true }) n.points }))).stale
          1).reports.map (fun x => (x.2.kind, x.2.cond.kind)) =
      [(.raise, .stale), (.clear, .lowBand), (.clear, .lowlowBand)] := by decide

theorem witness_limits_and_staleness :
    CanSend [.switching] .p0 running ∧ lookup 9 running.net.points = none
      ∧ (∃ x d, lookup 0 running.net.points = some x ∧ lookup 0 running.cfu.image.points = some d)
      ∧ (∃ x d, lookup 1 (withNet (fun n => { n with points := adjust 1 (fun y => { y with timer := 0 }) n.points })).net.points
          = some x ∧ x.timer = 0 ∧ x.staleListed = false ∧ lookup 1 image.points = some d) :=
  ⟨witness_switching, rfl, ⟨_, _, rfl, rfl⟩, _, _, rfl, rfl, rfl, rfl⟩

theorem witness_call_new :
    TablesSound running ∧ CanSend [.dispatch] .p1 running ∧ (∃ z, lookup 1 running.net.sections = some z
        ∧ z.odour + 1 < (paramsOf image).clusterThreshold)
      ∧ running.tbu.clockSet = true ∧ (900 : Word) ≤ running.tbu.clock ∧ lookup 0 running.net.calls = none
      ∧ outageOf 1 running.net.outages = none ∧ (∃ o, outageOf 1 (cutOff .active 0 20).net.outages = some o)
      ∧ (∃ z, lookup 1 (withNet (fun n => { n with sections := adjust 1 (fun y => { y with odour := 2 }) n.sections })).net.sections
          = some z ∧ z.odour + 1 = (paramsOf image).clusterThreshold) := by
  refine ⟨tables_sound (by decide), witness_dispatch, ⟨_, rfl, ?_⟩, rfl, ?_, rfl,
    rfl, ⟨_, rfl⟩, _, rfl, ?_⟩
  all_goals decide

theorem witness_calls (kind : CallKind) (st : CallState) :
    CanSend [.dispatch] .p1 (called (call kind st)) ∧ Running (called (call kind st))
      ∧ callNumbered 7 (called (call kind st)).net.calls = some (0, call kind st)
      ∧ callNumbered 8 (called (call kind st)).net.calls = none ∧ (call kind st).state = st :=
  ⟨canSend .p1 .dispatch _ rfl rfl rfl (by simp), ⟨rfl, rfl⟩, rfl, rfl, rfl⟩

/-- An overdue call of a stage, its condition listed. -/
def overdueCall (kind : CallKind) (st : CallState) (g : Stage) : State :=
  listing { kind := overdueKind g, index := 7 } .activeAck (called (setOverdue true (call kind st) g))

theorem witness_overdue_calls (kind : CallKind) (st : CallState) (g : Stage) :
    AlarmsSound (overdueCall kind st g) ∧ CanSend [.dispatch] .p1 (overdueCall kind st g)
      ∧ (∃ c, callNumbered 7 (overdueCall kind st g).net.calls = some (0, c) ∧ overdue c g = true ∧ c.state = st
          ∧ c.kind = kind) :=
  ⟨alarms_sound (by cases g <;> rfl), canSend .p1 .dispatch _ rfl rfl rfl (by simp),
    setOverdue true (call kind st) g, by cases g <;> rfl, by cases g <;> rfl, by cases g <;> rfl, by cases g <;> rfl⟩

theorem test_the_end_of_a_stage_clears_its_condition :
    (after (.callArrived .p1 0 7) (overdueCall .odour .assigned .attend)).alu.entries = []
      ∧ (after (.callMadeSafe .p1 0 7) (overdueCall .odour .onSite .safe)).alu.entries = []
      ∧ (after (.callCancel .p1 0 7) (overdueCall .noGas .assigned .attend)).alu.entries = []
      ∧ (after (.callAssign .p1 0 7 5) (overdueCall .odour .assigned .attend)).alu.entries.length = 1 := by decide

/-- A call of grade 2 with 5 seconds of its stage left, some seconds into it. -/
def regraded (st : CallState) (elapsed : Nat) (link : Option Nat) : State :=
  called { call .noGas st with attend := 5, safe := 5, elapsed := elapsed, outage := link }

theorem witness_upgrades (st : CallState) (elapsed : Nat) (link : Option Nat) :
    AlarmsSound (regraded st elapsed link)
      ∧ (∃ c, callNumbered 7 (regraded st elapsed link).net.calls = some (0, c) ∧ c.grade = 2 ∧ c.elapsed = elapsed
          ∧ c.outage = link ∧ c.state = st)
      ∧ attendDeadline image 1 - 1800 = 0 ∧ attendDeadline image 1 - 1799 = 1 ∧ safeDeadline image 1 - 3600 = 0 :=
  ⟨alarms_sound rfl, ⟨_, rfl, rfl, rfl, rfl, rfl⟩, by decide, by decide, by decide⟩

theorem test_an_upgrade_without_time_expires :
    (after (.callRegrade .p1 0 7 1) (regraded .assigned 1800 none)).net.calls.map
        (fun x => (x.2.attend, x.2.overdueAttend, x.2.realarm)) = [(0, true, 900)]
      ∧ (after (.callRegrade .p1 0 7 1) (regraded .assigned 1799 none)).net.calls.map
        (fun x => (x.2.attend, x.2.overdueAttend, x.2.realarm)) = [(1, false, 0)]
      ∧ (after (.callRegrade .p1 0 7 1) (regraded .onSite 3600 (some 31))).net.calls.map
        (fun x => (x.2.safe, x.2.overdueSafe)) = [(0, false)] := by decide

theorem witness_call_at_work :
    ∃ x ∈ (withNet (fun n => { n with plans := [(0, { plan .isolated [0] .closes with reasonCall := some 7 })],
                                      calls := [(0, call .odour .madeSafe)] })).net.plans,
      x.2.reasonCall = some 7 ∧ x.2.state = .isolated := ⟨_, List.mem_cons_self .., rfl, rfl⟩

theorem witness_deadlines :
    stageOf .assigned = some .attend ∧ stageOf .onSite = some .safe ∧ remaining (call .odour .assigned) .attend = 0
      ∧ overdue (call .odour .assigned) .attend = false ∧ (call .odour .assigned).outage = none
      ∧ overdue { call .odour .onSite with overdueSafe := true } .safe = true ∧ (call .odour .onSite).realarm = 0 := by decide

/-- Conditions of 96 sections, listed. -/
def full : Alu :=
  { Alu.reset with
    entries := (List.range 96).map (fun k => { entry .activeUnack with number := k + 1, cond := { kind := .cluster, index := k } }) }

theorem full_sound : full.Sound := by
  constructor
  all_goals decide +kernel

theorem witness_raise :
    Alu.reset.Sound ∧ full.Sound ∧ full.entries.length = 96
      ∧ ({ kind := .stale, index := 1 } : CondId) ∉ full.entries.map Entry.cond := by
  refine ⟨?_, full_sound, ?_, ?_⟩
  · constructor <;> simp [Alu.reset]
  all_goals decide +kernel

theorem alarmed_sound (st : EntryState) : AlarmsSound (alarmed st) := by
  constructor <;> simp [alarmed, entry, Alu.reset]

theorem witness_acknowledge (st : EntryState) :
    AlarmsSound (alarmed st) ∧ CanSend [.dispatch, .switching] .p1 (alarmed st)
      ∧ (∃ x ∈ (alarmed st).alu.entries, x.number = (3 : Half).toNat ∧ x.state = st)
      ∧ (4 : Half).toNat ∉ (alarmed st).alu.entries.map Entry.number
      ∧ ∀ x ∈ (alarmed st).alu.entries, isLater x.seq (alarmed st).alu.seq = false :=
  ⟨alarmed_sound st, canSend .p1 .dispatch _ rfl rfl rfl (by simp), ⟨_, List.mem_cons_self .., rfl, rfl⟩,
    by simp [alarmed, entry], by simp [alarmed, entry, isLater]⟩

theorem witness_withheld :
    ∃ w, ranked [{ cond := { kind := .stale, index := 1 }, priority := 4, raisedUptime := 0, raisedClock := 0, repeats := 1 }]
      = [w] := ⟨_, rfl⟩

theorem witness_alarms_and_horn_sound :
    AlarmsSound State.reset ∧ HornSound State.reset ∧ step State.reset = .next State.reset := by
  refine ⟨by constructor <;> simp [State.reset, Alu.reset], ⟨⟨?_, ?_, rfl⟩, fun _ => ⟨rfl, rfl, rfl⟩⟩, rfl⟩
  · exact ⟨fun _ => rfl, fun _ => rfl⟩
  · intro p pulse on steps h; exact absurd h (by simp [State.reset, Alu.reset])

theorem witness_cadence (pulse : Nat) (on : Bool) (steps divider : Nat) :
    ∃ s : State, Running s ∧ s.alu.horn = .sounding 2 pulse on steps ∧ s.alu.divider = divider :=
  ⟨{ running with alu := { Alu.reset with horn := .sounding 2 pulse on steps, divider := divider } }, ⟨rfl, rfl⟩, rfl, rfl⟩

theorem witness_lamps : Running running ∧ running.msc.nextRow < 12 ∧ running.msc.lamps.length = 288
    ∧ CanSend [.switching] .p0 running := ⟨⟨rfl, rfl⟩, by decide, by decide, witness_switching⟩

theorem witness_second_tick :
    TablesSound running ∧ running.cfu.inReset = false ∧ State.reset.cfu.device ≠ .running
      ∧ (∃ x, lookup 1 (planned (plan .executing [1] .closes) .closing).net.valves = some x ∧ isDriven image 1 x = true
          ∧ x.travel ≤ 1 ∧ isDriven image 1 { x with travel := 2 } = true)
      ∧ (∃ x, lookup 0 running.net.valves = some x ∧ isDriven image 0 x = false)
      ∧ (∃ x, lookup 0 running.net.points = some x ∧ x.timer ≠ 1) ∧ running.net.outages = []
      ∧ (∃ c, lookup 0 (called { call .odour .assigned with attend := 2 }).net.calls = some c ∧ c.outage = none
          ∧ stageOf c.state = some .attend ∧ overdue c .attend = false ∧ 2 ≤ remaining c .attend
          ∧ c.elapsed < 4294967295) := by
  refine ⟨tables_sound (by decide), rfl, ?_, ⟨_, rfl, ?_⟩, ⟨_, rfl, ?_⟩,
    ⟨_, rfl, ?_⟩, rfl, _, rfl, ?_⟩
  all_goals decide

/-- A RECHARGING outage at the tick: the hold of its member, whether its point is in NORMAL. -/
def holding (hold : Nat) (band : Band) (off : Nat) : State :=
  withNet (fun n =>
    { n with
      points := mapTable (fun _ y => { y with band := band, fresh := true, timer := 5 }) n.points
      outages := [(0, outage .recharging hold off)] })

theorem witness_holds_at_the_tick (hold off : Nat) (band : Band) :
    (∀ j z, lookup j (holding hold band off).net.points = some z → z.timer ≠ 1)
      ∧ (∃ o, outageAt 31 (holding hold band off).net = some o ∧ o.state = .recharging ∧ o.off = off
          ∧ o.members = [{ sect := 1, hold := hold, confirmed := false }])
      ∧ qualifying image (holding 1 .normal 20).net 1 = true ∧ qualifying image (holding 1 .low 20).net 1 = false := by
  refine ⟨fun j z h => ?_, ⟨_, rfl, rfl, rfl, rfl⟩, ?_, ?_⟩
  · have := mem_of_lookup h
    simp [holding, withNet, running, startWalk, seedNet, image, mapTable] at this
    rcases this with ⟨-, rfl⟩ | ⟨-, rfl⟩ <;> simp
  · decide
  · decide

theorem test_holds_at_the_tick :
    let tick (s : State) := (Event.start s).outageTick.net.outages
    (tick (holding 2 .normal 20)).map (fun x => x.2.members.map Member.hold) = [[1]]
      ∧ (tick (holding 1 .normal 20)).map (fun x => x.2.state) = [.relighting]
      ∧ (tick (holding 1 .low 20)).map (fun x => x.2.members.map Member.hold) = [[(paramsOf image).rechargeHold]]
      ∧ tick (holding 1 .normal 0) = [] := by decide

/-- Point 0, in a band, one second before it goes stale. -/
def expiring (band : Band) : State :=
  withNet (fun n =>
    { n with
      points := adjust 0 (fun y =>
        { y with band := band, fresh := true, timer := 1, latch := true, highListed := true, fallListed := true }) n.points })

theorem witness_staleness_at_the_tick (band : Band) :
    TablesSound (expiring band) ∧ AlarmsSound (expiring band)
      ∧ (∃ x d, lookup 0 (expiring band).net.points = some x ∧ lookup 0 image.points = some d ∧ x.timer = 1
          ∧ x.staleListed = false ∧ listed x .highBand = true ∧ listed x .rateOfFall = true)
      ∧ outletSource image 0 = some 0 ∧ (∃ z, lookup 0 (expiring band).net.sources = some z)
      ∧ (lookup 0 (expiring .lowlow).net.points).map isFreshLow = some true :=
  ⟨tables_sound (by cases band <;> decide), alarms_sound rfl, ⟨_, _, rfl, rfl, rfl, rfl, rfl, rfl⟩, by decide,
    ⟨_, rfl⟩, by decide⟩

theorem test_a_point_goes_stale_at_the_tick :
    let e := (Event.start (expiring .lowlow)).staleTick 0
    (lookup 0 e.net.points).map (fun x => (x.timer, x.fresh, x.staleListed, x.fallListed)) = some (0, false, true, false)
      ∧ e.reports.map (fun x => (x.2.kind, x.2.cond.kind)) = [(.raise, .stale), (.clear, .highBand), (.clear, .rateOfFall)]
      ∧ (lookup 0 e.net.sources).map Source.live = some true := by decide

/-- A call beside an outage of section 1, whose member has a hold. -/
def tickingCall (c : Call) (st : OutageState) (hold off : Nat) : State :=
  withNet (fun n =>
    { n with
      points := mapTable (fun _ y => { y with band := .normal, fresh := true, timer := 5 }) n.points
      outages := [(0, outage st hold off)]
      calls := [(0, c)] })

theorem witness_calls_expire (c : Call) (hn : c.number = 7) (st : OutageState) (hold off : Nat) :
    lookup 0 (tickingCall c st hold off).net.calls = some c
      ∧ (tickingCall c st hold off).net.points.map (fun x => x.2.timer) = [5, 5]
      ∧ outageAt 31 (tickingCall c st hold off).net = some (outage st hold off)
      ∧ (∃ z ∈ (outage st 2 off).members, z.confirmed = false ∧ 2 ≤ z.hold)
      ∧ (outage st 1 20).off ≠ 0 ∧ (outage st 1 20).members.map Member.hold = [1]
      ∧ callNumbered 7 (tickingCall c st hold off).net.calls = some (0, c) := by
  refine ⟨rfl, rfl, rfl, ⟨_, List.mem_cons_self .., rfl, Nat.le_refl 2⟩, (by decide : (20 : Nat) ≠ 0), rfl, ?_⟩
  simp [tickingCall, withNet, callNumbered, hn]

/-- A call after its tick: attend remaining, overdue, re-alarm remaining, stage elapsed, and what it reported. -/
def tickedTo (c : Call) : List (Nat × Bool × Nat × Nat) × List (ReportKind × CondKind) :=
  let e := (Event.start (called c)).callTick 7
  (e.net.calls.map (fun x => (x.2.attend, x.2.overdueAttend, x.2.realarm, x.2.elapsed)),
    e.reports.map (fun x => (x.2.kind, x.2.cond.kind)))

theorem test_calls_at_the_tick :
    tickedTo { call .odour .assigned with attend := 2 } = ([(1, false, 0, 11)], [])
      ∧ tickedTo { call .odour .assigned with attend := 1 } = ([(0, true, 900, 11)], [(.raise, .overdueAttend)])
      ∧ tickedTo { call .odour .assigned with overdueAttend := true, realarm := 2 } = ([(0, true, 1, 11)], [])
      ∧ tickedTo { call .odour .assigned with overdueAttend := true, realarm := 1 } =
          ([(0, true, 900, 11)], [(.reraise, .overdueAttend)])
      ∧ tickedTo { call .noGas .assigned with attend := 1, outage := some 31 } = ([(1, false, 0, 10)], []) := by
  refine ⟨?_, ?_, ?_, ?_, ?_⟩ <;> rfl

theorem witness_calls_at_the_tick (st : OutageState) :
    ∃ s : State, TablesSound s ∧ s.net.outages = [(0, outage st 0 20)] ∧ ∃ c, lookup 0 s.net.calls = some c
      ∧ c.outage = none ∧ 2 ≤ remaining c .attend := by
  refine ⟨{ cutOff st 0 20 with
    net := { (cutOff st 0 20).net with calls := [(0, { call .odour .assigned with attend := 2 })] } },
    tables_sound ?_, rfl, _, rfl, rfl, ?_⟩
  · cases st <;> decide
  · decide

end Sys2Proof.Tests
end

section
/-!
Laws of numbers and tables that the invariants of the records rest on: the next-number convention gives a number that is
not held, the lowest free key has no record, and the writes of a table keep its canonical form, its key range and the
numbers of its records.
-/

namespace Sys2Proof.Machine

variable {α β : Type}

/-! ### The next-number convention (Introduction 5.2) -/

theorem succNumber_range (n : Nat) : 1 ≤ succNumber n ∧ succNumber n ≤ 65535 := by
  unfold succNumber
  split <;> omega

theorem nextNumber_range (held : List Nat) (fuel last : Nat) :
    1 ≤ nextNumber held fuel last ∧ nextNumber held fuel last ≤ 65535 := by
  induction fuel generalizing last with
  | zero => exact succNumber_range last
  | succ fuel ih =>
    unfold nextNumber
    split
    · exact ih _
    · exact succNumber_range last

/-- The number given stands a number of places after the last one, and every number before it is held. -/
theorem nextNumber_mem {held : List Nat} {fuel last : Nat} (h : nextNumber held fuel last ∈ held) :
    ∀ i ≤ fuel, succNumber^[i + 1] last ∈ held := by
  induction fuel generalizing last with
  | zero =>
    intro i hi
    obtain rfl : i = 0 := by omega
    exact h
  | succ fuel ih =>
    unfold nextNumber at h
    split at h
    · next hheld =>
      intro i hi
      cases i with
      | zero => exact hheld
      | succ i => exact ih h i (by omega)
    · next hfree => exact absurd h hfree

theorem succNumber_iterate (n i : Nat) : succNumber^[i + 1] n = (succNumber n - 1 + i) % 65535 + 1 := by
  induction i with
  | zero =>
    have := succNumber_range n
    simp only [Function.iterate_succ, Function.iterate_zero, Function.comp, id]
    omega
  | succ i ih =>
    rw [Function.iterate_succ_apply', ih]
    generalize succNumber n - 1 = m
    unfold succNumber
    split <;> omega

/-- The number given is not held: the numbers tried differ, and there are more of them than numbers held. -/
theorem nextNumber_notMem {held : List Nat} (last : Nat) (h : held.length < 65535) :
    nextNumber held (held.length + 1) last ∉ held := by
  intro hmem
  have hinj : Set.InjOn (fun i => succNumber^[i + 1] last) (Finset.range (held.length + 1)) := by
    intro i hi j hj hij
    simp only [Finset.coe_range, Set.mem_Iio] at hi hj
    simp only [succNumber_iterate] at hij
    omega
  have hsub : (Finset.range (held.length + 1)).image (fun i => succNumber^[i + 1] last) ⊆ held.toFinset := by
    intro x hx
    obtain ⟨i, hi, rfl⟩ := Finset.mem_image.1 hx
    exact List.mem_toFinset.2 (nextNumber_mem hmem i (by have := Finset.mem_range.1 hi; omega))
  have hcard := Finset.card_le_card hsub
  rw [Finset.card_image_of_injOn hinj, Finset.card_range] at hcard
  have := held.toFinset_card_le
  omega

/-! ### The lowest free key -/

theorem lowestFree_spec {t : Table α} {a n k : Nat} (h : lowestFree t a n = some k) :
    lookup k t = none ∧ a ≤ k ∧ k < a + n := by
  induction n generalizing a with
  | zero => simp [lowestFree] at h
  | succ n ih =>
    unfold lowestFree at h
    split at h
    · obtain ⟨hfree, hge, hlt⟩ := ih h
      exact ⟨hfree, by omega, by omega⟩
    · next hnone =>
      simp only [Option.some.injEq] at h
      subst h
      exact ⟨by simpa using hnone, by omega, by omega⟩

theorem lowestFree_lt {t : Table α} {n k : Nat} (h : lowestFree t 0 n = some k) : k < n := by
  have := (lowestFree_spec h).2.2
  omega

/-! ### Key range -/

/-- A table in canonical form whose keys lie below a capacity. -/
def Table.Within (cap : Nat) (t : Table α) : Prop := t.wf = true ∧ ∀ k ∈ keys t, k < cap

theorem Table.Within.put {cap k : Nat} {v : α} {t : Table α} (h : Table.Within cap t) (hk : k < cap) :
    Table.Within cap (put k v t) :=
  ⟨Table.wf_put k v t h.1, fun j hj => (mem_keys_put hj).elim (fun he => he ▸ hk) (h.2 j)⟩

theorem Table.Within.remove {cap k : Nat} {t : Table α} (h : Table.Within cap t) : Table.Within cap (remove k t) :=
  ⟨Table.wf_remove k t h.1, fun j hj => h.2 j (mem_keys_remove hj)⟩

theorem Table.Within.adjust {cap k : Nat} {f : α → α} {t : Table α} (h : Table.Within cap t) :
    Table.Within cap (adjust k f t) :=
  ⟨(Table.wf_adjust k f t).trans h.1, fun j hj => h.2 j (by simpa using hj)⟩

theorem Table.Within.mapTable {cap : Nat} {f : Nat → α → β} {t : Table α} (h : Table.Within cap t) :
    Table.Within cap (mapTable f t) :=
  ⟨(Table.wf_mapTable f t).trans h.1, fun j hj => h.2 j (by simpa using hj)⟩

theorem keys_filter_sublist (f : Nat × α → Bool) (t : Table α) : (keys (t.filter f)).Sublist (keys t) := by
  rw [keys_eq_map, keys_eq_map]
  exact List.filter_sublist.map _

theorem keysRising_iff_pairwise (l : List Nat) : keysRising l = true ↔ l.Pairwise (fun a b => a < b) := by
  induction l with
  | nil => simp [keysRising]
  | cons a l ih => rw [keysRising_cons, List.pairwise_cons, ih]

theorem Table.wf_filter (f : Nat × α → Bool) {t : Table α} (h : t.wf = true) : Table.wf (t.filter f) = true :=
  (keysRising_iff_pairwise _).2 (((keysRising_iff_pairwise _).1 h).sublist (keys_filter_sublist f t))

theorem Table.Within.filter {cap : Nat} {f : Nat × α → Bool} {t : Table α} (h : Table.Within cap t) :
    Table.Within cap (t.filter f) :=
  ⟨Table.wf_filter f h.1, fun j hj => h.2 j ((keys_filter_sublist f t).subset hj)⟩

/-- A table holds no more records than it has keys. -/
theorem Table.Within.length_le {cap : Nat} {t : Table α} (h : Table.Within cap t) : t.length ≤ cap := by
  have hnodup : (keys t).Nodup := ((keysRising_iff_pairwise _).1 h.1).imp Nat.ne_of_lt
  have hsub : (keys t).toFinset ⊆ Finset.range cap := fun k hk => Finset.mem_range.2 (h.2 k (List.mem_toFinset.1 hk))
  have hcard := Finset.card_le_card hsub
  rwa [List.toFinset_card_of_nodup hnodup, Finset.card_range, keys_eq_map, List.length_map] at hcard

/-! ### Numbers of records -/

/-- No two records have one number. -/
def Table.Numbered (number : α → Nat) (t : Table α) : Prop := (t.map (fun x => number x.2)).Nodup

theorem mem_put {k : Nat} {v : α} {t : Table α} {x : Nat × α} (h : x ∈ put k v t) : x = (k, v) ∨ x ∈ t := by
  induction t with
  | nil => exact Or.inl (by simpa [put] using h)
  | cons y t ih =>
    simp only [put] at h
    split at h
    · exact List.mem_cons.1 h
    · split at h
      · exact (List.mem_cons.1 h).imp_right (List.mem_cons_of_mem _)
      · rcases List.mem_cons.1 h with rfl | h
        · exact Or.inr (List.mem_cons_self ..)
        · exact (ih h).imp_right (List.mem_cons_of_mem _)

theorem Table.Numbered.put {number : α → Nat} {k : Nat} {v : α} {t : Table α} (h : Table.Numbered number t)
    (hv : number v ∉ t.map (fun x => number x.2)) : Table.Numbered number (put k v t) := by
  unfold Table.Numbered at h ⊢
  induction t with
  | nil => simp [Machine.put]
  | cons y t ih =>
    simp only [List.map_cons, List.nodup_cons, List.mem_cons, not_or] at h hv
    simp only [Machine.put]
    split
    · simp only [List.map_cons, List.nodup_cons, List.mem_cons, not_or]
      exact ⟨hv, h⟩
    · split
      · exact List.nodup_cons.2 ⟨hv.2, h.2⟩
      · refine List.nodup_cons.2 ⟨fun hm => ?_, ih h.2 hv.2⟩
        obtain ⟨x, hx, he⟩ := List.mem_map.1 hm
        rcases mem_put hx with rfl | hx
        · exact hv.1 he
        · exact h.1 (List.mem_map.2 ⟨x, hx, he⟩)

theorem map_number_mapTable {number : α → Nat} {f : Nat → α → α} (hf : ∀ k x, number (f k x) = number x) (t : Table α) :
    (mapTable f t).map (fun x => number x.2) = t.map (fun x => number x.2) := by
  induction t with
  | nil => rfl
  | cons y t ih => simp [mapTable, hf, ih]

theorem Table.Numbered.mapTable {number : α → Nat} {f : Nat → α → α} {t : Table α} (h : Table.Numbered number t)
    (hf : ∀ k x, number (f k x) = number x) : Table.Numbered number (mapTable f t) := by
  unfold Table.Numbered
  rw [map_number_mapTable hf]
  exact h

theorem Table.Numbered.filter {number : α → Nat} {f : Nat × α → Bool} {t : Table α} (h : Table.Numbered number t) :
    Table.Numbered number (t.filter f) := h.sublist (List.filter_sublist.map _)

end Sys2Proof.Machine
end

section
/-!
The form of the record tables within one event: each operation on an event keeps every table of the network blocks in
canonical form, plans, outages and calls within their records, and outage and call numbers given once (Introduction 5.2,
5.4). One lemma per operation, in the order of the model; a lemma about an operation applies those about the operations
it is made of.
-/

namespace Sys2Proof.Machine

/-- The part of `TablesSound` that speaks of the network blocks. -/
structure Net.Tabled (n : Net) : Prop where
  sections : n.sections.wf = true
  valves : n.valves.wf = true
  sources : n.sources.wf = true
  points : n.points.wf = true
  plans : Table.Within 16 n.plans
  outages : Table.Within 32 n.outages
  calls : Table.Within 128 n.calls
  outageNumbers : Table.Numbered Outage.number n.outages
  callNumbers : Table.Numbered Call.number n.calls

/-- The network blocks of an event are in form. -/
def Event.Tabled (e : Event) : Prop := e.net.Tabled

namespace Net.Tabled

variable {n : Net}

/-! ### Writes of one field -/

theorem setSections {x : Table Sect} (h : n.Tabled) (hx : x.wf = true) : Net.Tabled { n with sections := x } :=
  { h with sections := hx }

theorem setValves {x : Table Valve} (h : n.Tabled) (hx : x.wf = true) : Net.Tabled { n with valves := x } :=
  { h with valves := hx }

theorem setSources {x : Table Source} (h : n.Tabled) (hx : x.wf = true) : Net.Tabled { n with sources := x } :=
  { h with sources := hx }

theorem setPoints {x : Table Point} (h : n.Tabled) (hx : x.wf = true) : Net.Tabled { n with points := x } :=
  { h with points := hx }

theorem setPlans {x : Table Plan} (h : n.Tabled) (hx : Table.Within 16 x) : Net.Tabled { n with plans := x } :=
  { h with plans := hx }

theorem setOutages {x : Table Outage} (h : n.Tabled) (hx : Table.Within 32 x) (hn : Table.Numbered Outage.number x) :
    Net.Tabled { n with outages := x } :=
  { h with outages := hx, outageNumbers := hn }

theorem setCalls {x : Table Call} (h : n.Tabled) (hx : Table.Within 128 x) (hn : Table.Numbered Call.number x) :
    Net.Tabled { n with calls := x } :=
  { h with calls := hx, callNumbers := hn }

theorem adjustValve {v : Nat} {f : Valve → Valve} (h : n.Tabled) :
    Net.Tabled { n with valves := adjust v f n.valves } := h.setValves ((Table.wf_adjust _ _ _).trans h.valves)

theorem adjustPlan {slot : Nat} {f : Plan → Plan} (h : n.Tabled) :
    Net.Tabled { n with plans := adjust slot f n.plans } := h.setPlans h.plans.adjust

/-- An outage is changed under its number. -/
theorem changeOutage {k : Nat} {f : Outage → Outage} (h : n.Tabled) (hf : ∀ o, (f o).number = o.number) :
    Net.Tabled { n with outages := mapTable (fun _ o => if o.number = k then f o else o) n.outages } :=
  h.setOutages h.outages.mapTable (h.outageNumbers.mapTable (fun _ o => by split; exacts [hf o, rfl]))

/-- A call is changed under its number. -/
theorem changeCall {k : Nat} {f : Call → Call} (h : n.Tabled) (hf : ∀ c, (f c).number = c.number) :
    Net.Tabled { n with calls := mapTable (fun _ c => if c.number = k then f c else c) n.calls } :=
  h.setCalls h.calls.mapTable (h.callNumbers.mapTable (fun _ c => by split; exacts [hf c, rfl]))

/-! ### The engine writes no table -/

theorem startWalk (h : n.Tabled) : (startWalk n).Tabled := { h with }

theorem startTrial (h : n.Tabled) : (startTrial n).Tabled := by
  unfold Machine.startTrial
  split
  · exact h
  · exact { h with }

theorem countChange (h : n.Tabled) : (countChange n).Tabled := by
  unfold Machine.countChange
  dsimp only
  split
  · exact startWalk { h with }
  · exact { h with }

theorem queueTrial {t : TrialEntry} {m : Net} (h : n.Tabled) (hq : queueTrial t n = some m) : m.Tabled := by
  unfold Machine.queueTrial at hq
  split at hq
  · simp at hq
  · simp only [Option.some.injEq] at hq
    subst hq
    split
    · exact startTrial { h with }
    · exact { h with }

theorem grantAfterWalk (h : n.Tabled) : (grantAfterWalk n).Tabled := by
  unfold Machine.grantAfterWalk
  dsimp only
  split
  · split
    · exact startWalk { h with }
    · exact { h with }
  · exact startTrial { h with }

theorem grantAfterTrial (h : n.Tabled) : (grantAfterTrial n).Tabled := by
  unfold Machine.grantAfterTrial
  dsimp only
  split
  · exact startWalk { h with }
  · split
    · exact { h with }
    · exact startTrial { h with }

/-! ### New numbers -/

theorem nextOutage_notMem (h : n.Tabled) : nextOutage n ∉ n.outages.map (fun x => x.2.number) := by
  have hlen := h.outages.length_le
  have := nextNumber_notMem (held := n.outages.map (fun x => x.2.number)) n.lastOutage
    (by rw [List.length_map]; omega)
  rwa [List.length_map] at this

theorem nextCall_notMem (h : n.Tabled) : nextCall n ∉ n.calls.map (fun x => x.2.number) := by
  have hlen := h.calls.length_le
  have := nextNumber_notMem (held := n.calls.map (fun x => x.2.number)) n.lastCall (by rw [List.length_map]; omega)
  rwa [List.length_map] at this

/-- The reasons written at the end of an event are fields of plans (R58). -/
theorem writeReasons {l : List PlanMark} (h : n.Tabled) : (writeReasons l n).Tabled := by
  induction l generalizing n with
  | nil => exact h
  | cons x t ih =>
    refine ih ?_
    split
    · exact h.adjustPlan
    · exact h

end Net.Tabled

namespace Event.Tabled

variable {e : Event}

/-! ### Reports, notices and marks -/

theorem report {b : Block} {k : ReportKind} {c : CondKind} {i : Nat} (h : e.Tabled) : (e.report b k c i).Tabled := h

theorem signal {b : Block} {a : Bool} {c : CondKind} {i : Nat} (h : e.Tabled) : (e.signal b a c i).Tabled := h

theorem post {b : Block} {y : NoticeBody} {l : List PortId} (h : e.Tabled) : (e.post b y l).Tabled := h

theorem markOutage {n : Nat} (h : e.Tabled) : (e.markOutage n).Tabled := Event.markOutage_keeps n e h

theorem markClosed {n k : Nat} (h : e.Tabled) : (e.markClosed n k).Tabled := h

theorem markCall {n : Nat} (h : e.Tabled) : (e.markCall n).Tabled := Event.markCall_keeps n e h

theorem markFreed {c : Call} {d : CallEnd} (h : e.Tabled) : (e.markFreed c d).Tabled := h

/-! ### Walk Engine and Source Monitor -/

theorem changed (h : e.Tabled) : e.changed.Tabled := Net.Tabled.countChange h

theorem source {k : Nat} {f : Source → Source} (h : e.Tabled) : (e.source k f).Tabled := by
  unfold Event.source
  dsimp only
  split
  · exact h
  · have hput (y : Source) : (e.setNet { e.net with sources := put k y e.net.sources }).Tabled :=
      Net.Tabled.setSources h (Table.wf_put _ _ _ h.sources)
    split
    · exact hput _
    · exact (hput _).changed

theorem trip {k : Nat} {a : Bool} (h : e.Tabled) : (e.trip k a).Tabled := by
  unfold Event.trip
  split
  · exact h
  · split
    · exact h
    · exact h.source.signal

theorem outlet {p : Nat} {low : Bool} (h : e.Tabled) : (e.outlet p low).Tabled := by
  unfold Event.outlet
  split
  · exact h
  · exact h.source

/-! ### Plan Table -/

theorem plan {slot : Nat} {r : Reason} {pin : Bool} {f : Plan → Plan} (h : e.Tabled) : (e.plan slot r pin f).Tabled :=
  Net.Tabled.adjustPlan h

theorem planQuietly {slot : Nat} {f : Plan → Plan} (h : e.Tabled) : (e.planQuietly slot f).Tabled :=
  Net.Tabled.adjustPlan h

theorem movingReport {slot : Nat} {p : Plan} {d : Direction} {moved : Option Position} {outcome : Option Ending}
    (h : e.Tabled) : (e.movingReport slot p d moved outcome).Tabled := by
  unfold Event.movingReport
  split
  · exact h.plan
  · split
    · exact h.plan
    · exact h

theorem settledReport {slot : Nat} {d : Direction} {moved : Option Position} (h : e.Tabled) :
    (e.settledReport slot d moved).Tabled := by
  unfold Event.settledReport
  split
  · exact h
  · exact h.plan

theorem heldReport {slot : Nat} {p : Plan} (h : e.Tabled) : (e.heldReport slot p).Tabled := by
  unfold Event.heldReport
  split
  · exact h.plan
  · exact h

theorem planReport {slot : Nat} {moved : Option Position} {outcome : Option Ending} (h : e.Tabled) :
    (e.planReport slot moved outcome).Tabled := by
  unfold Event.planReport
  split
  · exact h
  · next p _ =>
    cases hp : p.state
    case executing => exact h.movingReport
    case restoring => exact h.movingReport
    case isolated => exact h.settledReport
    case restored => exact h.settledReport
    case held => exact h.heldReport
    all_goals exact h

theorem settleIfAll {slot : Nat} {r : Reason} (h : e.Tabled) : (e.settleIfAll slot r).Tabled := by
  unfold Event.settleIfAll
  split
  · exact h
  · split
    · exact h.plan
    · exact h

theorem forgetCall {n : Nat} (h : e.Tabled) : (e.forgetCall n).Tabled :=
  Net.Tabled.setPlans h h.plans.mapTable

theorem unlinkPlan {slot : Nat} (h : e.Tabled) : (e.unlinkPlan slot).Tabled := h.plan

/-! ### Valve Controller -/

theorem setStuck {v : Nat} {b : Bool} (h : e.Tabled) : (e.setStuck v b).Tabled := by
  unfold Event.setStuck
  split
  · exact h
  · split
    · exact h
    · exact Net.Tabled.adjustValve h

theorem setUncommanded {v : Nat} {b : Bool} (h : e.Tabled) : (e.setUncommanded v b).Tabled := by
  unfold Event.setUncommanded
  split
  · exact h
  · split
    · exact h
    · exact Net.Tabled.adjustValve h

theorem setConflict {v : Nat} {b : Bool} (h : e.Tabled) : (e.setConflict v b).Tabled := by
  unfold Event.setConflict
  split
  · exact h
  · split
    · exact h
    · exact Net.Tabled.adjustValve h

theorem stuckFollows {v : Nat} {x : Position} (h : e.Tabled) : (e.stuckFollows v x).Tabled := by
  cases x
  case stuck => exact h.setStuck
  case opened => exact h.setStuck
  case closed => exact h.setStuck
  all_goals exact h

theorem claimReport {claim : Option Nat} {moved : Option Position} {outcome : Option Ending} (h : e.Tabled) :
    (e.claimReport claim moved outcome).Tabled := by
  cases claim with
  | none => exact h
  | some k => exact h.planReport

theorem placeValve {d : ValveDef} {v : Nat} {pos : Position} {k : Nat} (h : e.Tabled) :
    (e.setNet (placeValve d v pos k e.net)).Tabled :=
  { Net.Tabled.adjustValve (v := v) (f := fun y => { y with position := pos, travel := k }) h with }

theorem moveValve {v : Nat} {pos : Position} {k : Nat} {outcome : Option Ending} (h : e.Tabled) :
    (e.moveValve v pos k outcome).Tabled := by
  unfold Event.moveValve
  dsimp only
  split
  · split
    · split
      · exact h.placeValve
      · exact h.placeValve.claimReport
    · exact h.placeValve.stuckFollows.changed.post.claimReport
  · exact h

theorem orderManual {v : Nat} {x : Valve} {dir : Direction} (h : e.Tabled) : (e.orderManual v x dir).Tabled := by
  unfold Event.orderManual
  split
  · exact h.claimReport
  · split
    · exact h
    · exact h.moveValve

theorem orderActuated {v : Nat} {x : Valve} {d : ValveDef} {dir : Direction} (h : e.Tabled) :
    (e.orderActuated v x d dir).Tabled := by
  unfold Event.orderActuated
  split
  · exact h.moveValve
  · split
    · exact h
    · exact h.moveValve

theorem order {v : Nat} {dir : Direction} (h : e.Tabled) : (e.order dir v).Tabled := by
  unfold Event.order
  split
  · split
    · exact h.setUncommanded.orderManual
    · exact h.setUncommanded.orderActuated
  · exact h

theorem orders {dir : Direction} {l : List Nat} (h : e.Tabled) : (Event.orders dir l e).Tabled := by
  induction l generalizing e with
  | nil => exact h
  | cons v t ih => exact ih h.order

theorem abort {v : Nat} (h : e.Tabled) : (e.abort v).Tabled := by
  unfold Event.abort
  split
  · split
    · exact h.moveValve
    · exact h
  · exact h

theorem aborts {l : List Nat} (h : e.Tabled) : (Event.aborts l e).Tabled := by
  induction l generalizing e with
  | nil => exact h
  | cons v t ih => exact ih h.abort

theorem conflictReport {v : Nat} {x : Valve} (h : e.Tabled) : (e.conflictReport v x).Tabled := h.setConflict.moveValve

theorem afterConflict {v : Nat} {x : Valve} {shown : Option Position} (h : e.Tabled) :
    (e.afterConflict v x shown).Tabled := h.setConflict.moveValve

theorem restReport {v : Nat} {x : Valve} {shown : Option Position} (h : e.Tabled) :
    (e.restReport v x shown).Tabled := by
  unfold Event.restReport
  split
  · exact h.setUncommanded.moveValve
  · exact h.setUncommanded.moveValve
  · exact h.setUncommanded.moveValve
  · exact h.setUncommanded.moveValve
  · exact h.moveValve
  · exact h.moveValve
  · exact h

theorem limitReport {v : Nat} (h : e.Tabled) : (e.limitReport v).Tabled := by
  unfold Event.limitReport
  dsimp only
  split
  · next x d _ _ =>
    split
    · exact h.conflictReport
    · split
      · exact h.afterConflict
      · cases x.position
        case closing => dsimp only; split; exacts [h.moveValve, h]
        case opening => dsimp only; split; exacts [h.moveValve, h]
        all_goals exact h.restReport
  · exact h

theorem travelExpiry {v : Nat} (h : e.Tabled) : (e.travelExpiry v).Tabled := by
  unfold Event.travelExpiry
  split
  · exact h
  · split
    · exact h.moveValve
    · exact h

theorem travelTick {v : Nat} (h : e.Tabled) : (e.travelTick v).Tabled := by
  unfold Event.travelTick
  split
  · exact h
  · split
    · exact travelExpiry (Net.Tabled.adjustValve h)
    · exact h

theorem travelTicks {l : List Nat} (h : e.Tabled) : (Event.travelTicks l e).Tabled := by
  induction l generalizing e with
  | nil => exact h
  | cons v t ih => exact ih h.travelTick

theorem verify {v : Nat} {x : Position} (h : e.Tabled) : (e.verify v x).Tabled := h.setStuck.setUncommanded.moveValve

/-! ### Call Register -/

theorem callQuietly {n : Nat} {f : Call → Call} (h : e.Tabled)
    (hf : ∀ c, (f c).number = c.number := by intro _; rfl) :
    (e.callQuietly n f).Tabled := Net.Tabled.changeCall h hf

theorem call {n : Nat} {f : Call → Call} (h : e.Tabled) (hf : ∀ c, (f c).number = c.number := by intro _; rfl) :
    (e.call n f).Tabled :=
  (h.callQuietly hf).markCall

theorem sectFields {k : Nat} {f : Sect → Sect} (h : e.Tabled) : (e.sectFields k f).Tabled :=
  Net.Tabled.setSections h ((Table.wf_adjust _ _ _).trans h.sections)

theorem setRemaining_number (r : Nat) (c : Call) (st : Stage) : (setRemaining r c st).number = c.number := by
  cases st <;> rfl

theorem setOverdue_number (b : Bool) (c : Call) (st : Stage) : (setOverdue b c st).number = c.number := by
  cases st <;> rfl

theorem upgraded_number (m : Image) (g : Nat) (c : Call) : (upgraded m g c).number = c.number := by
  unfold upgraded
  split
  · rfl
  · exact setRemaining_number _ _ _

theorem stopTiming_number (c : Call) : (stopTiming c).number = c.number := by
  unfold stopTiming
  split <;> rfl

theorem expire {n : Nat} {st : Stage} (h : e.Tabled) : (e.expire n st).Tabled := by
  unfold Event.expire
  split
  · exact h
  · exact (h.callQuietly fun c => by exact setOverdue_number true c st).report.post

theorem realarmed {n : Nat} {st : Stage} (h : e.Tabled) : (e.realarmed n st).Tabled := by
  unfold Event.realarmed
  split
  · exact h
  · exact h.callQuietly.report.post

theorem expireIfDue {n : Nat} (h : e.Tabled) : (e.expireIfDue n).Tabled := by
  unfold Event.expireIfDue
  split
  · exact h
  · split
    · exact h
    · split
      · exact h.expire
      · exact h

theorem realarmIfDue {n : Nat} (h : e.Tabled) : (e.realarmIfDue n).Tabled := by
  unfold Event.realarmIfDue
  split
  · exact h
  · split
    · exact h
    · split
      · exact h.realarmed
      · exact h

theorem callTick {n : Nat} (h : e.Tabled) : (e.callTick n).Tabled := by
  unfold Event.callTick
  split
  · exact h
  · split
    · split
      · exact (h.callQuietly fun c => by exact setRemaining_number _ _ _).realarmIfDue
      · split
        · exact h.callQuietly
        · exact (h.callQuietly fun c => by exact setRemaining_number _ _ _).expireIfDue
    · exact h

theorem callTicks {l : List Nat} (h : e.Tabled) : (Event.callTicks l e).Tabled := by
  induction l generalizing e with
  | nil => exact h
  | cons n t ih => exact ih h.callTick

theorem upgrade {g n : Nat} (h : e.Tabled) : (e.upgrade g n).Tabled := by
  unfold Event.upgrade
  split
  · exact h
  · split
    · exact (h.call (upgraded_number _ g)).expireIfDue
    · exact h

theorem upgrades {g : Nat} {l : List Nat} (h : e.Tabled) : (Event.upgrades g l e).Tabled := by
  induction l generalizing e with
  | nil => exact h
  | cons n t ih => exact ih h.upgrade

theorem fallOnset {k : Nat} (h : e.Tabled) : (e.fallOnset k).Tabled := h.upgrades

theorem setCluster {k : Nat} {b : Bool} (h : e.Tabled) : (e.setCluster k b).Tabled := by
  unfold Event.setCluster
  split
  · exact h
  · split
    · exact h
    · exact h.sectFields.signal

theorem setSuspected {k : Nat} {b : Bool} (h : e.Tabled) : (e.setSuspected k b).Tabled := by
  unfold Event.setSuspected
  split
  · exact h
  · split
    · exact h
    · exact h.sectFields.signal

theorem odourJoins {k n : Nat} (h : e.Tabled) : (e.odourJoins k n).Tabled := by
  unfold Event.odourJoins
  dsimp only
  split
  · exact h
  · split
    · exact h.sectFields
    · split
      · exact h.sectFields.setCluster.upgrades
      · exact h.sectFields.upgrade

theorem odourLeaves {k : Nat} (h : e.Tabled) : (e.odourLeaves k).Tabled := by
  unfold Event.odourLeaves
  dsimp only
  split
  · exact h
  · split
    · exact h.sectFields.setCluster
    · exact h.sectFields

theorem noGasCount {k : Nat} {f : Nat → Nat} (h : e.Tabled) : (e.noGasCount k f).Tabled := by
  unfold Event.noGasCount
  split
  · exact h
  · exact h.sectFields.setSuspected

theorem countLink {o : Nat} {f : Nat → Nat} (h : e.Tabled) : (e.countLink o f).Tabled :=
  Net.Tabled.changeOutage h fun _ => rfl

theorem clearOverdue {c : Call} (h : e.Tabled) : (e.clearOverdue c).Tabled := Event.clearOverdue_keeps c e h

theorem link {o n : Nat} {isNew : Bool} (h : e.Tabled) : (e.link o isNew n).Tabled := by
  unfold Event.link
  dsimp only
  split
  · exact h
  · next c _ =>
    have hcall : (e.call n (fun y => stopTiming { y with outage := some o })).Tabled :=
      h.call fun y => stopTiming_number _
    split
    · exact hcall.clearOverdue.countLink
    · exact hcall.noGasCount.clearOverdue.countLink

theorem links {o : Nat} {l : List Nat} (h : e.Tabled) : (Event.links o l e).Tabled := by
  induction l generalizing e with
  | nil => exact h
  | cons n t ih => exact ih h.link

theorem linkSection {o k : Nat} (h : e.Tabled) : (e.linkSection o k).Tabled := h.links

theorem unlink {o n : Nat} (h : e.Tabled) : (e.unlink o n).Tabled := by
  unfold Event.unlink
  split
  · exact h
  · exact h.call.noGasCount.countLink.expireIfDue

theorem unlinks {o : Nat} {l : List Nat} (h : e.Tabled) : (Event.unlinks o l e).Tabled := by
  induction l generalizing e with
  | nil => exact h
  | cons n t ih => exact ih h.unlink

theorem unlinkSection {o k : Nat} (h : e.Tabled) : (e.unlinkSection o k).Tabled := h.unlinks

theorem dropCall {n : Nat} (h : e.Tabled) : (e.dropCall n).Tabled :=
  Net.Tabled.setCalls h h.calls.filter h.callNumbers.filter

theorem freeCall {how : CallEnd} {byRequest : Bool} {n : Nat} (h : e.Tabled) :
    (e.freeCall how byRequest n).Tabled := by
  unfold Event.freeCall
  dsimp only
  split
  · exact h
  · next c _ =>
    have hdrop : ((e.clearOverdue c).dropCall n).Tabled := h.clearOverdue.dropCall
    split
    · exact hdrop.odourLeaves.forgetCall.markFreed
    · exact hdrop.noGasCount.forgetCall.markFreed
    · split
      · exact hdrop.countLink.forgetCall.markFreed
      · exact hdrop.forgetCall.markFreed

theorem completeCalls {l : List Nat} (h : e.Tabled) : (Event.completeCalls l e).Tabled := by
  induction l generalizing e with
  | nil => exact h
  | cons n t ih => exact ih h.freeCall

theorem enterCall {c : Call} (h : e.Tabled) : (e.enterCall c).Tabled := by
  unfold Event.enterCall
  split
  · exact h.odourJoins
  · split
    · exact h.link
    · exact h.noGasCount

/-- A new call comes under a number that no call has (R130). -/
theorem newCall {idx : Nat} {c : Call} (h : e.Tabled) (hidx : idx < 128)
    (hc : c.number ∉ e.net.calls.map (fun x => x.2.number)) : (e.newCall idx c).Tabled := by
  have hput : (e.setNet { e.net with calls := put idx c e.net.calls, lastCall := c.number }).Tabled :=
    { Net.Tabled.setCalls h (h.calls.put hidx) (h.callNumbers.put hc) with }
  exact hput.markCall.enterCall.expireIfDue

theorem regrade {n g : Nat} {c : Call} (h : e.Tabled) : (e.regrade n g c).Tabled := by
  unfold Event.regrade
  split
  · exact h.upgrade
  · split
    · split
      · exact h
      · exact h.call
    · split
      · exact h.call
      · split
        · exact h
        · exact h.call

/-! ### Pressure Supervisor -/

theorem point {n : Nat} {f : Point → Point} (h : e.Tabled) : (e.point n f).Tabled :=
  Net.Tabled.setPoints h ((Table.wf_adjust _ _ _).trans h.points)

theorem relistOne {n : Nat} {k : CondKind} (h : e.Tabled) : (e.relistOne n k).Tabled := by
  unfold Event.relistOne
  split
  · exact h
  · split
    · exact h
    · exact h.point.signal

theorem relistAll {n : Nat} {l : List CondKind} (h : e.Tabled) : (Event.relistAll n l e).Tabled := by
  induction l generalizing e with
  | nil => exact h
  | cons k t ih => exact ih h.relistOne

theorem relist {n : Nat} (h : e.Tabled) : (e.relist n).Tabled := h.relistAll

theorem suppressPoint {b : Bool} {n : Nat} (h : e.Tabled) : (e.suppressPoint b n).Tabled := by
  unfold Event.suppressPoint
  dsimp only
  split
  · split
    · exact h
    · split
      · exact h.point.relist.fallOnset
      · exact h.point.relist
  · exact h

theorem suppressPoints {b : Bool} {l : List Nat} (h : e.Tabled) : (Event.suppressPoints b l e).Tabled := by
  induction l generalizing e with
  | nil => exact h
  | cons n t ih => exact ih h.suppressPoint

theorem suppress {k : Nat} {b : Bool} (h : e.Tabled) : (e.suppress k b).Tabled := h.suppressPoints

theorem suppressAll {b : Bool} {l : List Nat} (h : e.Tabled) : (e.suppressAll b l).Tabled := h.suppressPoints

/-! ### Outage Table -/

theorem outageQuietly {n : Nat} {f : Outage → Outage} (h : e.Tabled)
    (hf : ∀ o, (f o).number = o.number := by intro _; rfl) :
    (e.outageQuietly n f).Tabled := Net.Tabled.changeOutage h hf

theorem outage {n : Nat} {f : Outage → Outage} (h : e.Tabled) (hf : ∀ o, (f o).number = o.number := by intro _; rfl) :
    (e.outage n f).Tabled := (h.outageQuietly hf).markOutage

theorem setUnrecorded {k : Nat} {b : Bool} (h : e.Tabled) : (e.setUnrecorded k b).Tabled := by
  unfold Event.setUnrecorded
  split
  · exact h
  · split
    · exact h
    · exact h.sectFields.signal

theorem stopAwaiting {k : Nat} (h : e.Tabled) : (e.stopAwaiting k).Tabled := by
  unfold Event.stopAwaiting
  split
  · exact h
  · split
    · exact h.sectFields.setUnrecorded
    · exact h

theorem startAwaiting {k : Nat} (h : e.Tabled) : (e.startAwaiting k).Tabled := h.sectFields

theorem join {n k : Nat} (h : e.Tabled) : (e.join n k).Tabled := by
  unfold Event.join
  dsimp only
  split
  · exact h
  · have hjoin : (((e.outage n (joined e.image k)).stopAwaiting k).linkSection n k).Tabled :=
      h.outage.stopAwaiting.linkSection
    split
    · exact hjoin.suppress
    · exact hjoin

theorem leave {n k : Nat} (h : e.Tabled) : (e.leave n k).Tabled := by
  unfold Event.leave
  dsimp only
  split
  · exact h
  · have hleft : (e.outage n (left e.image k)).Tabled := h.outage
    have hunlink : ((if supplyAt e.net k = .unsupplied then (e.outage n (left e.image k)).startAwaiting k
        else e.outage n (left e.image k)).unlinkSection n k).Tabled := by
      split
      · exact hleft.startAwaiting.unlinkSection
      · exact hleft.unlinkSection
    split
    · exact hunlink.suppress
    · exact hunlink

theorem joins {n : Nat} {l : List Nat} (h : e.Tabled) : (Event.joins n l e).Tabled := by
  induction l generalizing e with
  | nil => exact h
  | cons k t ih => exact ih h.join

theorem leaves {n : Nat} {l : List Nat} (h : e.Tabled) : (Event.leaves n l e).Tabled := by
  induction l generalizing e with
  | nil => exact h
  | cons k t ih => exact ih h.leave

theorem ruleDeclared {n : Nat} (h : e.Tabled) : (e.ruleDeclared n).Tabled := by
  unfold Event.ruleDeclared
  split
  · exact h
  · split
    · exact h.outage.suppressAll
    · exact h

theorem ruleActive {n : Nat} (h : e.Tabled) : (e.ruleActive n).Tabled := by
  unfold Event.ruleActive
  split
  · exact h
  · split
    · exact h.outage
    · exact h

theorem ruleRecharging {n : Nat} (h : e.Tabled) : (e.ruleRecharging n).Tabled := by
  unfold Event.ruleRecharging
  split
  · exact h
  · split
    · exact h.outage
    · exact h

theorem setRelapse {n : Nat} {b : Bool} (h : e.Tabled) : (e.setRelapse n b).Tabled := by
  unfold Event.setRelapse
  split
  · exact h
  · split
    · exact h
    · exact h.outageQuietly.signal

theorem relapse {n : Nat} (h : e.Tabled) : (e.relapse n).Tabled := by
  unfold Event.relapse
  split
  · exact h
  · split
    · exact h.outage.setRelapse.suppressAll
    · exact h

theorem ruleRelighting {n : Nat} (h : e.Tabled) : (e.ruleRelighting n).Tabled := by
  unfold Event.ruleRelighting
  split
  · exact h
  · split
    · exact h.relapse
    · exact h

/-- A new outage comes under a number that no outage has (R87). -/
theorem createOutage {idx : Nat} {c : Cause} {st : OutageState} {plan : Option Nat} {l : List Nat} (h : e.Tabled)
    (hidx : idx < 32) : (e.createOutage idx c st plan l).Tabled := by
  have hput : (e.setNet { e.net with
      outages := put idx (newOutage (nextOutage e.net) c st plan e.clock) e.net.outages
      lastOutage := nextOutage e.net }).Tabled :=
    { Net.Tabled.setOutages h (h.outages.put hidx) (h.outageNumbers.put (Net.Tabled.nextOutage_notMem h)) with }
  exact hput.markOutage.joins

theorem gatherGroups {l : List (List Nat)} (h : e.Tabled) : (Event.gatherGroups l e).Tabled := by
  induction l generalizing e with
  | nil => exact h
  | cons g t ih =>
    unfold Event.gatherGroups
    split
    · exact h
    · next idx hidx => exact ih (h.createOutage (lowestFree_lt hidx))

theorem raiseUnrecorded {l : List Nat} (h : e.Tabled) : (Event.raiseUnrecorded l e).Tabled := by
  induction l generalizing e with
  | nil => exact h
  | cons k t ih => exact ih h.setUnrecorded

theorem gather (h : e.Tabled) : e.gather.Tabled := h.gatherGroups.raiseUnrecorded

theorem dropOutage {n : Nat} (h : e.Tabled) : (e.dropOutage n).Tabled :=
  Net.Tabled.setOutages h h.outages.filter h.outageNumbers.filter

theorem unlinkOutage {o : Outage} (h : e.Tabled) : (e.unlinkOutage o).Tabled := by
  unfold Event.unlinkOutage
  split
  · exact h
  · exact h.outageQuietly.unlinkPlan

theorem complete {n : Nat} (h : e.Tabled) : (e.complete n).Tabled := by
  unfold Event.complete
  split
  · exact h
  · exact h.completeCalls.unlinkOutage.setRelapse.leaves.markClosed.dropOutage

theorem abandon {byTrim : Bool} {n : Nat} (h : e.Tabled) : (e.abandon byTrim n).Tabled := by
  unfold Event.abandon
  dsimp only
  split
  · exact h
  · split
    · exact h.leaves.setRelapse.unlinkOutage.markClosed.dropOutage
    · exact h.leaves.setRelapse.markClosed.dropOutage

theorem ruleConfirmed {n : Nat} (h : e.Tabled) : (e.ruleConfirmed n).Tabled := by
  unfold Event.ruleConfirmed
  dsimp only
  split
  · exact h
  · split
    · have hrelit := h.outage (n := n) (f := fun x => { x with state := .relighting })
      split
      · exact hrelit.setRelapse.suppressAll.complete
      · exact hrelit.setRelapse.suppressAll
    · exact h

theorem ruleTrimmed {n : Nat} (h : e.Tabled) : (e.ruleTrimmed n).Tabled := by
  unfold Event.ruleTrimmed
  split
  · exact h
  · split
    · exact h
    · exact h.ruleActive
    · exact h.ruleConfirmed
    · split
      · exact h.complete
      · exact h

theorem trim {n : Nat} {l : List Nat} (h : e.Tabled) : (e.trim n l).Tabled := by
  unfold Event.trim
  dsimp only
  split
  · exact h
  · split
    · exact h.leaves
    · split
      · exact h.leaves.abandon.gather
      · exact h.leaves.ruleTrimmed.gather

theorem rulePublished {n : Nat} (h : e.Tabled) : (e.rulePublished n).Tabled := by
  unfold Event.rulePublished
  split
  · exact h
  · split
    · exact h.ruleDeclared
    · exact h.ruleActive
    · exact h.ruleRecharging
    · exact h.ruleRelighting

theorem rulesPublished {l : List Nat} (h : e.Tabled) : (Event.rulesPublished l e).Tabled := by
  induction l generalizing e with
  | nil => exact h
  | cons n t ih => exact ih h.rulePublished

theorem clearUnrecorded {l : List Nat} (h : e.Tabled) : (Event.clearUnrecorded l e).Tabled := by
  induction l generalizing e with
  | nil => exact h
  | cons k t ih => exact ih h.setUnrecorded

theorem takePublication {cleared changed : List Nat} (h : e.Tabled) : (e.takePublication cleared changed).Tabled :=
  h.clearUnrecorded.rulesPublished.gather

/-! ### Samples, staleness and holds -/

theorem pointReport {k : Nat} {entered leftLow : Bool} (h : e.Tabled) :
    (e.pointReport k entered leftLow).Tabled := by
  unfold Event.pointReport
  split
  · exact h
  · split
    · exact h
    · split
      · exact h.ruleActive
      · exact h
    · split
      · exact h
      · exact h.outageQuietly
    · split
      · exact h.relapse
      · exact h

theorem pointReports {n : Nat} {d : PointDef} {x y : Point} {onset : Bool} (h : e.Tabled) :
    (e.pointReports n d x y onset).Tabled := by
  unfold Event.pointReports
  dsimp only
  have hreport : (if x.band = y.band ∧ x.fresh = y.fresh then e
      else e.pointReport d.sect (isFreshLow y && !isFreshLow x)
        ((isFreshLow x && !isFreshLow y) || (x.fresh && !y.fresh))).Tabled := by
    split
    · exact h
    · exact h.pointReport
  generalize (if x.band = y.band ∧ x.fresh = y.fresh then e else _) = e1 at hreport ⊢
  split
  · split
    · exact hreport.fallOnset
    · exact hreport.outlet.fallOnset
  · split
    · exact hreport
    · exact hreport.outlet

theorem repoint {l : List CondKind} {n : Nat} {d : PointDef} {x y : Point} (h : e.Tabled) :
    (e.repoint l n d x y).Tabled := h.point.relistAll.pointReports

theorem sample {x : Sample} (h : e.Tabled) : (e.sample x).Tabled := by
  unfold Event.sample
  split
  · exact h.repoint
  · exact h

theorem samples {l : List Sample} (h : e.Tabled) : (Event.samples l e).1.Tabled := by
  induction l generalizing e with
  | nil => exact h
  | cons x t ih => exact ih h.sample

theorem stale {n : Nat} (h : e.Tabled) : (e.stale n).Tabled := by
  unfold Event.stale
  split
  · exact h.repoint
  · exact h

theorem staleTick {n : Nat} (h : e.Tabled) : (e.staleTick n).Tabled := by
  unfold Event.staleTick
  dsimp only
  split
  · exact h
  · split
    · exact h
    · split
      · exact h.point.stale
      · exact h.point

theorem staleTicks {l : List Nat} (h : e.Tabled) : (Event.staleTicks l e).Tabled := by
  induction l generalizing e with
  | nil => exact h
  | cons n t ih => exact ih h.staleTick

theorem staleIfDue {n : Nat} (h : e.Tabled) : (e.staleIfDue n).Tabled := by
  unfold Event.staleIfDue
  split
  · exact h
  · split
    · exact h.stale
    · exact h

theorem holdTick {n : Nat} (h : e.Tabled) : (e.holdTick n).Tabled := by
  unfold Event.holdTick
  split
  · exact h
  · split
    · exact h.outageQuietly.ruleConfirmed
    · exact h

theorem holdTicks {l : List Nat} (h : e.Tabled) : (Event.holdTicks l e).Tabled := by
  induction l generalizing e with
  | nil => exact h
  | cons n t ih => exact ih h.holdTick

theorem gatherIfFreed {k : Nat} (h : e.Tabled) : (e.gatherIfFreed k).Tabled := by
  unfold Event.gatherIfFreed
  split
  · exact h.gather
  · exact h

theorem outageTick (h : e.Tabled) : e.outageTick.Tabled := h.holdTicks.gatherIfFreed

theorem confirmSection {n k : Nat} (h : e.Tabled) : (e.confirmSection n k).Tabled :=
  h.outageQuietly.ruleConfirmed.gatherIfFreed

theorem holdIfDue {n k : Nat} (h : e.Tabled) : (e.holdIfDue n k).Tabled := by
  unfold Event.holdIfDue
  split
  · exact h
  · split
    · exact h.confirmSection
    · exact h

theorem movePremises_number (relit : Bool) (k : Nat) (o : Outage) : (movePremises relit k o).number = o.number := by
  cases relit <;> rfl

theorem countPremises {relit : Bool} {n k : Nat} {o : Outage} (h : e.Tabled) :
    (e.countPremises relit n k o).Tabled := by
  unfold Event.countPremises
  dsimp only
  split
  · exact (h.outage (movePremises_number relit k)).complete.gather
  · exact h.outage (movePremises_number relit k)

/-! ### Plan requests -/

theorem claim {v : Nat} {c : Option Nat} (h : e.Tabled) : (e.claim v c).Tabled := Net.Tabled.adjustValve h

theorem unclaim {l : List Nat} (h : e.Tabled) : (Event.unclaim l e).Tabled := by
  induction l generalizing e with
  | nil => exact h
  | cons v t ih => exact ih h.claim

theorem createPlan {slot : Nat} {x : Plan} (h : e.Tabled) (hslot : slot < 16) :
    ((e.markPlan slot none .requested true []).setNet { e.net with plans := put slot x e.net.plans }).Tabled :=
  Net.Tabled.setPlans h (h.plans.put hslot)

theorem editPlan {slot : Nat} {x : Plan} {l : List Nat} (h : e.Tabled) : (e.editPlan slot x l).Tabled := by
  unfold Event.editPlan
  split
  · exact h.plan
  · exact h.planQuietly

theorem abortPlan {slot : Nat} {x : Plan} (h : e.Tabled) : (e.abortPlan slot x).Tabled := h.plan.aborts.settleIfAll

theorem orderPending {dir : Direction} {l : List Nat} (h : e.Tabled) : (Event.orderPending dir l e).Tabled := by
  induction l generalizing e with
  | nil => exact h
  | cons v t ih =>
    unfold Event.orderPending
    split
    · exact ih h
    · exact ih h.order

theorem setOut {slot : Nat} {x : Plan} {dir : Direction} (h : e.Tabled) : (e.setOut slot x dir).Tabled :=
  h.plan.orderPending.settleIfAll

theorem releaseOutage {x : Plan} (h : e.Tabled) : (e.releaseOutage x).Tabled := by
  unfold Event.releaseOutage
  split
  · exact h
  · split
    · exact h
    · split
      · exact h.abandon.gather
      · exact h.outageQuietly

theorem releasePlan {slot : Nat} {x : Plan} (h : e.Tabled) : (e.releasePlan slot x).Tabled := by
  have hout : ((Event.unclaim x.valves e).releaseOutage x).Tabled := h.unclaim.releaseOutage
  exact Net.Tabled.setPlans hout hout.plans.remove

theorem takeOver {slot : Nat} {p : PortId} {x : Plan} (h : e.Tabled) : (e.takeOver slot p x).Tabled :=
  Net.Tabled.adjustPlan h

/-! ### The result of a trial -/

theorem checkEnded {slot : Nat} (h : e.Tabled) : (e.checkEnded slot).Tabled := h.plan

theorem recheck {slot : Nat} {x : Plan} (h : e.Tabled) : (e.recheck slot x).Tabled := by
  unfold Event.recheck
  split
  · split
    · next m hm => exact planQuietly (e := e.setNet m) (Net.Tabled.queueTrial h hm)
    · exact h.checkEnded
  · exact h.checkEnded

theorem checkPassed {slot : Nat} {x : Plan} {r : Consequence} (h : e.Tabled) : (e.checkPassed slot x r).Tabled := by
  unfold Event.checkPassed
  dsimp only
  split
  · exact h.plan.orders.settleIfAll
  · exact h.trim.plan.orders.settleIfAll

theorem judgeCheck {slot : Nat} {x : Plan} {r : Consequence} (h : e.Tabled) : (e.judgeCheck slot x r).Tabled := by
  unfold Event.judgeCheck
  split
  · exact h.checkPassed
  · split
    · exact h.plan
    · split
      · exact h.checkPassed
      · exact h.plan

theorem planResult {slot : Nat} {r : Consequence} {completion : Word} (h : e.Tabled) :
    (e.planResult slot r completion).Tabled := by
  unfold Event.planResult
  split
  · exact h
  · split
    · exact h.plan
    · split
      · exact h.judgeCheck
      · exact h.recheck
    · exact h

/-! ### Completions -/

theorem publish {x : Snapshot} (h : e.Tabled) : (e.publish x).Tabled := by
  have hpub : (e.setNet { e.net with
      sections := publishAll e.image x e.net.outages e.net.sections, supply := x.revision }).Tabled :=
    { Net.Tabled.setSections h ((Table.wf_mapTable _ _).trans h.sections) with }
  unfold Event.publish
  dsimp only
  split
  · exact hpub.takePublication
  · exact hpub.post.takePublication

theorem handOver {r : Consequence} {completion : Word} {who : Requester} (h : e.Tabled) :
    (e.handOver r completion who).Tabled := by
  cases who with
  | plan slot => exact h.planResult
  | port p => exact h.post

theorem grantAfterWalk (h : e.Tabled) : (e.grant grantAfterWalk).Tabled := Net.Tabled.grantAfterWalk h

theorem grantAfterTrial (h : e.Tabled) : (e.grant grantAfterTrial).Tabled := Net.Tabled.grantAfterTrial h

theorem grantWalk (h : e.Tabled) : (e.grant startWalk).Tabled := Net.Tabled.startWalk h

theorem trialEnds {r : Consequence} {completion : Word} {who : Requester} (h : e.Tabled) :
    (e.trialEnds r completion who).Tabled := by
  have hchosen : Event.Tabled { e with choices := (choose (handOverOrders who) e.choices).2 } := h
  unfold Event.trialEnds
  dsimp only
  split
  · exact hchosen.handOver.grantAfterTrial
  · exact hchosen.grantAfterTrial.handOver

theorem raiseList {l : List CondId} (h : e.Tabled) : (Event.raiseList l e).Tabled := by
  induction l generalizing e with
  | nil => exact h
  | cons c t ih => exact ih h.report

/-! ### Ticks -/

theorem setLines {x : List LineScan} (h : e.Tabled) : (e.setNet { e.net with lines := x }).Tabled :=
  { (h : e.net.Tabled) with }

theorem limitReports {l : List Nat} (h : e.Tabled) : (Event.limitReports l e).Tabled := by
  induction l generalizing e with
  | nil => exact h
  | cons v t ih => exact ih h.limitReport

theorem trips {l : List Nat} (h : e.Tabled) : (Event.trips l e).Tabled := by
  induction l generalizing e with
  | nil => exact h
  | cons k t ih => exact ih h.trip

theorem generalLines {l : List Nat} (h : e.Tabled) : (Event.generalLines l e).Tabled :=
  Event.generalLines_keeps (P := Net.Tabled) l e h

theorem inAnyOrder {bs : List Block} {f : Block → Event → Event} (h : e.Tabled)
    (hf : ∀ b e, Event.Tabled e → (f b e).Tabled) : (e.inAnyOrder bs f).Tabled :=
  Event.inAnyOrder_keeps (P := Net.Tabled) hf bs e h

theorem lineUser {due : List Nat} {b : Block} (h : e.Tabled) : (e.lineUser due b).Tabled := by
  cases b
  case vlc => exact h.limitReports
  case srm => exact h.trips
  case lsc => exact h.generalLines
  all_goals exact h

theorem lineChanges {due : List Nat} (h : e.Tabled) : (e.lineChanges due).Tabled :=
  h.setLines.inAnyOrder fun _ _ hb => hb.lineUser

theorem scan {pins : BitVec 64} (h : e.Tabled) : (e.scan pins).Tabled := by
  unfold Event.scan
  dsimp only
  split
  · exact h.setLines
  · exact h.setLines.lineChanges

theorem lineChangeIfDue {line : Nat} (h : e.Tabled) : (e.lineChangeIfDue line).Tabled := by
  unfold Event.lineChangeIfDue
  dsimp only
  split
  · exact h.lineChanges
  · exact h

theorem secondAt {b : Block} (h : e.Tabled) : (e.secondAt b).Tabled := by
  cases b
  case vlc => exact h.travelTicks
  case psv => exact h.staleTicks
  case ogt => exact h.outageTick
  case clr => exact h.callTicks
  all_goals exact h

end Event.Tabled

end Sys2Proof.Machine
end

section
/-!
What the act of a request can do, said once for each: it refuses or reads and leaves the state, or it runs one event of
the network blocks. `P` is what is known of the network blocks at the end of that event; with no knowledge it is `True`.
-/

namespace Sys2Proof.Machine

variable {P : Net → Prop} {s : State}

/-- An act that leaves the state, or runs one event that ends in network blocks with the property `P`. -/
inductive Acts (P : Net → Prop) (s : State) : Answer → Prop where
  | keeps (st : Status) (body : List Byte) : Acts P s (s, st, body)
  | event (w : AluWork) (e : Event) (st : Status) (body : List Byte) (h : P e.net) :
      Acts P s (finishWith w e s, st, body)

theorem refuse_acts {st : Status} : Acts P s (refuse st s) := .keeps st []

theorem readOk_acts {body : List Byte} : Acts P s (readOk body s) := .keeps .ok body

theorem taken_acts {f : Event → Event} {body : List Byte} (h : P (f (Event.start s)).net) :
    Acts P s (taken f body s) := .event _ _ .ok body h

theorem planTaken_acts {f : Event → Event} (h : P (f (Event.start s)).net) : Acts P s (planTaken f s) := taken_acts h

/-! ### Reads -/

theorem readObject_acts {α : Type} {inRange : Bool} {x : Option α} {body : α → List Byte} :
    Acts P s (readObject inRange x body s) := by
  unfold readObject
  split
  · exact refuse_acts
  · split
    · exact refuse_acts
    · exact readOk_acts

theorem actReadDefinition_acts {kind key : Nat} : Acts P s (actReadDefinition kind key s) := by
  unfold actReadDefinition
  split
  · exact refuse_acts
  · exact readObject_acts

/-! ### Sources and valves -/

theorem actSourceService_acts {out : Bool} {k : Nat}
    (h : P ((Event.start s).source k (fun y => { y with out := out })).net) :
    Acts P s (actSourceService out k s) := by
  unfold actSourceService
  split
  · exact refuse_acts
  · exact taken_acts h

/-- A crew's request moves its valve, if anything (R26, R27, R36). -/
theorem actCrew_acts {p : PortId} {v : Nat} {act : Valve → Option (Event → Event)}
    (h : ∀ x f, act x = some f → P (f (Event.start s)).net) : Acts P s (actCrew p v act s) := by
  unfold actCrew
  split
  · split
    · exact refuse_acts
    · split
      · exact refuse_acts
      · split
        · exact refuse_acts
        · next f hf => exact taken_acts (h _ f hf)
  · exact refuse_acts

theorem actVerify_acts {p : PortId} {v : Nat} {arg : Byte} (h : ∀ x, P ((Event.start s).verify v x).net) :
    Acts P s (actVerify p v arg s) := by
  unfold actVerify
  split
  · split
    · exact refuse_acts
    · split
      · exact refuse_acts
      · split
        · exact refuse_acts
        · exact taken_acts (h _)
  · exact refuse_acts

/-! ### Plans -/

/-- A plan request runs its own part on the plan it names (R59). -/
theorem actPlan_acts {p : PortId} {slot : Nat} {takes : PlanState → Bool} {act : Plan → State → Answer}
    (h : ∀ x, Acts P s (act x s)) : Acts P s (actPlan p slot takes act s) := by
  unfold actPlan
  split
  · exact refuse_acts
  · split
    · exact refuse_acts
    · split
      · exact refuse_acts
      · split
        · exact h _
        · exact refuse_acts

theorem actPlanCreate_acts {p : PortId} {call : Nat}
    (h : ∀ slot x, slot < 16 → P { s.net with plans := put slot x s.net.plans }) : Acts P s (actPlanCreate p call s) := by
  unfold actPlanCreate
  split
  · exact refuse_acts
  · split
    · exact refuse_acts
    · next slot hslot => exact taken_acts (h slot _ (lowestFree_lt hslot))

theorem addValve_acts {slot v : Nat} {x : Plan}
    (h : ∀ l, P (((Event.start s).claim v (some slot)).editPlan slot x l).net) : Acts P s (addValve slot v x s) := by
  unfold addValve
  split
  · exact refuse_acts
  · split
    · exact refuse_acts
    · split
      · exact refuse_acts
      · split
        · exact .keeps _ _
        · exact planTaken_acts (h _)

theorem removeValve_acts {slot v : Nat} {x : Plan}
    (h : ∀ l, P (((Event.start s).claim v none).editPlan slot x l).net) : Acts P s (removeValve slot v x s) := by
  unfold removeValve
  split
  · exact planTaken_acts (h _)
  · exact refuse_acts

theorem askTrial_acts {slot : Nat} {f : Plan → Plan}
    (h : ∀ t n, queueTrial t s.net = some n → P { n with plans := adjust slot f n.plans }) :
    Acts P s (askTrial slot f s) := by
  unfold askTrial
  split
  · exact refuse_acts
  · next n hn => exact .event _ _ .accepted [] (h _ n hn)

theorem assessPlan_acts {slot : Nat} {x : Plan}
    (h : ∀ f t n, queueTrial t s.net = some n → P { n with plans := adjust slot f n.plans }) :
    Acts P s (assessPlan slot x s) := by
  unfold assessPlan
  split
  · exact refuse_acts
  · exact askTrial_acts (h _)

theorem declareNew_acts {slot : Nat} {l : List Nat} {accepted : Bool}
    (h : ∀ idx n f, idx < 32 →
      P ((((Event.start s).createOutage idx .planned .declared (some slot) l).ruleDeclared n).plan slot .outageLinked true
        f).net) : Acts P s (declareNew slot l accepted s) := by
  unfold declareNew
  split
  · exact refuse_acts
  · next idx hidx => exact taken_acts (h idx _ _ (lowestFree_lt hidx))

theorem declareMore_acts {slot : Nat} {o : Outage} {l : List Nat} {accepted : Bool}
    (hquiet : ∀ f, P ((Event.start s).planQuietly slot f).net)
    (hjoins : ∀ l' f, P ((((Event.start s).joins o.number l').ruleDeclared o.number).planQuietly slot f).net) :
    Acts P s (declareMore slot o l accepted s) := by
  unfold declareMore
  dsimp only
  split
  · exact taken_acts (hquiet _)
  · split
    · exact refuse_acts
    · split
      · exact refuse_acts
      · exact taken_acts (hjoins _ _)

theorem declarePlan_acts {slot : Nat} {accepted : Byte} {x : Plan} (hnew : ∀ l a, Acts P s (declareNew slot l a s))
    (hmore : ∀ o l a, Acts P s (declareMore slot o l a s)) : Acts P s (declarePlan slot accepted x s) := by
  unfold declarePlan
  split
  · exact refuse_acts
  · exact refuse_acts
  · split
    · exact refuse_acts
    · split
      · exact refuse_acts
      · split
        · exact .keeps _ _
        · split
          · exact hnew _ _
          · split
            · exact hnew _ _
            · exact hmore _ _ _

theorem releasePlan_acts {slot : Nat} {x : Plan} (h : P ((Event.start s).releasePlan slot x).net) :
    Acts P s (releasePlan slot x s) := by
  unfold releasePlan
  split
  · exact refuse_acts
  · exact planTaken_acts h

theorem actTakeOver_acts {p : PortId} {slot : Nat} (h : ∀ x, P ((Event.start s).takeOver slot p x).net) :
    Acts P s (actTakeOver p slot s) := by
  unfold actTakeOver
  split
  · exact refuse_acts
  · split
    · exact refuse_acts
    · split
      · exact refuse_acts
      · split
        · exact planTaken_acts (h _)
        · exact .keeps _ _

/-! ### Outages -/

theorem actConfirmSection_acts {n k : Nat} (h : P ((Event.start s).confirmSection n k).net) :
    Acts P s (actConfirmSection n k s) := by
  unfold actConfirmSection
  split
  · exact refuse_acts
  · split
    · exact refuse_acts
    · split
      · exact refuse_acts
      · exact taken_acts h

theorem actPremises_acts {relit : Bool} {n k : Nat} (h : ∀ o, P ((Event.start s).countPremises relit n k o).net) :
    Acts P s (actPremises relit n k s) := by
  unfold actPremises
  split
  · exact refuse_acts
  · split
    · exact refuse_acts
    · split
      · exact refuse_acts
      · split
        · exact refuse_acts
        · exact taken_acts (h _)

/-! ### Calls -/

theorem actCallNew_acts {kind : Byte} {sect : Nat} {grade : Byte} {location : Word} {present : Byte} {receipt : Word}
    (h : ∀ idx c, idx < 128 → c.number = nextCall s.net → P ((Event.start s).newCall idx c).net) :
    Acts P s (actCallNew kind sect grade location present receipt s) := by
  unfold actCallNew
  split
  · exact refuse_acts
  · split
    · exact refuse_acts
    · split
      · exact refuse_acts
      · split
        · exact refuse_acts
        · split
          · exact refuse_acts
          · split
            · exact refuse_acts
            · next idx hidx => exact .event _ _ .ok _ (h idx _ (lowestFree_lt hidx) rfl)

/-- A call request runs its own part on the call it names (section 7.3). -/
theorem actCall_acts {n : Nat} {takes : Call → Bool} {act : Call → State → Answer} (h : ∀ c, Acts P s (act c s)) :
    Acts P s (actCall n takes act s) := by
  unfold actCall
  split
  · exact refuse_acts
  · split
    · exact refuse_acts
    · split
      · exact h _
      · exact refuse_acts

theorem assignCall_acts {n : Nat} {crew : Word} {c : Call} (hsame : P s.net)
    (h : P ((Event.start s).call n (fun y => { y with crew := some crew, state := .assigned })).net) :
    Acts P s (assignCall n crew c s) := by
  unfold assignCall
  split
  · exact taken_acts hsame
  · exact taken_acts h

theorem endCall_acts {n : Nat} {how : CallEnd} {c : Call} (h : P ((Event.start s).freeCall how true n).net) :
    Acts P s (endCall n how c s) := by
  unfold endCall
  split
  · exact refuse_acts
  · exact taken_acts h

theorem regradeCall_acts {n : Nat} {grade : Byte} {c : Call} (h : P ((Event.start s).regrade n grade.toNat c).net) :
    Acts P s (regradeCall n grade c s) := by
  unfold regradeCall
  split
  · exact refuse_acts
  · exact taken_acts h

/-! ### Samples and alarms -/

theorem actSampleBatch_acts {body : List Byte} (h : ∀ l, P (Event.samples l (Event.start s)).1.net) :
    Acts P s (actSampleBatch body s) := by
  unfold actSampleBatch
  split
  · exact refuse_acts
  · split
    · exact refuse_acts
    · exact .event _ _ .ok _ (h _)

theorem listEvent_acts {f : AluWork → AluWork} {st : Status} {body : List Byte} (h : P s.net) :
    Acts P s (listEvent f s, st, body) := .event _ _ st body h

theorem actAlarmAck_acts {p : PortId} {n : Nat} (h : P s.net) : Acts P s (actAlarmAck p n s) := by
  unfold actAlarmAck
  split
  · exact refuse_acts
  · split
    · exact refuse_acts
    · split
      · exact refuse_acts
      · exact listEvent_acts h

/-! ### What a request and an event of the part's own keep -/

/-- A property of states that a change of a port keeps is kept by a request whose act keeps it. -/
theorem request_keeps {Q : State → Prop} (hport : ∀ s p f, Q s → Q (s.setPort p f)) {c : ReqClass} {p : PortId}
    {tag : Byte} {act : State → Answer} (hact : ∀ s, Q s → Q (act s).1) (h : Q s) : Q (request c p tag act s) := by
  unfold request
  split
  · exact h
  · split
    · exact hport _ _ _ (hport _ _ _ h)
    · exact hport _ _ _ (hact _ (hport _ _ _ h))

theorem whenRunning_keeps {Q : State → Prop} {f : State → State} (hf : ∀ s, Q s → Q (f s)) (h : Q s) :
    Q (whenRunning f s) := by
  unfold whenRunning
  split
  · exact hf s h
  · exact h

end Sys2Proof.Machine
end

section
/-!
Every command keeps the form of the record tables (O39): the tables of the image, which the configuration session and
SET_LIMITS write, and those of the network blocks, which a commit seeds and events write.
-/

namespace Sys2Proof.Machine

/-- The part of `TablesSound` that speaks of the image. -/
structure Image.Tabled (m : Image) : Prop where
  sections : m.sections.wf = true
  valves : m.valves.wf = true
  sources : m.sources.wf = true
  points : m.points.wf = true
  lines : m.lines.wf = true
  lamps : m.lamps.wf = true
  ports : m.ports.wf = true
  cadences : m.cadences.wf = true

theorem tablesSound_iff (s : State) : TablesSound s ↔ s.cfu.image.Tabled ∧ s.net.Tabled := by
  constructor
  · intro h
    obtain ⟨hlines, hlamps, hports, hcadences⟩ := h.definitions
    exact ⟨⟨h.sections.1, h.valves.1, h.sources.1, h.points.1, hlines, hlamps, hports, hcadences⟩,
      ⟨h.sections.2, h.valves.2, h.sources.2, h.points.2, h.plans, h.outages, h.calls, h.outageNumbers, h.callNumbers⟩⟩
  · rintro ⟨hm, hn⟩
    exact
      { sections := ⟨hm.sections, hn.sections⟩
        valves := ⟨hm.valves, hn.valves⟩
        sources := ⟨hm.sources, hn.sources⟩
        points := ⟨hm.points, hn.points⟩
        definitions := ⟨hm.lines, hm.lamps, hm.ports, hm.cadences⟩
        plans := hn.plans
        outages := hn.outages
        calls := hn.calls
        outageNumbers := hn.outageNumbers
        callNumbers := hn.callNumbers }

theorem TablesSound.image {s : State} (h : TablesSound s) : s.cfu.image.Tabled := ((tablesSound_iff s).1 h).1

theorem TablesSound.net {s : State} (h : TablesSound s) : s.net.Tabled := ((tablesSound_iff s).1 h).2

theorem TablesSound.congr {s t : State} (h : TablesSound s) (hm : t.cfu.image = s.cfu.image) (hn : t.net = s.net) :
    TablesSound t := (tablesSound_iff t).2 ⟨hm ▸ h.image, hn ▸ h.net⟩

/-! ### The image -/

theorem Image.Tabled.empty : Image.empty.Tabled := by
  constructor <;> rfl

theorem Image.Tabled.holdRecord {m : Image} (h : m.Tabled) (r : DefRecord) : (holdRecord m r).Tabled := by
  cases r
  case sect k d => exact { h with sections := Table.wf_put k d _ h.sections }
  case valve k d => exact { h with valves := Table.wf_put k d _ h.valves }
  case source k d => exact { h with sources := Table.wf_put k d _ h.sources }
  case point k d => exact { h with points := Table.wf_put k d _ h.points }
  case line k d => exact { h with lines := Table.wf_put k d _ h.lines }
  case lamp k d => exact { h with lamps := Table.wf_put k d _ h.lamps }
  case port k d => exact { h with ports := Table.wf_put k d _ h.ports }
  case cadence k d => exact { h with cadences := Table.wf_put k d _ h.cadences }
  case parameters d => exact { h with }
  case priorities d => exact { h with }

theorem Image.Tabled.holdRecords {m : Image} (h : m.Tabled) (l : List DefRecord) :
    (l.foldl Machine.holdRecord m).Tabled := by
  induction l generalizing m with
  | nil => exact h
  | cons r t ih => exact ih (h.holdRecord r)

theorem Image.Tabled.withDefaults {m : Image} (h : m.Tabled) : m.withDefaults.Tabled :=
  { h with
    valves := (Table.wf_mapTable _ _).trans h.valves
    points := (Table.wf_mapTable _ _).trans h.points
    lines := (Table.wf_mapTable _ _).trans h.lines
    lamps := (Table.wf_mapTable _ _).trans h.lamps
    cadences := (Table.wf_mapTable _ _).trans h.cadences }

/-! ### The network blocks at reset and at commit -/

theorem Table.Within.nil {α : Type} {cap : Nat} : Table.Within cap ([] : Table α) := ⟨rfl, by simp [keys]⟩

theorem Net.Tabled.reset : Net.reset.Tabled :=
  { sections := rfl, valves := rfl, sources := rfl, points := rfl, plans := .nil, outages := .nil, calls := .nil,
    outageNumbers := List.nodup_nil, callNumbers := List.nodup_nil }

theorem Net.Tabled.seedNet {m : Image} (h : m.Tabled) (pins : BitVec 64) (uptime : Word) :
    (seedNet m pins uptime).Tabled :=
  { Net.Tabled.reset with
    sections := (Table.wf_mapTable _ _).trans h.sections
    valves := (Table.wf_mapTable _ _).trans h.valves
    sources := (Table.wf_mapTable _ _).trans h.sources
    points := (Table.wf_mapTable _ _).trans h.points }

/-! ### Events -/

variable {s : State}

theorem TablesSound.start (h : TablesSound s) : (Event.start s).Tabled := h.net

theorem TablesSound.setPort (h : TablesSound s) (p : PortId) (f : Port → Port) : TablesSound (s.setPort p f) :=
  h.congr rfl rfl

theorem TablesSound.respond {p : PortId} {tag : Byte} {st : Status} {body : List Byte} (h : TablesSound s) :
    TablesSound (respond p tag st body s) := h.setPort p _

theorem TablesSound.finishWith {w : AluWork} {e : Event} (h : TablesSound s) (he : e.Tabled) :
    TablesSound (finishWith w e s) := (tablesSound_iff _).2 ⟨h.image, Net.Tabled.writeReasons he⟩

theorem TablesSound.event {f : Event → Event} (h : TablesSound s) (hf : (f (Event.start s)).Tabled) :
    TablesSound (event f s) := h.finishWith (e := { f (Event.start s) with reports := _ }) hf

theorem TablesSound.acts {a : Answer} (h : TablesSound s) (ha : Acts Net.Tabled s a) : TablesSound a.1 := by
  cases ha with
  | keeps st body => exact h
  | event w e st body he => exact h.finishWith he

/-- A request whose act is at most one event that keeps the tables in form. -/
theorem TablesSound.request {c : ReqClass} {p : PortId} {tag : Byte} {act : State → Answer} (h : TablesSound s)
    (hact : ∀ s, (Event.start s).Tabled → Acts Net.Tabled s (act s)) : TablesSound (request c p tag act s) :=
  request_keeps (fun _ p f h => h.setPort p f) (fun s h => h.acts (hact s h.start)) h

/-- A request whose act writes outside an event. -/
theorem TablesSound.directRequest {c : ReqClass} {p : PortId} {tag : Byte} {act : State → Answer} (h : TablesSound s)
    (hact : ∀ {s}, TablesSound s → TablesSound (act s).1) : TablesSound (Machine.request c p tag act s) :=
  request_keeps (fun _ p f h => h.setPort p f) (fun _ h => hact h) h

/-- An event of the part's own that keeps the tables in form. -/
theorem TablesSound.whenRunning {f : Event → Event} (h : TablesSound s) (hf : ∀ e, Event.Tabled e → (f e).Tabled) :
    TablesSound (whenRunning (Machine.event f) s) := whenRunning_keeps (fun _ h => h.event (hf _ h.start)) h

/-! ### Configuration -/

theorem actLoadRecords_tables (body : List Byte) (h : TablesSound s) : TablesSound (actLoadRecords body s).1 := by
  unfold actLoadRecords
  split
  · exact h
  · split
    · exact h
    · exact (tablesSound_iff _).2 ⟨h.image.holdRecords _, h.net⟩

theorem actBeginConfig_tables (p : PortId) (h : TablesSound s) : TablesSound (actBeginConfig p s).1 := by
  unfold actBeginConfig
  split
  · exact (tablesSound_iff _).2 ⟨.empty, h.net⟩
  · split
    · exact h
    · exact h
  · exact h

theorem actAbandonConfig_tables (h : TablesSound s) : TablesSound (actAbandonConfig s).1 := by
  unfold actAbandonConfig
  split
  · exact h
  · exact (tablesSound_iff _).2 ⟨.empty, h.net⟩

theorem commit_tables {m : Image} (hm : m.Tabled) : TablesSound (commit m s) := by
  have hseed : TablesSound (committed m s) := (tablesSound_iff _).2 ⟨hm, .seedNet hm _ _⟩
  exact hseed.event (f := fun e => (Event.raiseList _ e).grant startWalk) hseed.start.raiseList.grantWalk

theorem actCommitConfig_tables (x : Half) (h : TablesSound s) : TablesSound (actCommitConfig x s).1 := by
  unfold actCommitConfig
  split
  · exact h
  · split
    · exact h.congr rfl rfl
    · split
      · exact h.congr rfl rfl
      · exact commit_tables h.image.withDefaults

theorem resetAll_tables (c : Cfu) (hc : c.image = Image.empty) : TablesSound ((resetAll s).setCfu c) :=
  (tablesSound_iff _).2 ⟨(congrArg Image.Tabled hc).mpr .empty, { Net.Tabled.reset with }⟩

theorem leaveReset_tables (h : TablesSound s) : TablesSound (leaveReset s) := by
  unfold leaveReset
  split
  · exact h.congr rfl rfl
  · exact h

/-! ### Requests that write a table, or the state, outside an event -/

theorem actTrial_tables (p : PortId) (body : List Byte) (h : TablesSound s) : TablesSound (actTrial p body s).1 := by
  unfold actTrial
  split
  · exact h
  · split
    · exact h
    · split
      · exact h
      · split
        · exact h
        · split
          · exact h
          · next n hn =>
            have hqueued : n.Tabled := h.net.queueTrial hn
            have hset : TablesSound { s with net := n } := (tablesSound_iff _).2 ⟨h.image, hqueued⟩
            exact hset.setPort p (fun x => { x with buffer := .waiting })

theorem actSetLimits_tables (n ll l hi hh deadband k : Nat) (h : TablesSound s) :
    TablesSound (actSetLimits n ll l hi hh deadband k s).1 := by
  unfold actSetLimits
  split
  · exact h
  · split
    · exact h
    · have hpoints (f : PointDef → PointDef) :
          Image.Tabled { s.cfu.image with points := adjust n f s.cfu.image.points } :=
        { h.image with points := (Table.wf_adjust _ _ _).trans h.image.points }
      have hnet (f : Point → Point) : Net.Tabled { s.net with points := adjust n f s.net.points } :=
        h.net.setPoints ((Table.wf_adjust _ _ _).trans h.net.points)
      exact (tablesSound_iff _).2 ⟨hpoints _, hnet _⟩

/-! ### Ticks and completions -/

theorem scanTick_tables (pins : BitVec 64) (h : TablesSound s) : TablesSound (scanTick pins s) :=
  (h.congr (t := scanCounters s) rfl rfl).event (Event.Tabled.scan h.start)

theorem setPins_tables (pins : BitVec 64) (h : TablesSound s) : TablesSound (setPins pins s) :=
  (tablesSound_iff _).2 ⟨h.image, { h.net with }⟩

theorem secondTick_tables (h : TablesSound s) : TablesSound (secondTick s) :=
  h.event (h.start.inAnyOrder fun _ _ he => he.secondAt)

theorem completeWalk_tables (h : TablesSound s) : TablesSound (completeWalk s) := by
  unfold completeWalk
  split
  · next x _ =>
    exact h.event (f := fun e => (e.publish x).grant grantAfterWalk) h.start.publish.grantAfterWalk
  · exact h
  · exact h

theorem TablesSound.fillBuffer {r : Consequence} {completion : Word} {who : Requester} (h : TablesSound s) :
    TablesSound (fillBuffer r completion who s) := by
  cases who with
  | plan slot => exact h
  | port p => exact h.setPort p (fun x => { x with buffer := .ready r completion })

theorem completeTrial_tables (h : TablesSound s) : TablesSound (completeTrial s) := by
  unfold completeTrial
  split
  · next x who closure _ =>
    have hfill := h.fillBuffer (r := trialResult s.cfu.image x closure) (completion := s.net.topology) (who := who)
    exact hfill.event (f := fun e => e.trialEnds _ _ who) hfill.start.trialEnds
  · exact h
  · exact h

theorem oneSecondTick_tables (h : TablesSound s) :
    TablesSound (if s.cfu.inReset then s else whenRunning secondTick (advanceClocks s)) := by
  split
  · exact h
  · exact whenRunning_keeps (fun _ => secondTick_tables) (h.congr rfl rfl)

/-! ### Every command -/

theorem confirmClosedIn_tables {v : Nat} {x : Valve} {f : Event → Event} {e : Event} (he : e.Tabled)
    (hf : confirmClosedIn v x = some f) : (f e).Tabled := by
  unfold confirmClosedIn at hf
  split at hf
  · obtain rfl := Option.some.inj hf
    exact he.moveValve
  · simp at hf

theorem confirmOpenIn_tables {v : Nat} {x : Valve} {f : Event → Event} {e : Event} (he : e.Tabled)
    (hf : confirmOpenIn v x = some f) : (f e).Tabled := by
  unfold confirmOpenIn at hf
  split at hf
  · obtain rfl := Option.some.inj hf
    exact he.moveValve
  · split at hf
    · obtain rfl := Option.some.inj hf
      exact he.moveValve
    · simp at hf

theorem inoperableIn_tables {v : Nat} {x : Valve} {f : Event → Event} {e : Event} (he : e.Tabled)
    (hf : inoperableIn v x = some f) : (f e).Tabled := by
  unfold inoperableIn at hf
  split at hf
  · obtain rfl := Option.some.inj hf
    exact he.moveValve
  · simp at hf

theorem declarePlan_tables {slot : Nat} {accepted : Byte} {x : Plan} (h : (Event.start s).Tabled) :
    Acts Net.Tabled s (declarePlan slot accepted x s) :=
  declarePlan_acts
    (fun _ _ => declareNew_acts fun _ _ _ hidx => (h.createOutage hidx).ruleDeclared.plan)
    (fun _ _ _ => declareMore_acts (fun _ => h.planQuietly) (fun _ _ => h.joins.ruleDeclared.planQuietly))

theorem askedTrial_tables {t : TrialEntry} {slot : Nat} {f : Plan → Plan} {n : Net} (h : (Event.start s).Tabled)
    (hn : queueTrial t s.net = some n) : Net.Tabled { n with plans := adjust slot f n.plans } :=
  (Net.Tabled.queueTrial h hn).adjustPlan

/-- A command that is not a transfer keeps the tables in form. -/
theorem exec_tables (i : Instr) (h : TablesSound s) (hi : ∀ p bits, i ≠ .transfer p bits) :
    ∃ t, exec i s = .next t ∧ TablesSound t := by
  cases i
  case transfer p bits => exact absurd rfl (hi p bits)
  case powerOnReset => exact ⟨_, rfl, resetAll_tables _ rfl⟩
  case lineReset => exact ⟨_, rfl, resetAll_tables _ rfl⟩
  case leaveReset => exact ⟨_, rfl, leaveReset_tables h⟩
  case beginConfig => exact ⟨_, rfl, h.directRequest (actBeginConfig_tables _)⟩
  case loadRecords => exact ⟨_, rfl, h.directRequest (actLoadRecords_tables _)⟩
  case commitConfig => exact ⟨_, rfl, h.directRequest (actCommitConfig_tables _)⟩
  case abandonConfig => exact ⟨_, rfl, h.directRequest actAbandonConfig_tables⟩
  case setClock => exact ⟨_, rfl, h.directRequest fun h => h.congr rfl rfl⟩
  case readNotices => exact ⟨_, rfl, h.directRequest fun h => h.setPort _ _⟩
  case setLimits => exact ⟨_, rfl, h.directRequest (actSetLimits_tables _ _ _ _ _ _ _)⟩
  case trial => exact ⟨_, rfl, h.directRequest (actTrial_tables _ _)⟩
  case lampTest => exact ⟨_, rfl, h.directRequest fun h => h.congr rfl rfl⟩
  case null => exact ⟨_, rfl, h.request fun _ _ => readOk_acts⟩
  case readIdentity => exact ⟨_, rfl, h.request fun _ _ => readOk_acts⟩
  case readStatus => exact ⟨_, rfl, h.request fun _ _ => readOk_acts⟩
  case readTrial => exact ⟨_, rfl, h.request fun _ _ => readOk_acts⟩
  case readPorts => exact ⟨_, rfl, h.request fun _ _ => readOk_acts⟩
  case readLines => exact ⟨_, rfl, h.request fun _ _ => readOk_acts⟩
  case readLamps => exact ⟨_, rfl, h.request fun _ _ => readOk_acts⟩
  case readAlarms => exact ⟨_, rfl, h.request fun _ _ => readOk_acts⟩
  case readWithheld => exact ⟨_, rfl, h.request fun _ _ => readOk_acts⟩
  case readDefinition => exact ⟨_, rfl, h.request fun _ _ => actReadDefinition_acts⟩
  case readSection => exact ⟨_, rfl, h.request fun _ _ => readObject_acts⟩
  case readValve => exact ⟨_, rfl, h.request fun _ _ => readObject_acts⟩
  case readSource => exact ⟨_, rfl, h.request fun _ _ => readObject_acts⟩
  case readPoint => exact ⟨_, rfl, h.request fun _ _ => readObject_acts⟩
  case readPlan => exact ⟨_, rfl, h.request fun _ _ => readObject_acts⟩
  case readOutage => exact ⟨_, rfl, h.request fun _ _ => readObject_acts⟩
  case readCall => exact ⟨_, rfl, h.request fun _ _ => readObject_acts⟩
  case confirmClosed => exact ⟨_, rfl, h.request fun _ h => actCrew_acts fun _ _ => confirmClosedIn_tables h⟩
  case confirmOpen => exact ⟨_, rfl, h.request fun _ h => actCrew_acts fun _ _ => confirmOpenIn_tables h⟩
  case reportInoperable => exact ⟨_, rfl, h.request fun _ h => actCrew_acts fun _ _ => inoperableIn_tables h⟩
  case verifyPosition => exact ⟨_, rfl, h.request fun _ h => actVerify_acts fun _ => h.verify⟩
  case planCreate => exact ⟨_, rfl, h.request fun _ h => actPlanCreate_acts fun _ _ hslot => h.createPlan hslot⟩
  case planAddValve =>
    exact ⟨_, rfl, h.request fun _ h => actPlan_acts fun _ => addValve_acts fun _ => h.claim.editPlan⟩
  case planRemoveValve =>
    exact ⟨_, rfl, h.request fun _ h => actPlan_acts fun _ => removeValve_acts fun _ => h.claim.editPlan⟩
  case planAssess =>
    exact ⟨_, rfl, h.request fun _ h => actPlan_acts fun _ => assessPlan_acts fun _ _ _ => askedTrial_tables h⟩
  case planExecute =>
    exact ⟨_, rfl, h.request fun _ h => actPlan_acts fun _ => askTrial_acts fun _ _ => askedTrial_tables h⟩
  case planDeclareOutage => exact ⟨_, rfl, h.request fun _ h => actPlan_acts fun _ => declarePlan_tables h⟩
  case planAbort => exact ⟨_, rfl, h.request fun _ h => actPlan_acts fun _ => planTaken_acts h.abortPlan⟩
  case planRetry => exact ⟨_, rfl, h.request fun _ h => actPlan_acts fun _ => planTaken_acts h.setOut⟩
  case planRestore => exact ⟨_, rfl, h.request fun _ h => actPlan_acts fun _ => planTaken_acts h.setOut⟩
  case planRelease => exact ⟨_, rfl, h.request fun _ h => actPlan_acts fun _ => releasePlan_acts h.releasePlan⟩
  case planTakeOver => exact ⟨_, rfl, h.request fun _ h => actTakeOver_acts fun _ => h.takeOver⟩
  case sourceOut => exact ⟨_, rfl, h.request fun _ h => actSourceService_acts h.source⟩
  case sourceIn => exact ⟨_, rfl, h.request fun _ h => actSourceService_acts h.source⟩
  case outageConfirmSection => exact ⟨_, rfl, h.request fun _ h => actConfirmSection_acts h.confirmSection⟩
  case outageRelit => exact ⟨_, rfl, h.request fun _ h => actPremises_acts fun _ => h.countPremises⟩
  case outageNoAccess => exact ⟨_, rfl, h.request fun _ h => actPremises_acts fun _ => h.countPremises⟩
  case callNew =>
    exact ⟨_, rfl, h.request fun _ h => actCallNew_acts fun _ _ hidx hc =>
      h.newCall hidx (hc ▸ Net.Tabled.nextCall_notMem h)⟩
  case callAssign => exact ⟨_, rfl, h.request fun _ h => actCall_acts fun _ => assignCall_acts h h.call⟩
  case callArrived => exact ⟨_, rfl, h.request fun _ h => actCall_acts fun _ => taken_acts h.clearOverdue.call⟩
  case callMadeSafe => exact ⟨_, rfl, h.request fun _ h => actCall_acts fun _ => taken_acts h.clearOverdue.call⟩
  case callClose => exact ⟨_, rfl, h.request fun _ h => actCall_acts fun _ => endCall_acts h.freeCall⟩
  case callCancel => exact ⟨_, rfl, h.request fun _ h => actCall_acts fun _ => endCall_acts h.freeCall⟩
  case callRegrade => exact ⟨_, rfl, h.request fun _ h => actCall_acts fun _ => regradeCall_acts h.regrade⟩
  case sampleBatch => exact ⟨_, rfl, h.request fun _ h => actSampleBatch_acts fun _ => h.samples⟩
  case alarmAck => exact ⟨_, rfl, h.request fun _ h => actAlarmAck_acts h⟩
  case hornSilence => exact ⟨_, rfl, h.request fun _ h => listEvent_acts h⟩
  case scanTick pins => exact ⟨_, rfl, whenRunning_keeps (fun _ => scanTick_tables pins) (setPins_tables pins h)⟩
  case oneSecondTick => exact ⟨_, rfl, oneSecondTick_tables h⟩
  case lineChange => exact ⟨_, rfl, h.whenRunning fun _ he => he.lineChangeIfDue⟩
  case travelTimerExpiry => exact ⟨_, rfl, h.whenRunning fun _ he => he.travelExpiry⟩
  case liveWalkCompletes => exact ⟨_, rfl, whenRunning_keeps (fun _ => completeWalk_tables) h⟩
  case trialCompletes => exact ⟨_, rfl, whenRunning_keeps (fun _ => completeTrial_tables) h⟩
  case rechargeHoldExpiry => exact ⟨_, rfl, h.whenRunning fun _ he => he.holdIfDue⟩
  case stalenessExpiry => exact ⟨_, rfl, h.whenRunning fun _ he => he.staleIfDue⟩
  case deadlineExpiry => exact ⟨_, rfl, h.whenRunning fun _ he => he.expireIfDue⟩
  case realarmExpiry => exact ⟨_, rfl, h.whenRunning fun _ he => he.realarmIfDue⟩
  case stepTick => exact ⟨_, rfl, whenRunning_keeps (fun _ h => h.congr rfl rfl) h⟩
  case cadencePartEnd => exact ⟨_, rfl, whenRunning_keeps (fun _ h => h.congr rfl rfl) h⟩
  case mimicRowScan => exact ⟨_, rfl, whenRunning_keeps (fun _ h => h.congr rfl rfl) h⟩
  case lampTestEnd => exact ⟨_, rfl, h⟩

/-! ### Transfers -/

/-- A request in a frame means what its own command means; a command that is no request means nothing there. -/
theorem requestMeaning_eq (i : Instr) (s : State) :
    requestMeaning i s = .next s ∨ (requestMeaning i s = exec i s ∧ ∀ p bits, i ≠ .transfer p bits) := by
  cases i
  case powerOnReset | lineReset | leaveReset | transfer | scanTick | oneSecondTick | lineChange | travelTimerExpiry
    | liveWalkCompletes | trialCompletes | rechargeHoldExpiry | stalenessExpiry | deadlineExpiry | realarmExpiry
    | stepTick | cadencePartEnd | mimicRowScan | lampTestEnd => exact .inl rfl
  all_goals exact .inr ⟨rfl, by simp⟩

theorem runFrame_tables (code : Byte) (p : PortId) (tag : Byte) (body : List Byte) (h : TablesSound s) :
    TablesSound (runFrame code p tag body s) := by
  unfold runFrame
  split
  · exact (h.setPort p _).respond
  · split
    · exact h.request fun _ _ => refuse_acts
    · next i _ =>
      rcases requestMeaning_eq i s with he | ⟨he, hi⟩
      · rw [he]
        exact h
      · obtain ⟨t, ht, hs⟩ := exec_tables i h hi
        rw [he, ht]
        exact hs

theorem transfer_tables (p : PortId) (bits : List Bool) (h : TablesSound s) : TablesSound (transfer p bits s) := by
  have hshift : TablesSound (shiftOut p bits.length s) := h.setPort p _
  unfold transfer
  split
  · exact h
  · cases frameBytes (wholeBytes bits) with
    | nothing => exact hshift
    | frameError tag => exact hshift.respond
    | checkError tag => exact hshift.respond
    | request code tag body => exact runFrame_tables code p tag body hshift

/-- Every command keeps the form of the record tables. -/
theorem exec_keeps_tables {i : Instr} {t : State} (h : TablesSound s) (he : exec i s = .next t) : TablesSound t := by
  by_cases hi : ∃ p bits, i = .transfer p bits
  · obtain ⟨p, bits, rfl⟩ := hi
    cases he
    exact transfer_tables p bits h
  · push Not at hi
    obtain ⟨u, hu, hs⟩ := exec_tables i h hi
    rw [hu] at he
    cases he
    exact hs

theorem step_keeps_tables {t : State} (h : TablesSound s) (he : step s = .next t) : TablesSound t := by
  unfold step at he
  split at he
  · cases he
    exact h
  · next c rest _ => exact exec_keeps_tables (h.congr (t := { s with pending := rest }) rfl rfl) he

/-- The tables after reset hold no record. -/
theorem TablesSound.reset : TablesSound State.reset := (tablesSound_iff _).2 ⟨.empty, .reset⟩

/-- Settles O39: the form of the tables holds at reset, and every step keeps it. -/
theorem tablesStaySound : Obligations.TablesStaySound :=
  ⟨.reset, fun _ _ h he => step_keeps_tables h he⟩

end Sys2Proof.Machine
end

section
/-!
The frames of the Configuration Unit, the Timebase and the Mimic Scanner (O3): an event of the network blocks leaves all
three, and so does every request whose act is at most such an event. The commands that write one of them are taken one by
one.
-/

namespace Sys2Proof.Machine

variable {s t : State}

/-- The Configuration Unit, the Timebase and the Mimic Scanner are as they were. -/
structure KeepsUnits (s t : State) : Prop where
  cfu : t.cfu = s.cfu
  tbu : t.tbu = s.tbu
  msc : t.msc = s.msc

/-! ### Commands that leave the three units -/

theorem KeepsUnits.refl (s : State) : KeepsUnits s s := ⟨rfl, rfl, rfl⟩

theorem KeepsUnits.trans {u : State} (h : KeepsUnits s t) (h' : KeepsUnits t u) : KeepsUnits s u :=
  ⟨h'.cfu.trans h.cfu, h'.tbu.trans h.tbu, h'.msc.trans h.msc⟩

theorem setPort_keepsUnits (s : State) (p : PortId) (f : Port → Port) : KeepsUnits s (s.setPort p f) := ⟨rfl, rfl, rfl⟩

theorem event_keepsUnits (f : Event → Event) (s : State) : KeepsUnits s (event f s) := ⟨rfl, rfl, rfl⟩

theorem Acts.keepsUnits {P : Net → Prop} {a : Answer} (h : Acts P s a) : KeepsUnits s a.1 := by
  cases h with
  | keeps st body => exact .refl s
  | event w e st body _ => exact ⟨rfl, rfl, rfl⟩

theorem request_keepsUnits {c : ReqClass} {p : PortId} {tag : Byte} {act : State → Answer}
    (hact : ∀ s, KeepsUnits s (act s).1) : KeepsUnits s (request c p tag act s) :=
  request_keeps (Q := KeepsUnits s) (fun u p f h => h.trans (setPort_keepsUnits u p f)) (fun u h => h.trans (hact u))
    (.refl s)

/-- A request whose act is at most one event. -/
theorem request_acts_keepsUnits {c : ReqClass} {p : PortId} {tag : Byte} {act : State → Answer}
    (hact : ∀ s, Acts (fun _ => True) s (act s)) : KeepsUnits s (request c p tag act s) :=
  request_keepsUnits fun u => (hact u).keepsUnits

theorem whenRunning_keepsUnits {f : State → State} (hf : ∀ s, KeepsUnits s (f s)) : KeepsUnits s (whenRunning f s) :=
  whenRunning_keeps (Q := KeepsUnits s) (fun u h => h.trans (hf u)) (.refl s)

theorem actTrial_keepsUnits (p : PortId) (body : List Byte) (s : State) : KeepsUnits s (actTrial p body s).1 := by
  unfold actTrial
  split
  · exact .refl s
  · split
    · exact .refl s
    · split
      · exact .refl s
      · split
        · exact .refl s
        · split
          · exact .refl s
          · exact ⟨rfl, rfl, rfl⟩

theorem completeWalk_keepsUnits (s : State) : KeepsUnits s (completeWalk s) := by
  unfold completeWalk
  split
  · exact event_keepsUnits _ s
  · exact .refl s
  · exact .refl s

theorem fillBuffer_keepsUnits (r : Consequence) (completion : Word) (who : Requester) (s : State) :
    KeepsUnits s (fillBuffer r completion who s) := by
  cases who with
  | plan slot => exact .refl s
  | port p => exact ⟨rfl, rfl, rfl⟩

theorem completeTrial_keepsUnits (s : State) : KeepsUnits s (completeTrial s) := by
  unfold completeTrial
  split
  · exact (fillBuffer_keepsUnits _ _ _ s).trans (event_keepsUnits _ _)
  · exact .refl s
  · exact .refl s

/-- The commands that write none of the three units, and carry none that does. -/
def leavesUnits : Instr → Bool
  | .powerOnReset | .lineReset | .leaveReset | .transfer _ _ => false
  | .beginConfig _ _ | .loadRecords _ _ _ | .commitConfig _ _ _ | .abandonConfig _ _ => false
  | .setLimits _ _ _ _ _ _ _ _ _ | .setClock _ _ _ | .lampTest _ _ => false
  | .scanTick _ | .oneSecondTick | .mimicRowScan => false
  | _ => true

theorem exec_keepsUnits {i : Instr} (hi : leavesUnits i = true) (h : exec i s = .next t) : KeepsUnits s t := by
  cases i
  case powerOnReset | lineReset | leaveReset | transfer | beginConfig | loadRecords | commitConfig | abandonConfig
    | setLimits | setClock | lampTest | scanTick | oneSecondTick | mimicRowScan => exact absurd hi Bool.false_ne_true
  all_goals cases h
  case readNotices => exact request_keepsUnits fun u => setPort_keepsUnits u _ _
  case trial => exact request_keepsUnits fun u => actTrial_keepsUnits _ _ u
  case null | readIdentity | readStatus | readTrial | readPorts | readLines | readLamps | readAlarms | readWithheld =>
    exact request_acts_keepsUnits fun _ => readOk_acts
  case readDefinition => exact request_acts_keepsUnits fun _ => actReadDefinition_acts
  case readSection | readValve | readSource | readPoint | readPlan | readOutage | readCall =>
    exact request_acts_keepsUnits fun _ => readObject_acts
  case confirmClosed | confirmOpen | reportInoperable =>
    exact request_acts_keepsUnits fun _ => actCrew_acts fun _ _ _ => trivial
  case verifyPosition => exact request_acts_keepsUnits fun _ => actVerify_acts fun _ => trivial
  case planCreate => exact request_acts_keepsUnits fun _ => actPlanCreate_acts fun _ _ _ => trivial
  case planAddValve => exact request_acts_keepsUnits fun _ => actPlan_acts fun _ => addValve_acts fun _ => trivial
  case planRemoveValve => exact request_acts_keepsUnits fun _ => actPlan_acts fun _ => removeValve_acts fun _ => trivial
  case planAssess => exact request_acts_keepsUnits fun _ => actPlan_acts fun _ => assessPlan_acts fun _ _ _ _ => trivial
  case planExecute => exact request_acts_keepsUnits fun _ => actPlan_acts fun _ => askTrial_acts fun _ _ _ => trivial
  case planDeclareOutage =>
    exact request_acts_keepsUnits fun _ => actPlan_acts fun _ =>
      declarePlan_acts (fun _ _ => declareNew_acts fun _ _ _ _ => trivial)
        (fun _ _ _ => declareMore_acts (fun _ => trivial) (fun _ _ => trivial))
  case planAbort | planRetry | planRestore =>
    exact request_acts_keepsUnits fun _ => actPlan_acts fun _ => planTaken_acts trivial
  case planRelease => exact request_acts_keepsUnits fun _ => actPlan_acts fun _ => releasePlan_acts trivial
  case planTakeOver => exact request_acts_keepsUnits fun _ => actTakeOver_acts fun _ => trivial
  case sourceOut | sourceIn => exact request_acts_keepsUnits fun _ => actSourceService_acts trivial
  case outageConfirmSection => exact request_acts_keepsUnits fun _ => actConfirmSection_acts trivial
  case outageRelit | outageNoAccess => exact request_acts_keepsUnits fun _ => actPremises_acts fun _ => trivial
  case callNew => exact request_acts_keepsUnits fun _ => actCallNew_acts fun _ _ _ _ => trivial
  case callAssign => exact request_acts_keepsUnits fun _ => actCall_acts fun _ => assignCall_acts trivial trivial
  case callArrived | callMadeSafe => exact request_acts_keepsUnits fun _ => actCall_acts fun _ => taken_acts trivial
  case callClose | callCancel => exact request_acts_keepsUnits fun _ => actCall_acts fun _ => endCall_acts trivial
  case callRegrade => exact request_acts_keepsUnits fun _ => actCall_acts fun _ => regradeCall_acts trivial
  case sampleBatch => exact request_acts_keepsUnits fun _ => actSampleBatch_acts fun _ => trivial
  case alarmAck => exact request_acts_keepsUnits fun _ => actAlarmAck_acts trivial
  case hornSilence => exact request_acts_keepsUnits fun _ => listEvent_acts trivial
  case lineChange | travelTimerExpiry | rechargeHoldExpiry | stalenessExpiry | deadlineExpiry | realarmExpiry =>
    exact whenRunning_keepsUnits fun u => event_keepsUnits _ u
  case liveWalkCompletes => exact whenRunning_keepsUnits completeWalk_keepsUnits
  case trialCompletes => exact whenRunning_keepsUnits completeTrial_keepsUnits
  case stepTick | cadencePartEnd => exact whenRunning_keepsUnits fun _ => ⟨rfl, rfl, rfl⟩
  case lampTestEnd => exact .refl s

/-! ### Commands that write one of the units -/

theorem leaveReset_cfu (s : State) : (leaveReset s).cfu = { s.cfu with inReset := false } := by
  unfold leaveReset
  split
  · rfl
  · next h =>
    rw [Bool.not_eq_true] at h
    rw [← h]

theorem leaveReset_msc (s : State) : (leaveReset s).msc = s.msc := by
  unfold leaveReset
  split <;> rfl

/-- The session is the Configuration Unit's own: its requests leave the Timebase and the Mimic Scanner. -/
structure KeepsClocksAndPanel (s t : State) : Prop where
  tbu : t.tbu = s.tbu
  msc : t.msc = s.msc

theorem request_keepsClocksAndPanel {c : ReqClass} {p : PortId} {tag : Byte} {act : State → Answer}
    (hact : ∀ s, KeepsClocksAndPanel s (act s).1) : KeepsClocksAndPanel s (request c p tag act s) :=
  request_keeps (Q := KeepsClocksAndPanel s) (fun _ _ _ h => ⟨h.tbu, h.msc⟩)
    (fun u h => ⟨(hact u).tbu.trans h.tbu, (hact u).msc.trans h.msc⟩) ⟨rfl, rfl⟩

theorem beginConfig_frame (p : PortId) (tag : Byte) (s : State) :
    KeepsClocksAndPanel s (request .beginConfig p tag (actBeginConfig p) s) :=
  request_keepsClocksAndPanel fun u => by
    unfold actBeginConfig
    split
    · exact ⟨rfl, rfl⟩
    · split <;> exact ⟨rfl, rfl⟩
    · exact ⟨rfl, rfl⟩

theorem abandonConfig_frame (p : PortId) (tag : Byte) (s : State) :
    KeepsClocksAndPanel s (request .config p tag actAbandonConfig s) :=
  request_keepsClocksAndPanel fun u => by
    unfold actAbandonConfig
    split <;> exact ⟨rfl, rfl⟩

/-- LOAD_RECORDS writes the image and the checksum (R1, R186). -/
structure LoadFrame (s t : State) : Prop where
  device : t.cfu.device = s.cfu.device
  authority : t.cfu.authority = s.cfu.authority
  tbu : t.tbu = s.tbu
  msc : t.msc = s.msc

theorem loadRecords_frame (p : PortId) (tag : Byte) (body : List Byte) (s : State) :
    LoadFrame s (request .config p tag (actLoadRecords body) s) := by
  refine request_keeps (Q := LoadFrame s) (fun _ _ _ h => ⟨h.device, h.authority, h.tbu, h.msc⟩) (fun u h => ?_)
    ⟨rfl, rfl, rfl, rfl⟩
  unfold actLoadRecords
  split
  · exact h
  · split
    · exact h
    · exact ⟨h.device, h.authority, h.tbu, h.msc⟩

/-- COMMIT_CONFIG leaves nRESET, the checksum and uptime (R189, R192). -/
structure CommitFrame (s t : State) : Prop where
  inReset : t.cfu.inReset = s.cfu.inReset
  checksum : t.cfu.checksum = s.cfu.checksum
  uptime : t.tbu.uptime = s.tbu.uptime

theorem commitConfig_frame (p : PortId) (tag : Byte) (x : Half) (s : State) :
    CommitFrame s (request .config p tag (actCommitConfig x) s) := by
  refine request_keeps (Q := CommitFrame s) (fun _ _ _ h => ⟨h.inReset, h.checksum, h.uptime⟩) (fun u h => ?_)
    ⟨rfl, rfl, rfl⟩
  unfold actCommitConfig
  split
  · exact h
  · split
    · exact ⟨h.inReset, h.checksum, h.uptime⟩
    · split
      · exact ⟨h.inReset, h.checksum, h.uptime⟩
      · exact ⟨h.inReset, h.checksum, h.uptime⟩

/-- SET_LIMITS changes a point's definition (R128). -/
structure LimitsFrame (s t : State) : Prop where
  cfu : ∃ l, t.cfu = { s.cfu with image := { s.cfu.image with points := l } } ∧ keys l = keys s.cfu.image.points
  tbu : t.tbu = s.tbu
  msc : t.msc = s.msc

theorem setLimits_frame (p : PortId) (tag : Byte) (n ll l h hh deadband k : Nat) (s : State) :
    LimitsFrame s (request .switching p tag (actSetLimits n ll l h hh deadband k) s) := by
  refine request_keeps (Q := LimitsFrame s) (fun _ _ _ hu => ⟨hu.cfu, hu.tbu, hu.msc⟩) (fun u hu => ?_)
    ⟨⟨_, rfl, rfl⟩, rfl, rfl⟩
  unfold actSetLimits
  split
  · exact hu
  · split
    · exact hu
    · obtain ⟨points, hcfu, hkeys⟩ := hu.cfu
      exact ⟨⟨_, by dsimp only; rw [hcfu], (keys_adjust _ _ _).trans hkeys⟩, hu.tbu, hu.msc⟩

/-- SET_CLOCK writes the network clock and its flag (R192). -/
structure ClockFrame (s t : State) : Prop where
  cfu : t.cfu = s.cfu
  uptime : t.tbu.uptime = s.tbu.uptime
  msc : t.msc = s.msc

theorem setClock_frame (p : PortId) (tag : Byte) (x : Word) (h : exec (.setClock p tag x) s = .next t) :
    ClockFrame s t := by
  cases h
  exact request_keeps (Q := ClockFrame s) (fun _ _ _ h => ⟨h.cfu, h.uptime, h.msc⟩)
    (fun _ h => ⟨h.cfu, h.uptime, h.msc⟩) ⟨rfl, rfl, rfl⟩


theorem oneSecondTick_frame (h : exec .oneSecondTick s = .next t) : t.cfu = s.cfu ∧ t.msc = s.msc := by
  cases h
  split
  · exact ⟨rfl, rfl⟩
  · have hticked : KeepsUnits (advanceClocks s) (whenRunning secondTick (advanceClocks s)) :=
      whenRunning_keepsUnits fun u => event_keepsUnits _ u
    exact ⟨hticked.cfu, hticked.msc⟩

theorem lampTest_frame (p : PortId) (tag : Byte) (h : exec (.lampTest p tag) s = .next t) :
    t.cfu = s.cfu ∧ t.tbu = s.tbu := by
  cases h
  exact request_keeps (Q := fun u => u.cfu = s.cfu ∧ u.tbu = s.tbu) (fun _ _ _ h => h) (fun _ h => h) ⟨rfl, rfl⟩

/-- The scan tick counts the flash phase and the lamp-test timer and shows nothing (R164, R166). -/
structure ScanFrame (s t : State) : Prop where
  cfu : t.cfu = s.cfu
  tbu : t.tbu = s.tbu
  lamps : t.msc.lamps = s.msc.lamps
  nextRow : t.msc.nextRow = s.msc.nextRow
  drivenRow : t.msc.drivenRow = s.msc.drivenRow
  drivenColumns : t.msc.drivenColumns = s.msc.drivenColumns

theorem scanTick_frame (pins : BitVec 64) (h : exec (.scanTick pins) s = .next t) : ScanFrame s t := by
  cases h
  exact whenRunning_keeps (Q := ScanFrame s)
    (fun _ h => ⟨h.cfu, h.tbu, h.lamps, h.nextRow, h.drivenRow, h.drivenColumns⟩) ⟨rfl, rfl, rfl, rfl, rfl, rfl⟩

/-- The row scan leaves the lamp-test timer and the flash phase (R164, R166). -/
structure RowFrame (s t : State) : Prop where
  cfu : t.cfu = s.cfu
  tbu : t.tbu = s.tbu
  testTimer : t.msc.testTimer = s.msc.testTimer
  flash : t.msc.flash = s.msc.flash

theorem mimicRowScan_frame (h : exec .mimicRowScan s = .next t) : RowFrame s t := by
  cases h
  exact whenRunning_keeps (Q := RowFrame s) (fun _ h => ⟨h.cfu, h.tbu, h.testTimer, h.flash⟩) ⟨rfl, rfl, rfl, rfl⟩

/-- Settles O3: the commands that write a unit by their own frames, every other one by `exec_keepsUnits`. -/
theorem unitFrames : Obligations.UnitFrames := by
  refine ⟨fun i s t h => ?_, fun i s t h => ?_⟩
  · cases i
    case powerOnReset | lineReset | transfer | beginConfig | abandonConfig => trivial
    case leaveReset => cases h; exact leaveReset_cfu s
    case loadRecords => cases h; exact ⟨(loadRecords_frame ..).device, (loadRecords_frame ..).authority⟩
    case commitConfig => cases h; exact ⟨(commitConfig_frame ..).inReset, (commitConfig_frame ..).checksum⟩
    case setLimits => cases h; exact (setLimits_frame ..).cfu
    case setClock => exact (setClock_frame _ _ _ h).cfu
    case lampTest => exact (lampTest_frame _ _ h).1
    case scanTick => exact (scanTick_frame _ h).cfu
    case oneSecondTick => exact (oneSecondTick_frame h).1
    case mimicRowScan => exact (mimicRowScan_frame h).cfu
    all_goals exact (exec_keepsUnits rfl h).cfu
  · cases i
    case powerOnReset | lineReset | transfer => exact ⟨trivial, trivial⟩
    case leaveReset => cases h; exact ⟨trivial, leaveReset_msc s⟩
    case beginConfig => cases h; exact ⟨(beginConfig_frame ..).tbu, (beginConfig_frame ..).msc⟩
    case abandonConfig => cases h; exact ⟨(abandonConfig_frame ..).tbu, (abandonConfig_frame ..).msc⟩
    case loadRecords => cases h; exact ⟨(loadRecords_frame ..).tbu, (loadRecords_frame ..).msc⟩
    case commitConfig => cases h; exact ⟨(commitConfig_frame ..).uptime, trivial⟩
    case setLimits => cases h; exact ⟨(setLimits_frame ..).tbu, (setLimits_frame ..).msc⟩
    case setClock => exact ⟨(setClock_frame _ _ _ h).uptime, (setClock_frame _ _ _ h).msc⟩
    case lampTest => exact ⟨(lampTest_frame _ _ h).2, trivial⟩
    case oneSecondTick => exact ⟨trivial, (oneSecondTick_frame h).2⟩
    case scanTick =>
      obtain ⟨_, htbu, hlamps, hnext, hrow, hcolumns⟩ := scanTick_frame _ h
      exact ⟨htbu, hlamps, hnext, hrow, hcolumns⟩
    case mimicRowScan =>
      obtain ⟨_, htbu, htimer, hflash⟩ := mimicRowScan_frame h
      exact ⟨htbu, htimer, hflash⟩
    all_goals exact ⟨(exec_keepsUnits rfl h).tbu, (exec_keepsUnits rfl h).msc⟩

end Sys2Proof.Machine
end

section
/-!
The resets and SET_CLOCK (O4): the values right after reset, what each reset row leaves, that a part held in reset takes
nothing but pin levels, and what SET_CLOCK writes.
-/

namespace Sys2Proof.Machine

variable {s : State}

/-! ### Right after reset -/

@[simp] theorem reset_port (p : PortId) : State.reset.ports.get p = Port.reset := by cases p <;> rfl

theorem reset_lines (x : LineScan) (h : x ∈ Net.reset.lines) : x = LineScan.reset := List.eq_of_mem_replicate h

/-! ### The reset rows (R190) -/

theorem resetAll_port (s : State) (p : PortId) : (resetAll s).ports.get p = Port.reset := reset_port p

theorem leaveReset_held (h : s.cfu.inReset = true) :
    leaveReset s = { s with cfu := { s.cfu with inReset := false }, tbu := { s.tbu with uptime := 0 } } := if_pos h

theorem leaveReset_idle (h : s.cfu.inReset = false) : leaveReset s = s := if_neg (by simp [h])

/-! ### While nRESET holds the part in reset (R167, R190) -/

theorem request_held {c : ReqClass} {p : PortId} {tag : Byte} {act : State → Answer} (h : s.cfu.inReset = true) :
    request c p tag act s = s := if_pos h

theorem whenRunning_held {f : State → State} (h : s.cfu.inReset = true) : whenRunning f s = s := by
  simp [whenRunning, isRunning, h]

theorem transfer_held {p : PortId} {bits : List Bool} (h : s.cfu.inReset = true) : transfer p bits s = s := if_pos h

theorem scanTick_held (pins : BitVec 64) (h : s.cfu.inReset = true) :
    exec (.scanTick pins) s = .next { s with net := { s.net with pins := pins } } :=
  congrArg Host.Outcome.next (whenRunning_held (s := setPins pins s) h)

/-- The rows that a part held in reset takes: the resets, and the levels of the pins. -/
def actsInReset : Instr → Bool
  | .powerOnReset | .lineReset | .leaveReset | .scanTick _ => true
  | _ => false

theorem exec_held {i : Instr} (hi : actsInReset i = false) (h : s.cfu.inReset = true) : exec i s = .next s := by
  cases i
  case powerOnReset | lineReset | leaveReset | scanTick => exact absurd hi.symm Bool.false_ne_true
  case oneSecondTick => exact congrArg Host.Outcome.next (if_pos h)
  case transfer => exact congrArg Host.Outcome.next (transfer_held h)
  case lampTestEnd => rfl
  case lineChange | travelTimerExpiry | liveWalkCompletes | trialCompletes | rechargeHoldExpiry | stalenessExpiry
    | deadlineExpiry | realarmExpiry | stepTick | cadencePartEnd | mimicRowScan =>
    exact congrArg Host.Outcome.next (whenRunning_held h)
  all_goals exact congrArg Host.Outcome.next (request_held h)

/-! ### Requests that act on their own unit -/

/-- An act that leaves the ports answers its request: OK or a refusal, the port's last-request time the uptime, and the
other ports as they were. -/
theorem request_answered {c : ReqClass} {p : PortId} {tag : Byte} {act : State → Answer} {u : State} {st : Status}
    {body : List Byte} (hreset : s.cfu.inReset = false) (htaken : refusalOf (renew p s) c p = none)
    (hact : act (renew p s) = (u, st, body)) (hports : u.ports = (renew p s).ports) (huptime : u.tbu.uptime = s.tbu.uptime) :
    request c p tag act s = respond p tag st body u ∧ Answered p tag st body (respond p tag st body u)
      ∧ ∀ q, q ≠ p → (respond p tag st body u).ports.get q = s.ports.get q := by
  refine ⟨?_, answered_respond p tag st body u ?_, fun q hq => ?_⟩
  · rw [request_taken c p tag act s hreset htaken, hact]
  · rw [hports, renew_lastRequest, huptime]
  · rw [respond_get_other p q tag st body u hq, hports, renew_ports, Ports.get_set_other _ _ _ _ hq]

theorem setClock_taken (p : PortId) (tag : Byte) (x : Word) (h : CanSend [.switching] p s) :
    ∃ t, exec (.setClock p tag x) s = .next t ∧ Answered p tag .ok [] t
      ∧ t.tbu = { s.tbu with clock := x, clockSet := true }
      ∧ t.cfu = s.cfu ∧ t.net = s.net ∧ t.alu = s.alu ∧ t.msc = s.msc
      ∧ ∀ q, q ≠ p → t.ports.get q = s.ports.get q := by
  obtain ⟨heq, hanswered, hothers⟩ := request_answered
    (u := { renew p s with tbu := { s.tbu with clock := x, clockSet := true } }) (tag := tag) (st := .ok) (body := [])
    (act := fun t => ({ t with tbu := { t.tbu with clock := x, clockSet := true } }, .ok, [])) h.1.1
    (refusalOf_running .switching p s _ h (by simp [permits])) rfl rfl rfl
  exact ⟨_, congrArg Host.Outcome.next heq, hanswered, rfl, rfl, rfl, rfl, rfl, hothers⟩

/-- Settles O4: the values at reset are read off `State.reset`; each reset row and SET_CLOCK by its own lemma. -/
theorem resetAndClock : Obligations.ResetAndClock := by
  refine ⟨?_, ⟨fun s => ⟨?_, ?_, ?_⟩, fun i s h => ?_⟩, fun s p tag x h => setClock_taken p tag x h⟩
  · have hlines (x : LineScan) (hx : x ∈ Net.reset.lines) : x.rawHigh = false ∧ x.active = false ∧ x.count = 0 := by
      rw [reset_lines x hx]
      exact ⟨rfl, rfl, rfl⟩
    refine ⟨rfl, rfl, rfl, rfl, rfl, rfl, rfl, rfl, List.length_replicate, hlines, fun n => BitVec.getLsbD_zero, rfl, rfl,
      rfl, rfl, rfl, rfl, rfl, rfl, rfl, rfl, rfl, rfl, rfl, rfl, rfl, rfl, rfl, rfl, rfl, rfl, rfl, fun p => ?_⟩
    rw [reset_port]
    exact ⟨rfl, rfl, rfl, rfl, rfl, rfl, rfl, rfl, rfl, rfl⟩
  · exact ⟨powerOnReset s, rfl, rfl, rfl, rfl, rfl, rfl, resetAll_port s⟩
  · exact ⟨lineReset s, rfl, rfl, rfl, rfl, rfl, rfl, rfl, rfl, rfl, rfl, rfl, rfl, rfl, rfl, resetAll_port s⟩
  · exact ⟨leaveReset s, rfl, by rw [leaveReset_cfu], leaveReset_held, leaveReset_idle⟩
  · cases i
    case powerOnReset | lineReset | leaveReset => trivial
    case scanTick pins => exact scanTick_held pins h
    all_goals exact exec_held rfl h

end Sys2Proof.Machine
end

section
/-!
The horn's cadence and the mimic panel (O59): the parts of a cadence, what a due step tick takes, and what the scan of a
row writes.
-/

namespace Sys2Proof.Machine

variable {s : State}

theorem whenRunning_running {f : State → State} (h : Running s) : whenRunning f s = f s := by
  obtain ⟨hreset, hdevice⟩ := h
  simp [whenRunning, isRunning, hreset, hdevice]

/-! ### The cadence (R162) -/

@[simp] theorem inOnPart_nextPart (m : Image) (p pulse : Nat) (on : Bool) : inOnPart (nextPart m p pulse on) = !on := by
  cases on <;> rfl

/-- The part after an on part holds off steps; the part after an off part is the next of four pulses (R162). -/
theorem nextPart_eq (m : Image) (p pulse : Nat) (on : Bool) (h : pulse ≤ 4) :
    nextPart m p pulse on =
      if on then .sounding p pulse false (cadenceOf m p).offSteps
      else .sounding p (if pulse = 4 then 1 else pulse + 1) true ((cadenceOf m p).onSteps
        + ((cadenceOf m p).extension.getLsbD ((if pulse = 4 then 1 else pulse + 1) - 1)).toNat) := by
  have hwrap : (if 4 ≤ pulse then 1 else pulse + 1) = if pulse = 4 then 1 else pulse + 1 := by
    split <;> split <;> omega
  unfold nextPart
  rw [hwrap]
  rfl

theorem endPart_ends {m : Image} {a : Alu} {p pulse : Nat} {on : Bool} (h : a.horn = .sounding p pulse on 0) :
    endPart m a = { a with horn := nextPart m p pulse on, hornOut := !on } := by
  simp [endPart, h]

theorem endPart_stays {m : Image} {a : Alu} {p pulse steps : Nat} {on : Bool} (h : a.horn = .sounding p pulse on steps)
    (hsteps : steps ≠ 0) : endPart m a = a := by
  simp [endPart, h, hsteps]

/-- A due step tick takes one step of the part, which ends with its last one. -/
theorem stepIfDue_sounding {m : Image} {a : Alu} {p pulse steps : Nat} {on : Bool}
    (h : a.horn = .sounding p pulse on steps) (hdue : a.divider = 10) :
    stepIfDue m a = endPart m { a with divider := 0, horn := .sounding p pulse on (steps - 1) } := by
  simp [stepIfDue, Config.stepTicks, hdue, stepHorn, h]

theorem stepIfDue_notDue {m : Image} {a : Alu} (h : a.divider ≠ 10) : stepIfDue m a = a := if_neg h

theorem stepTick_running (h : Running s) :
    exec .stepTick s = .next { s with alu := stepIfDue s.cfu.image s.alu } :=
  congrArg Host.Outcome.next (whenRunning_running h)

theorem cadencePartEnd_running (h : Running s) :
    exec .cadencePartEnd s = .next { s with alu := endPart s.cfu.image s.alu } :=
  congrArg Host.Outcome.next (whenRunning_running h)

/-! ### The row scan (R164, R165) -/

/-- The column bits are the flags of the lamps, column by column. -/
theorem testBit_columnsOf (l : List Bool) (c : Nat) : (columnsOf l).testBit c = l[c]?.getD false := by
  induction l generalizing c with
  | nil => simp [columnsOf]
  | cons b t ih =>
    unfold columnsOf
    cases c with
    | zero => cases b <;> simp [Nat.testBit_zero, Nat.add_mul_mod_self_left]
    | succ c =>
      have hhalf : (b.toNat + 2 * columnsOf t) / 2 = columnsOf t := by
        have := Bool.toNat_lt b
        omega
      rw [Nat.testBit_succ, hhalf, ih]
      rfl

theorem rowStates_getElem? (s : State) (row : Nat) {c : Nat} (h : c < 24) :
    (rowStates s row)[c]? = some (displayed s (24 * row + c)) := by
  simp [rowStates, Config.lampColumns, h, Nat.mul_comm]

@[simp] theorem rowStates_length (s : State) (row : Nat) : (rowStates s row).length = 24 := by
  simp [rowStates, Config.lampColumns]

theorem replaceFrom_length {α : Type} {n : Nat} {new l : List α} (h : n + new.length ≤ l.length) :
    (replaceFrom n new l).length = l.length := by
  simp only [replaceFrom, List.length_append, List.length_take, List.length_drop]
  omega

theorem replaceFrom_inside {α : Type} {n : Nat} {new l : List α} (h : n + new.length ≤ l.length) {c : Nat}
    (hc : c < new.length) : (replaceFrom n new l)[n + c]? = new[c]? := by
  have htake : (l.take n).length = n := List.length_take_of_le (by omega)
  rw [replaceFrom, List.getElem?_append_left (by rw [List.length_append]; omega),
    List.getElem?_append_right (by omega), htake, Nat.add_sub_cancel_left]

theorem replaceFrom_outside {α : Type} {n : Nat} {new l : List α} (h : n + new.length ≤ l.length) {k : Nat}
    (hk : k < n ∨ n + new.length ≤ k) : (replaceFrom n new l)[k]? = l[k]? := by
  have htake : (l.take n).length = n := List.length_take_of_le (by omega)
  rcases hk with hk | hk
  · rw [replaceFrom, List.append_assoc, List.getElem?_append_left (by omega), List.getElem?_take_of_lt hk]
  · have hfront : (l.take n ++ new).length = n + new.length := by rw [List.length_append, htake]
    rw [replaceFrom, List.getElem?_append_right (by omega), hfront, List.getElem?_drop]
    congr 1
    omega

theorem displayed_of_test {lamp : Nat} (h : 0 < s.msc.testTimer) : displayed s lamp = .on := if_pos h

theorem displayed_of_live {lamp : Nat} (h : s.msc.testTimer = 0) :
    displayed s lamp = derivedLamp (lampOf s.cfu.image lamp) s.net s.alu := if_neg (by omega)

theorem scanRow_lamps (s : State) :
    (scanRow s).msc.lamps = replaceFrom (24 * s.msc.nextRow) (rowStates s s.msc.nextRow) s.msc.lamps := by
  rw [Nat.mul_comm]
  rfl

theorem scanRow_nextRow (h : s.msc.nextRow < 12) :
    (scanRow s).msc.nextRow = if s.msc.nextRow = 11 then 0 else s.msc.nextRow + 1 := by
  change (if s.msc.nextRow + 1 < 12 then s.msc.nextRow + 1 else 0) = _
  split <;> split <;> omega

/-- A column is driven exactly where its lamp is lit at the flash phase. -/
theorem scanRow_column (s : State) {c : Nat} (h : c < 24) :
    (scanRow s).msc.drivenColumns.getLsbD c = isLit s.msc.flash (displayed s (24 * s.msc.nextRow + c)) := by
  change (BitVec.ofNat 24 (columnsOf ((rowStates s s.msc.nextRow).map (isLit s.msc.flash)))).getLsbD c = _
  rw [BitVec.getLsbD_ofNat, testBit_columnsOf, List.getElem?_map, rowStates_getElem? s _ h]
  simp [h]

/-- What the scan of a row shows and drives. -/
theorem scanRow_spec (hrow : s.msc.nextRow < 12) (hlamps : s.msc.lamps.length = 288) :
    (scanRow s).msc.lamps.length = 288
      ∧ (∀ c, c < 24 → (scanRow s).msc.lamps[24 * s.msc.nextRow + c]? = some (displayed s (24 * s.msc.nextRow + c)))
      ∧ ∀ n, (n < 24 * s.msc.nextRow ∨ 24 * s.msc.nextRow + 24 ≤ n) → (scanRow s).msc.lamps[n]? = s.msc.lamps[n]? := by
  have hfits : 24 * s.msc.nextRow + (rowStates s s.msc.nextRow).length ≤ s.msc.lamps.length := by
    rw [rowStates_length]
    omega
  rw [scanRow_lamps]
  refine ⟨(replaceFrom_length hfits).trans hlamps, fun c hc => ?_, fun n hn => ?_⟩
  · rw [replaceFrom_inside hfits (by rwa [rowStates_length]), rowStates_getElem? s _ hc]
  · exact replaceFrom_outside hfits (by rwa [rowStates_length])

/-! ### The lamp test (R166) -/

theorem lampTest_taken (p : PortId) (tag : Byte) (h : CanSend [.switching] p s) :
    ∃ t, exec (.lampTest p tag) s = .next t ∧ Answered p tag .ok [] t
      ∧ t.msc = { s.msc with testTimer := 500, lamps := List.replicate 288 .on }
      ∧ t.cfu = s.cfu ∧ t.tbu = s.tbu ∧ t.net = s.net ∧ t.alu = s.alu ∧ ∀ q, q ≠ p → t.ports.get q = s.ports.get q := by
  obtain ⟨heq, hanswered, hothers⟩ := request_answered (u := startLampTest (renew p s)) (tag := tag) (st := .ok)
    (body := []) (act := fun t => (startLampTest t, .ok, [])) h.1.1
    (refusalOf_running .switching p s _ h (by simp [permits])) rfl rfl rfl
  exact ⟨_, congrArg Host.Outcome.next heq, hanswered, rfl, rfl, rfl, rfl, rfl, hothers⟩

theorem mimicRowScan_running (h : Running s) (hrow : s.msc.nextRow < 12) (hlamps : s.msc.lamps.length = 288) :
    ∃ t, exec .mimicRowScan s = .next t ∧ t = { s with msc := t.msc } ∧ t.msc.lamps.length = 288
      ∧ t.msc.testTimer = s.msc.testTimer ∧ t.msc.flash = s.msc.flash
      ∧ t.msc.nextRow = (if s.msc.nextRow = 11 then 0 else s.msc.nextRow + 1)
      ∧ t.msc.drivenRow = some s.msc.nextRow
      ∧ (∀ c, c < 24 → ∃ l, t.msc.lamps[24 * s.msc.nextRow + c]? = some l
          ∧ (0 < s.msc.testTimer → l = .on)
          ∧ (s.msc.testTimer = 0 → l = derivedLamp (lampOf s.cfu.image (24 * s.msc.nextRow + c)) s.net s.alu)
          ∧ t.msc.drivenColumns.getLsbD c = isLit s.msc.flash l)
      ∧ (∀ n, (n < 24 * s.msc.nextRow ∨ 24 * s.msc.nextRow + 24 ≤ n) → t.msc.lamps[n]? = s.msc.lamps[n]?) := by
  obtain ⟨hlength, hinside, houtside⟩ := scanRow_spec hrow hlamps
  exact ⟨scanRow s, congrArg Host.Outcome.next (whenRunning_running h), rfl, hlength, rfl, rfl, scanRow_nextRow hrow, rfl,
    fun c hc => ⟨_, hinside c hc, displayed_of_test, displayed_of_live, scanRow_column s hc⟩, houtside⟩

/-- Settles O59: the cadence by what a due step and the end of a part leave, the panel by what a test and a row scan
write. -/
theorem hornAndLampsRun : Obligations.HornAndLampsRun := by
  refine ⟨fun s p pulse on steps hrun hhorn _ hpulse => ?_, fun s =>
    ⟨fun p tag h => lampTest_taken p tag h, rfl, fun h hrow hlamps => mimicRowScan_running h hrow hlamps⟩⟩
  intro next d nextHorn
  have hnext : nextPart s.cfu.image p pulse on = nextHorn := nextPart_eq _ p pulse on hpulse
  refine ⟨fun hdue => ⟨fun hsteps => ?_, fun hsteps => ?_⟩, fun hdue => ?_, fun hsteps => ?_, fun hsteps => ?_⟩
  · rw [stepTick_running hrun, stepIfDue_sounding hhorn hdue, endPart_stays rfl (by omega)]
  · subst hsteps
    rw [stepTick_running hrun, stepIfDue_sounding hhorn hdue, endPart_ends rfl, hnext]
  · rw [stepTick_running hrun, stepIfDue_notDue hdue]
  · subst hsteps
    rw [cadencePartEnd_running hrun, endPart_ends hhorn, hnext]
  · rw [cadencePartEnd_running hrun, endPart_stays hhorn hsteps]

end Sys2Proof.Machine
end

section
/-!
Configuration sessions (O5): how each of the four requests is answered inside and outside a session, the defaults that a
commit applies, and the offending record as the first constraint broken.
-/

namespace Sys2Proof.Machine

variable {s : State}

/-! ### Requests that are refused -/

/-- A request refused by check 2 or 3 of R170. -/
theorem refused_check {i : Instr} {c : ReqClass} {p : PortId} {tag : Byte} {act : State → Answer} {st : Status}
    (hi : exec i s = .next (request c p tag act s)) (hreset : s.cfu.inReset = false)
    (hcheck : refusalOf (renew p s) c p = some st) : Refused i p tag st [] s := by
  have hrequest : request c p tag act s = respond p tag st [] (renew p s) := by simp [request, hreset, hcheck]
  rw [hrequest] at hi
  exact ⟨_, hi, respond_renew_only p tag st [] s, answered_respond p tag st [] _ (renew_lastRequest p s)⟩

/-- A request that its owner refuses (check 4 of R170). -/
theorem refused_act {i : Instr} {c : ReqClass} {p : PortId} {tag : Byte} {act : State → Answer} {st : Status}
    {body : List Byte} (hi : exec i s = .next (request c p tag act s)) (hreset : s.cfu.inReset = false)
    (htaken : refusalOf (renew p s) c p = none) (hact : act (renew p s) = (renew p s, st, body)) :
    Refused i p tag st body s := by
  obtain ⟨heq, hanswered, _⟩ := request_answered (tag := tag) hreset htaken hact rfl rfl
  rw [heq] at hi
  exact ⟨_, hi, respond_renew_only p tag st body s, hanswered⟩

/-! ### Checks 2 and 3 of the session's requests (R170, R184, R185) -/

theorem refusalOf_beginConfig (p : PortId) (h : s.cfu.device ≠ .running) :
    refusalOf (renew p s) .beginConfig p = none := by
  simp [refusalOf, h, beforeRunning]

theorem refusalOf_config_holder {p : PortId} (h : s.cfu.device = .configuring) (ha : s.cfu.authority = some p) :
    refusalOf (renew p s) .config p = none := by
  simp [refusalOf, h, beforeRunning, ha]

theorem refusalOf_config_other {p q : PortId} (h : s.cfu.device = .configuring) (ha : s.cfu.authority = some q)
    (hpq : p ≠ q) : refusalOf (renew p s) .config p = some .notPermitted := by
  simp [refusalOf, h, beforeRunning, ha, Ne.symm hpq]

/-! ### The session (R185) -/

theorem beginConfig_standby (p : PortId) (tag : Byte) (hreset : s.cfu.inReset = false) (h : s.cfu.device = .standby) :
    ∃ t, exec (.beginConfig p tag) s = .next t ∧ Answered p tag .ok [] t
      ∧ t.cfu = freshSession s.cfu .configuring (some p) ∧ t.tbu = s.tbu ∧ t.net = s.net ∧ t.alu = s.alu
      ∧ t.msc = s.msc := by
  have hact : actBeginConfig p (renew p s) =
      ((renew p s).setCfu (freshSession s.cfu .configuring (some p)), .ok, []) := by simp [actBeginConfig, h]
  obtain ⟨heq, hanswered, _⟩ :=
    request_answered (tag := tag) hreset (refusalOf_beginConfig p (by simp [h])) hact rfl rfl
  exact ⟨_, congrArg Host.Outcome.next heq, hanswered, rfl, rfl, rfl, rfl, rfl⟩

theorem beginConfig_held {p q : PortId} (tag : Byte) (hreset : s.cfu.inReset = false)
    (h : s.cfu.device = .configuring) (ha : s.cfu.authority = some q) :
    Refused (.beginConfig p tag) p tag (if p = q then .wrongState else .configHeld) [] s := by
  refine refused_act rfl hreset (refusalOf_beginConfig p (by simp [h])) ?_
  by_cases hpq : p = q
  · simp [actBeginConfig, h, ha, hpq, refuse]
  · simp [actBeginConfig, h, ha, hpq, Ne.symm hpq, refuse]

theorem abandonConfig_holder {p : PortId} (tag : Byte) (hreset : s.cfu.inReset = false)
    (h : s.cfu.device = .configuring) (ha : s.cfu.authority = some p) :
    ∃ t, exec (.abandonConfig p tag) s = .next t ∧ Answered p tag .ok [] t
      ∧ t.cfu = freshSession s.cfu .standby none ∧ t.tbu = s.tbu ∧ t.net = s.net ∧ t.alu = s.alu ∧ t.msc = s.msc := by
  have hact : actAbandonConfig (renew p s) = ((renew p s).setCfu (freshSession s.cfu .standby none), .ok, []) := by
    simp [actAbandonConfig, h]
  obtain ⟨heq, hanswered, _⟩ := request_answered (tag := tag) hreset (refusalOf_config_holder h ha) hact rfl rfl
  exact ⟨_, congrArg Host.Outcome.next heq, hanswered, rfl, rfl, rfl, rfl, rfl⟩

/-! ### Refused commits (R188) -/

/-- A refused commit puts its failure on record and changes nothing else. -/
theorem commitConfig_fails {p : PortId} (tag : Byte) {x : Half} {st : Status} {body : List Byte} {f : CommitFailure}
    (hreset : s.cfu.inReset = false) (h : s.cfu.device = .configuring) (ha : s.cfu.authority = some p)
    (hact : actCommitConfig x (renew p s) = ((renew p s).setCfu { s.cfu with failure := some f }, st, body)) :
    ∃ t, exec (.commitConfig p tag x) s = .next t ∧ Answered p tag st body t
      ∧ t.cfu = { s.cfu with failure := some f } ∧ t.tbu = s.tbu ∧ t.net = s.net ∧ t.alu = s.alu ∧ t.msc = s.msc := by
  obtain ⟨heq, hanswered, _⟩ := request_answered (tag := tag) hreset (refusalOf_config_holder h ha) hact rfl rfl
  exact ⟨_, congrArg Host.Outcome.next heq, hanswered, rfl, rfl, rfl, rfl, rfl⟩

theorem actCommitConfig_mismatch {p : PortId} {x : Half} (h : s.cfu.device = .configuring) (hx : x ≠ s.cfu.checksum) :
    actCommitConfig x (renew p s) =
      ((renew p s).setCfu { s.cfu with failure := some .checksumMismatch }, .checksumMismatch, []) := by
  simp [actCommitConfig, h, hx]

theorem actCommitConfig_invalid {p : PortId} {o : Offender} (h : s.cfu.device = .configuring)
    (ho : offender s.cfu.image.withDefaults = some o) :
    actCommitConfig s.cfu.checksum (renew p s) =
      ((renew p s).setCfu { s.cfu with failure := some (.configInvalid o) }, .configInvalid, offenderBody o) := by
  simp [actCommitConfig, h, ho]

/-! ### Loading (R186, R187) -/

theorem loadRecords_whole {p : PortId} (tag : Byte) {body : List Byte} {l : List DefRecord}
    (hreset : s.cfu.inReset = false) (h : s.cfu.device = .configuring) (ha : s.cfu.authority = some p)
    (hl : parseBody body = .inl l) :
    ∃ t, exec (.loadRecords p tag body) s = .next t
      ∧ t.cfu = { s.cfu with image := l.foldl holdRecord s.cfu.image, checksum := crcFrom s.cfu.checksum body }
      ∧ Answered p tag .ok (be16 (recordsHeld t.cfu.image) ++ halfBytes t.cfu.checksum) t
      ∧ t.tbu = s.tbu ∧ t.net = s.net ∧ t.alu = s.alu ∧ t.msc = s.msc := by
  have hact : actLoadRecords body (renew p s) =
      ((renew p s).setCfu
          { s.cfu with image := l.foldl holdRecord s.cfu.image, checksum := crcFrom s.cfu.checksum body },
        .ok, be16 (recordsHeld (l.foldl holdRecord s.cfu.image)) ++ halfBytes (crcFrom s.cfu.checksum body)) := by
    simp [actLoadRecords, h, hl]
  obtain ⟨heq, hanswered, _⟩ := request_answered (tag := tag) hreset (refusalOf_config_holder h ha) hact rfl rfl
  exact ⟨_, congrArg Host.Outcome.next heq, rfl, hanswered, rfl, rfl, rfl, rfl⟩

theorem loadRecords_refused {p : PortId} (tag : Byte) {body : List Byte} {n : Nat}
    (hreset : s.cfu.inReset = false) (h : s.cfu.device = .configuring) (ha : s.cfu.authority = some p)
    (hn : parseBody body = .inr n) : Refused (.loadRecords p tag body) p tag .badArgument (be8 n) s :=
  refused_act rfl hreset (refusalOf_config_holder h ha) (by simp [actLoadRecords, h, hn])

/-! ### In RUNNING (R184) -/

/-- Every role may send the requests of a session, which their owner refuses in RUNNING. -/
theorem session_refused_running {i : Instr} {c : ReqClass} {p : PortId} {tag : Byte} {act : State → Answer}
    (hi : exec i s = .next (request c p tag act s)) (h : CanSend anyRole p s) (hc : ∀ r, permits r c = true)
    (hact : ∀ u, u.cfu.device = .running → act u = refuse .wrongState u) : Refused i p tag .wrongState [] s :=
  refused_act hi h.1.1 (refusalOf_running c p s anyRole h fun r _ => hc r) (hact (renew p s) h.1.2)

/-! ### Defaults (R2, R10, R12, R13) -/

theorem ValveDef.withDefaults_eq (d : ValveDef) :
    d.withDefaults = if d.kind = .actuated ∧ d.timeout = some 0 then { d with timeout := some 120 } else d := by
  obtain ⟨a, b, kind, r, timeout, c, o, cl, ol⟩ := d
  cases kind
  case manual => rfl
  case actuated =>
    rcases timeout with _ | _ | t <;> rfl

theorem LampDef.withDefaults_eq (d : LampDef) :
    d.withDefaults = { d with object := if d.kind = .unbound then 0 else d.object } := by
  unfold LampDef.withDefaults
  split <;> rfl

theorem CadenceDef.withDefaults_eq (d : CadenceDef) {k : Nat} (h1 : 1 ≤ k) (h4 : k ≤ 4) :
    d.withDefaults k =
      { d with
        onSteps := if d.onSteps = 0 then [2, 4, 6, 10].getD (k - 1) 0 else d.onSteps
        offSteps := if d.offSteps = 0 then [2, 4, 10, 20].getD (k - 1) 0 else d.offSteps } := by
  interval_cases k <;> rfl

theorem itemAt_eq_getD {α : Type} (d : α) (l : List α) (n : Nat) : itemAt d l n = l.getD n d := by
  induction l generalizing n with
  | nil => rfl
  | cons x t ih =>
    cases n with
    | zero => rfl
    | succ n => exact ih n

/-- Pairing each item with the item of its place is zipping, while there are places enough. -/
theorem mapFrom_itemAt {α β γ : Type} (f : α → β → γ) (b : β) (places : List β) {n : Nat} {l : List α}
    (h : n + l.length ≤ places.length) :
    mapFrom (fun k v => f v (itemAt b places k)) n l = List.zipWith f l (places.drop n) := by
  induction l generalizing n with
  | nil => rfl
  | cons v t ih =>
    have hn : n < places.length := by
      rw [List.length_cons] at h
      omega
    rw [List.drop_eq_getElem_cons hn, List.zipWith_cons_cons, mapFrom, ih (by rw [List.length_cons] at h; omega),
      itemAt_eq_getD, List.getD_eq_getElem _ _ hn]

theorem prioritiesWithDefaults_eq {l : List Nat} (h : l.length = 17) :
    prioritiesWithDefaults l = List.zipWith (fun v standard => if v = 0 then standard else v) l
      [3, 2, 3, 2, 2, 4, 1, 2, 1, 1, 1, 2, 2, 2, 1, 1, 3] :=
  mapFrom_itemAt orDefault 0 Config.priorities (by rw [h]; decide)

theorem defaultsApplied_withDefaults (m : Image) : DefaultsApplied m m.withDefaults where
  sections := rfl
  sources := rfl
  ports := rfl
  valves k := by
    rw [Image.withDefaults, lookup_mapTable]
    exact congrArg (fun f => (lookup k m.valves).map f) (funext ValveDef.withDefaults_eq)
  points k := lookup_mapTable k _ m.points
  lines k := lookup_mapTable k _ m.lines
  lamps k := by
    rw [Image.withDefaults, lookup_mapTable]
    exact congrArg (fun f => (lookup k m.lamps).map f) (funext LampDef.withDefaults_eq)
  parameters := rfl
  cadences k h1 h4 := by
    rw [Image.withDefaults, lookup_mapTable]
    exact congrArg (fun f => (lookup k m.cadences).map f) (funext fun d => CadenceDef.withDefaults_eq d h1 h4)
  priorities l hl h := by
    rw [Image.withDefaults, hl, Option.map_some, prioritiesWithDefaults_eq h]
  noPriorities h := by
    rw [Image.withDefaults, h, Option.map_none]

/-! ### The offending record (R3) -/

/-- What a judgement says of one kind: nothing of the kind breaks a constraint, or the record named does, and first. -/
structure Judges (m : Image) (kind : RecordKind) (j : Option Offender) : Prop where
  none : j = none → ∀ x : Offender, x.kind = kind → ¬ Breaks m x
  some : ∀ o, j = some o → o.kind = kind ∧ Breaks m o
    ∧ ∀ x : Offender, x.kind = kind → Breaks m x → x = o ∨ ExaminedBefore o x

/-- The records of a kind, in key order. -/
theorem judges_offenderIn {α : Type} {m : Image} {kind : RecordKind} {ok : Nat → α → Bool} {t : Table α}
    {OK : Nat → α → Prop} (hw : t.wf = true) (hok : ∀ k d, ok k d = true ↔ OK k d)
    (hbreaks : ∀ key, Breaks m { kind := kind, key := key } ↔ ∃ k d, key = .some k ∧ lookup k t = .some d ∧ ¬ OK k d) :
    Judges m kind (offenderIn kind ok t) where
  none h := by
    rintro ⟨_, key⟩ rfl hx
    obtain ⟨k, d, _, hd, hbad⟩ := (hbreaks key).1 hx
    exact hbad ((hok k d).1 ((offenderIn_eq_none _ ok t hw).1 h k d hd))
  some o h := by
    obtain ⟨k, d, rfl, hd, hbad, hfirst⟩ := (offenderIn_eq_some kind ok t hw o).1 h
    refine ⟨rfl, (hbreaks _).2 ⟨k, d, rfl, hd, fun hOK => ?_⟩, ?_⟩
    · rw [(hok k d).2 hOK] at hbad
      exact Bool.false_ne_true hbad.symm
    · rintro ⟨_, key⟩ rfl hx
      obtain ⟨j, e, rfl, he, hbad'⟩ := (hbreaks key).1 hx
      rcases Nat.lt_trichotomy j k with hjk | rfl | hjk
      · exact absurd ((hok j e).1 (hfirst j e hjk he)) hbad'
      · exact .inl rfl
      · exact .inr (.inr ⟨rfl, k, j, rfl, rfl, hjk⟩)

/-- A kind as a whole. -/
theorem judges_offenderIf {m : Image} {kind : RecordKind} {bad : Bool}
    (hbreaks : ∀ key, Breaks m { kind := kind, key := key } ↔ key = .none ∧ bad = true) :
    Judges m kind (offenderIf kind bad) where
  none h := by
    rintro ⟨_, key⟩ rfl hx
    obtain ⟨_, rfl⟩ := (hbreaks key).1 hx
    simp [offenderIf] at h
  some o h := by
    unfold offenderIf at h
    split at h
    · next hbad =>
      obtain rfl := Option.some.inj h
      refine ⟨rfl, (hbreaks _).2 ⟨rfl, hbad⟩, ?_⟩
      rintro ⟨_, key⟩ rfl hx
      exact .inl (by rw [((hbreaks key).1 hx).1])
    · simp at h

/-- The kinds of a list of judgements stand in the order of examination: the first that names a record names the first. -/
theorem firstOf_judges {m : Image} {l : List (RecordKind × Option Offender)}
    (horder : l.Pairwise (fun a b => recordKindCode a.1 < recordKindCode b.1)) (hl : ∀ a ∈ l, Judges m a.1 a.2) :
    (firstOf (l.map Prod.snd) = none → ∀ x : Offender, x.kind ∈ l.map Prod.fst → ¬ Breaks m x)
      ∧ ∀ o, firstOf (l.map Prod.snd) = some o → o.kind ∈ l.map Prod.fst ∧ Breaks m o
          ∧ ∀ x : Offender, x.kind ∈ l.map Prod.fst → Breaks m x → x = o ∨ ExaminedBefore o x := by
  induction l with
  | nil => simp [firstOf]
  | cons a t ih =>
    obtain ⟨kind, j⟩ := a
    obtain ⟨hbefore, htail⟩ := List.pairwise_cons.1 horder
    obtain ⟨ihnone, ihsome⟩ := ih htail fun b hb => hl b (List.mem_cons_of_mem _ hb)
    have hhead : Judges m kind j := hl _ (List.mem_cons_self ..)
    cases j with
    | none =>
      refine ⟨fun h x hx => ?_, fun o ho => ?_⟩
      · rcases List.mem_cons.1 hx with hx | hx
        · exact hhead.none rfl x hx
        · exact ihnone h x hx
      · obtain ⟨hkind, hbreaks, hfirst⟩ := ihsome o ho
        refine ⟨List.mem_cons_of_mem _ hkind, hbreaks, fun x hx hbx => ?_⟩
        rcases List.mem_cons.1 hx with hx | hx
        · exact absurd hbx (hhead.none rfl x hx)
        · exact hfirst x hx hbx
    | some y =>
      refine ⟨fun h => by simp [firstOf] at h, fun o ho => ?_⟩
      obtain rfl : y = o := Option.some.inj ho
      obtain ⟨hkind, hbreaks, hfirst⟩ := hhead.some y rfl
      refine ⟨hkind ▸ List.mem_cons_self .., hbreaks, fun x hx hbx => ?_⟩
      rcases List.mem_cons.1 hx with hx | hx
      · exact hfirst x hx hbx
      · obtain ⟨b, hb, hbx⟩ := List.mem_map.1 hx
        exact .inr (.inl (hkind ▸ hbx ▸ hbefore b hb))

theorem ExaminedBefore.asymm {x y : Offender} (h : ExaminedBefore x y) (h' : ExaminedBefore y x) : False := by
  rcases h with h | ⟨hkind, i, k, hi, hk, hik⟩ <;> rcases h' with h' | ⟨hkind', i', k', hi', hk', hik'⟩
  · omega
  · rw [hkind'] at h
    omega
  · rw [hkind] at h'
    omega
  · obtain rfl := Option.some.inj (hk.symm.trans hi')
    obtain rfl := Option.some.inj (hi.symm.trans hk')
    omega

/-! ### The judgement of each kind (R4 to R13) -/

section
variable {m : Image}

theorem judges_section (hm : m.Tabled) : Judges m .sect (offenderIn .sect (validSection m) m.sections) :=
  judges_offenderIn hm.sections (validSection_iff m) fun key => by cases key <;> simp [Breaks]

theorem judges_valve (hm : m.Tabled) : Judges m .valve (offenderIn .valve (validValve m) m.valves) :=
  judges_offenderIn hm.valves (fun k d => validValve_iff m k d hm.valves) fun key => by cases key <;> simp [Breaks]

theorem judges_point (hm : m.Tabled) : Judges m .point (offenderIn .point (validPoint m) m.points) :=
  judges_offenderIn hm.points (validPoint_iff m) fun key => by cases key <;> simp [Breaks]

theorem judges_line (hm : m.Tabled) : Judges m .line (offenderIn .line (validLine m) m.lines) :=
  judges_offenderIn hm.lines (fun k d => validLine_iff m k d hm.valves hm.sources) fun key => by
    cases key <;> simp [Breaks]

theorem judges_lamp (hm : m.Tabled) : Judges m .lamp (offenderIn .lamp (validLamp m) m.lamps) :=
  judges_offenderIn hm.lamps (validLamp_iff m) fun key => by cases key <;> simp [Breaks]

theorem judges_cadence (hm : m.Tabled) : Judges m .cadence (offenderIn .cadence validCadence m.cadences) :=
  judges_offenderIn hm.cadences validCadence_iff fun key => by cases key <;> simp [Breaks]

/-- An image without a source has no SOURCE record to judge (R7). -/
theorem judges_source (hm : m.Tabled) :
    Judges m .source (firstOf [offenderIf .source m.sources.isEmpty, offenderIn .source (validSource m) m.sources]) := by
  by_cases hempty : m.sources = []
  · have hif : Judges m .source (offenderIf .source m.sources.isEmpty) :=
      judges_offenderIf fun key => by cases key <;> simp [Breaks, hempty]
    simpa [hempty, offenderIf, firstOf] using hif
  · have hin : Judges m .source (offenderIn .source (validSource m) m.sources) :=
      judges_offenderIn hm.sources (fun k d => validSource_iff m k d hm.sources) fun key => by
        cases key <;> simp [Breaks, hempty]
    have hfirst : firstOf [offenderIf .source m.sources.isEmpty, offenderIn .source (validSource m) m.sources] =
        offenderIn .source (validSource m) m.sources := by
      cases hj : offenderIn .source (validSource m) m.sources <;> simp [offenderIf, hempty, firstOf]
    rwa [hfirst]

theorem judges_port (hm : m.Tabled) :
    Judges m .port (offenderIf .port (!m.ports.any (fun x => x.2.role == .switching))) :=
  judges_offenderIf fun key => by
    have hany : (!m.ports.any (fun x => x.2.role == .switching)) = true ↔
        ∀ k d, lookup k m.ports = some d → d.role ≠ .switching := by
      simp only [Bool.not_eq_true', List.any_eq_false, beq_iff_eq]
      exact ⟨fun h k d hd => h (k, d) (mem_of_lookup hd), fun h x hx => h x.1 x.2 (lookup_of_mem hm.ports hx)⟩
    cases key with
    | none => simpa [Breaks] using hany.symm
    | some k => simp [Breaks]

theorem judges_parameters : Judges m .parameters
    (offenderIf .parameters (!(m.parameters.map validParameters).getD true)) :=
  judges_offenderIf fun key => by
    cases key with
    | none =>
      cases hp : m.parameters with
      | none => simp [Breaks, hp]
      | some d => simp [Breaks, hp, ← validParameters_iff]
    | some k => simp [Breaks]

theorem judges_priorities : Judges m .priorities
    (offenderIf .priorities (!(m.priorities.map (fun l => l.all (within 1 4))).getD true)) :=
  judges_offenderIf fun key => by
    cases key with
    | none =>
      cases hp : m.priorities with
      | none => simp [Breaks, hp]
      | some l => simp [Breaks, hp, within]
    | some k => simp [Breaks]

/-- The judgements of an image, kind by kind in the order of Table 1-1. -/
def judgements (m : Image) : List (RecordKind × Option Offender) :=
  [(.sect, offenderIn .sect (validSection m) m.sections),
   (.valve, offenderIn .valve (validValve m) m.valves),
   (.source, firstOf [offenderIf .source m.sources.isEmpty, offenderIn .source (validSource m) m.sources]),
   (.point, offenderIn .point (validPoint m) m.points),
   (.line, offenderIn .line (validLine m) m.lines),
   (.lamp, offenderIn .lamp (validLamp m) m.lamps),
   (.port, offenderIf .port (!m.ports.any (fun x => x.2.role == .switching))),
   (.parameters, offenderIf .parameters (!(m.parameters.map validParameters).getD true)),
   (.cadence, offenderIn .cadence validCadence m.cadences),
   (.priorities, offenderIf .priorities (!(m.priorities.map (fun l => l.all (within 1 4))).getD true))]

theorem firstOf_cons (j : Option Offender) (t : List (Option Offender)) : firstOf (j :: t) = j.or (firstOf t) := by
  cases j <;> rfl

theorem offender_eq_firstOf (m : Image) : offender m = firstOf ((judgements m).map Prod.snd) := by
  simp only [offender, judgements, List.map_cons, List.map_nil, firstOf_cons, Option.or_assoc, firstOf, Option.or_none]

theorem mem_judgements (m : Image) (k : RecordKind) : k ∈ (judgements m).map Prod.fst := by
  cases k <;> simp [judgements]

theorem judgements_judge (hm : m.Tabled) : ∀ a ∈ judgements m, Judges m a.1 a.2 := by
  simp only [judgements, List.forall_mem_cons]
  exact ⟨judges_section hm, judges_valve hm, judges_source hm, judges_point hm, judges_line hm, judges_lamp hm,
    judges_port hm, judges_parameters, judges_cadence hm, judges_priorities, by simp⟩

theorem judgements_pairwise (m : Image) :
    (judgements m).Pairwise (fun a b => recordKindCode a.1 < recordKindCode b.1) := by
  simp [judgements, recordKindCode]

theorem offender_eq_none_iff (hm : m.Tabled) : offender m = none ↔ ∀ o, ¬ Breaks m o := by
  obtain ⟨hnone, hsome⟩ := firstOf_judges (judgements_pairwise m) (judgements_judge hm)
  rw [← offender_eq_firstOf] at hnone
  refine ⟨fun h o => hnone h o (mem_judgements m o.kind), fun h => ?_⟩
  cases ho : offender m with
  | none => rfl
  | some o => exact absurd (hsome o (offender_eq_firstOf m ▸ ho)).2.1 (h o)

/-- The offending record is the one that breaks a constraint before every other. -/
theorem offender_eq_some_iff (hm : m.Tabled) (o : Offender) :
    offender m = some o ↔ Breaks m o ∧ ∀ x, Breaks m x → x = o ∨ ExaminedBefore o x := by
  have hfirst {o : Offender} (ho : offender m = some o) :
      Breaks m o ∧ ∀ x, Breaks m x → x = o ∨ ExaminedBefore o x := by
    obtain ⟨_, hbreaks, hbefore⟩ :=
      (firstOf_judges (judgements_pairwise m) (judgements_judge hm)).2 o (offender_eq_firstOf m ▸ ho)
    exact ⟨hbreaks, fun x => hbefore x (mem_judgements m x.kind)⟩
  refine ⟨hfirst, fun ⟨hbreaks, hbefore⟩ => ?_⟩
  cases hj : offender m with
  | none => exact absurd hbreaks ((offender_eq_none_iff hm).1 hj o)
  | some y =>
    obtain ⟨hy, hybefore⟩ := hfirst hj
    rcases hbefore y hy with rfl | hoy
    · rfl
    · rcases hybefore o hbreaks with rfl | hyo
      · rfl
      · exact (hoy.asymm hyo).elim

end

/-- Settles O5: the session's requests by how each is answered, the defaults record by record, the offending record by
the judgement of each kind. -/
theorem configurationSessions : Obligations.ConfigurationSessions := by
  refine ⟨⟨fun s p tag hreset => ⟨?_, ?_, ?_⟩, fun s p tag x hreset hdevice hport => ⟨?_, ?_⟩⟩,
    fun s p tag body hreset hdevice hport => ⟨?_, ?_⟩, fun s p tag h => ⟨?_, ?_, ?_, ?_⟩, fun s h => ?_⟩
  · exact beginConfig_standby p tag hreset
  · intro hdevice hport
    have hheld := beginConfig_held (p := p) tag hreset hdevice hport
    rw [if_pos rfl] at hheld
    exact ⟨hheld, abandonConfig_holder tag hreset hdevice hport⟩
  · intro q hdevice hport hpq
    have hheld := beginConfig_held (p := p) tag hreset hdevice hport
    rw [if_neg hpq] at hheld
    exact ⟨hheld, refused_check rfl hreset (refusalOf_config_other hdevice hport hpq)⟩
  · exact fun hx => commitConfig_fails tag hreset hdevice hport (actCommitConfig_mismatch hdevice hx)
  · exact fun o ho => commitConfig_fails tag hreset hdevice hport (actCommitConfig_invalid hdevice ho)
  · exact fun l hl => loadRecords_whole tag hreset hdevice hport hl
  · exact fun n hn => loadRecords_refused tag hreset hdevice hport hn
  · exact session_refused_running rfl h (fun _ => rfl) fun u hu => by simp [actBeginConfig, hu]
  · exact fun body => session_refused_running rfl h (fun _ => rfl) fun u hu => by simp [actLoadRecords, hu]
  · exact fun x => session_refused_running rfl h (fun _ => rfl) fun u hu => by simp [actCommitConfig, hu]
  · exact session_refused_running rfl h (fun _ => rfl) fun u hu => by simp [actAbandonConfig, hu]
  · have hm := h.image.withDefaults
    exact ⟨defaultsApplied_withDefaults s.cfu.image, offender_eq_none_iff hm, offender_eq_some_iff hm⟩

end Sys2Proof.Machine
end

section
/-!
What one event can do to valve records, output lines and plan records, said once: a property of the network blocks that
only these bear on is kept by every step of an event, if it is kept by the writes listed in `FieldInvariant`. The valves
that may enter CLOSING are a parameter: only a check that passes and a PLAN_RETRY towards CLOSE send valves there
(R29, R70, R76).
-/

namespace Sys2Proof.Machine

/-! ### The engine writes its own fields -/

/-- Nothing but the engine's own fields differs. -/
def EngineOnly (a b : Net) : Prop :=
  b = { a with topology := b.topology, walkPending := b.walkPending, engine := b.engine, trials := b.trials }

theorem startWalk_engineOnly (n : Net) : EngineOnly n (startWalk n) := rfl

theorem startTrial_engineOnly (n : Net) : EngineOnly n (startTrial n) := by
  unfold startTrial
  split <;> rfl

theorem countChange_engineOnly (n : Net) : EngineOnly n (countChange n) := by
  unfold countChange
  dsimp only
  split <;> rfl

theorem queueTrial_engineOnly {t : TrialEntry} {n n' : Net} (h : queueTrial t n = some n') : EngineOnly n n' := by
  unfold queueTrial at h
  split at h
  · cases h
  · obtain rfl := Option.some.inj h
    split
    · exact startTrial_engineOnly { n with trials := n.trials ++ [t] }
    · rfl

theorem grantAfterWalk_engineOnly (n : Net) : EngineOnly n (grantAfterWalk n) := by
  unfold grantAfterWalk
  dsimp only
  split
  · split <;> rfl
  · exact startTrial_engineOnly { n with engine := .idle }

theorem grantAfterTrial_engineOnly (n : Net) : EngineOnly n (grantAfterTrial n) := by
  unfold grantAfterTrial
  dsimp only
  split
  · rfl
  · split
    · rfl
    · exact startTrial_engineOnly { n with engine := .idle }

namespace EngineOnly

variable {a b : Net}

theorem valves (h : EngineOnly a b) : b.valves = a.valves := (congrArg Net.valves h :)

theorem outputs (h : EngineOnly a b) : b.outputs = a.outputs := (congrArg Net.outputs h :)

theorem plans (h : EngineOnly a b) : b.plans = a.plans := (congrArg Net.plans h :)

theorem outages (h : EngineOnly a b) : b.outages = a.outages := (congrArg Net.outages h :)

end EngineOnly

/-! ### The invariants of the field -/

/-- What a plan record says of its valves: the list, and the state and direction of its orders. -/
def Plan.orders (x : Plan) : List Nat × PlanState × Direction := (x.valves, x.state, x.direction)

/-- Two plan tables that agree on what they say of the valves. -/
def SameOrders (a b : Table Plan) : Prop := ∀ k, (lookup k b).map Plan.orders = (lookup k a).map Plan.orders

theorem SameOrders.adjust {slot : Nat} {f : Plan → Plan} (hf : ∀ x, (f x).orders = x.orders) (l : Table Plan) :
    SameOrders l (adjust slot f l) := by
  intro k
  rw [lookup_adjust]
  split
  · cases lookup k l <;> simp [hf]
  · rfl

theorem SameOrders.mapTable {f : Nat → Plan → Plan} (hf : ∀ k x, (f k x).orders = x.orders) (l : Table Plan) :
    SameOrders l (mapTable f l) := by
  intro k
  rw [lookup_mapTable]
  cases lookup k l <;> simp [hf]

/-- The plan's direction is that of its state (R72 to R78). -/
def Plan.Directed (x : Plan) : Prop :=
  (x.state = .executing ∨ x.state = .isolated → x.direction = .closes)
    ∧ (x.state = .restoring ∨ x.state = .restored → x.direction = .opens) ∧ (x.state = .held → x.direction ≠ .unset)

/-- A change of one plan record keeps the list of its valves, and the direction of its state. -/
def KeepsDirection (slot : Nat) (f : Plan → Plan) (l : Table Plan) : Prop :=
  ∀ x, lookup slot l = some x → (f x).valves = x.valves ∧ (x.Directed → (f x).Directed)

/-- A property of valve records, output lines and plans' orders, where the valves of `may` may enter CLOSING: it is kept
by every write of another field, by turns of a plan that keep its direction with its state, and by placing a valve. -/
structure FieldInvariant (m : Image) (may : Nat → Prop) (P : Net → Prop) : Prop where
  frame : ∀ n n', n'.valves = n.valves → n'.outputs = n.outputs → n'.plans = n.plans → P n → P n'
  quiet : ∀ n x, SameOrders n.plans x → P n → P { n with plans := x }
  fields : ∀ n v f, (∀ x : Valve, (f x).position = x.position ∧ (f x).claim = x.claim) → P n →
    P { n with valves := adjust v f n.valves }
  place : ∀ n v d pos k, lookup v m.valves = some d → (pos = .closing → may v) → P n → P (placeValve d v pos k n)
  turn : ∀ n slot f, KeepsDirection slot f n.plans → P n → P { n with plans := adjust slot f n.plans }

/-- The event runs in an image, and its network has an invariant of the field. -/
structure Event.Under (m : Image) (may : Nat → Prop) (P : Net → Prop) (e : Event) : Prop where
  closed : FieldInvariant m may P
  image : e.image = m
  net : P e.net

/-- No step of an event changes the image it runs in. -/
theorem imageClosed (m : Image) : EventClosed (fun e => e.image = m) where
  setNet _ _ h := h
  choices _ _ h := h
  report _ _ _ _ _ h := h
  post _ _ _ _ h := h
  markPlan _ _ _ _ _ _ h := h
  markReleased _ _ _ h := h
  markOutage n e h := by unfold Event.markOutage; split <;> exact h
  markClosed _ _ _ h := h
  markCall n e h := by unfold Event.markCall; split <;> exact h
  markFreed _ _ _ h := h

theorem FieldInvariant.engine {m : Image} {may : Nat → Prop} {P : Net → Prop} (hc : FieldInvariant m may P) {n n' : Net}
    (h : EngineOnly n n') (hn : P n) : P n' := hc.frame n n' h.valves h.outputs h.plans hn

theorem FieldInvariant.writeReasons {m : Image} {may : Nat → Prop} {P : Net → Prop} (hc : FieldInvariant m may P)
    {l : List PlanMark} {n : Net} (h : P n) : P (writeReasons l n) := by
  induction l generalizing n with
  | nil => exact h
  | cons x t ih =>
    refine ih ?_
    split
    · exact hc.quiet n _ (SameOrders.adjust (f := fun p => { p with lastReason := x.reason }) (fun _ => rfl) _) h
    · exact h

/-! ### The execute check (R69) -/

theorem isEmpty_iff (r : Consequence) : isEmpty r = true ↔ r.sections = [] ∧ r.overflow = false := by
  simp [isEmpty]

theorem priorityMet_iff (x : Plan) (r : Consequence) :
    priorityMet x r = true ↔ r.priority = 0 ∨ x.accepted = true := by
  simp [priorityMet]

theorem mem_linkedMembers (x : Plan) (n : Net) (k : Nat) :
    k ∈ linkedMembers x n ↔ ∃ j o, x.outage = some j ∧ outageAt j n = some o ∧ k ∈ memberSections o := by
  unfold linkedMembers
  cases hx : x.outage with
  | none => simp
  | some j => cases ho : outageAt j n <;> simp [ho]

theorem withinOutage_iff (x : Plan) (r : Consequence) (n : Net) :
    withinOutage x r n = true ↔ r.overflow = false ∧ ∀ k ∈ r.sections, k ∈ linkedMembers x n := by
  simp [withinOutage]

theorem passesCheck_of_within {x : Plan} {r : Consequence} {n : Net} (h : withinOutage x r n = true)
    (hmet : r.priority = 0 ∨ x.accepted = true) : PassesCheck n x r := by
  obtain ⟨hoverflow, hcovered⟩ := (withinOutage_iff x r n).1 h
  exact .inr ⟨hoverflow, fun k hk => (mem_linkedMembers x n k).1 (hcovered k hk), hmet⟩

/-- The check reads nothing of the network but the outages. -/
theorem PassesCheck.congr {a b : Net} {x : Plan} {r : Consequence} (h : PassesCheck a x r)
    (ho : b.outages = a.outages) : PassesCheck b x r := by
  have hat (k : Nat) : outageAt k b = outageAt k a := by simp only [outageAt, ho]
  unfold PassesCheck at h ⊢
  simpa only [hat] using h

/-! ### Where orders and limits take a valve -/

theorem endOf_ne_closing (dir : Direction) : endOf dir ≠ .closing := by cases dir <;> decide

theorem travelOf_closing {dir : Direction} (h : travelOf dir = .closing) : dir = .closes := by
  cases dir <;> simp_all [travelOf]

theorem shownBy_ne_closing (pair : Bool × Bool) : (shownBy pair).getD .unknown ≠ .closing := by
  obtain ⟨c, o⟩ := pair
  cases c <;> cases o <;> decide

namespace Event.Under

variable {m : Image} {may : Nat → Prop} {P : Net → Prop} {e : Event}

/-! ### Reports, notices and marks, and writes that no valve, output or order is in -/

theorem report {b : Block} {k : ReportKind} {c : CondKind} {i : Nat} (h : e.Under m may P) :
    (e.report b k c i).Under m may P := ⟨h.closed, h.image, h.net⟩

theorem signal {b : Block} {a : Bool} {c : CondKind} {i : Nat} (h : e.Under m may P) :
    (e.signal b a c i).Under m may P := ⟨h.closed, h.image, h.net⟩

theorem post {b : Block} {y : NoticeBody} {l : List PortId} (h : e.Under m may P) : (e.post b y l).Under m may P :=
  ⟨h.closed, h.image, h.net⟩

theorem setChoices {c : Nat} (h : e.Under m may P) : Event.Under m may P { e with choices := c } :=
  ⟨h.closed, h.image, h.net⟩

theorem markOutage {n : Nat} (h : e.Under m may P) : (e.markOutage n).Under m may P :=
  ⟨h.closed, (imageClosed m).markOutage n e h.image, Event.markOutage_keeps n e h.net⟩

theorem markClosed {n k : Nat} (h : e.Under m may P) : (e.markClosed n k).Under m may P := ⟨h.closed, h.image, h.net⟩

theorem markCall {n : Nat} (h : e.Under m may P) : (e.markCall n).Under m may P :=
  ⟨h.closed, (imageClosed m).markCall n e h.image, Event.markCall_keeps n e h.net⟩

theorem markFreed {c : Call} {d : CallEnd} (h : e.Under m may P) : (e.markFreed c d).Under m may P :=
  ⟨h.closed, h.image, h.net⟩

/-- A write of fields other than valve records, output lines and plan records. -/
theorem other {n : Net} (h : e.Under m may P) (hv : n.valves = e.net.valves := by rfl)
    (ho : n.outputs = e.net.outputs := by rfl) (hp : n.plans = e.net.plans := by rfl) : (e.setNet n).Under m may P :=
  ⟨h.closed, h.image, h.closed.frame _ _ hv ho hp h.net⟩

theorem engine {n : Net} (h : e.Under m may P) (hn : EngineOnly e.net n) : (e.setNet n).Under m may P :=
  h.other hn.valves hn.outputs hn.plans

theorem changed (h : e.Under m may P) : e.changed.Under m may P := h.engine (countChange_engineOnly e.net)

/-! ### Source Monitor -/

theorem source {k : Nat} {f : Source → Source} (h : e.Under m may P) : (e.source k f).Under m may P := by
  unfold Event.source
  dsimp only
  split
  · exact h
  · have hput (y : Source) : (e.setNet { e.net with sources := put k y e.net.sources }).Under m may P := h.other
    split
    · exact hput _
    · exact (hput _).changed

theorem trip {k : Nat} {a : Bool} (h : e.Under m may P) : (e.trip k a).Under m may P := by
  unfold Event.trip
  split
  · exact h
  · split
    · exact h
    · exact h.source.signal

theorem outlet {p : Nat} {low : Bool} (h : e.Under m may P) : (e.outlet p low).Under m may P := by
  unfold Event.outlet
  split
  · exact h
  · exact h.source

/-! ### Plan Table: fields of a plan that are no orders -/

theorem planQuietly {slot : Nat} {f : Plan → Plan} (h : e.Under m may P)
    (hf : ∀ x, (f x).orders = x.orders := by intro _; rfl) : (e.planQuietly slot f).Under m may P :=
  ⟨h.closed, h.image, h.closed.quiet _ _ (SameOrders.adjust hf _) h.net⟩

theorem planFields {slot : Nat} {r : Reason} {pin : Bool} {f : Plan → Plan} (h : e.Under m may P)
    (hf : ∀ x, (f x).orders = x.orders := by intro _; rfl) : (e.plan slot r pin f).Under m may P :=
  ⟨h.closed, h.image, h.closed.quiet _ _ (SameOrders.adjust hf _) h.net⟩

theorem forgetCall {n : Nat} (h : e.Under m may P) : (e.forgetCall n).Under m may P :=
  ⟨h.closed, h.image, h.closed.quiet _ _ (SameOrders.mapTable (fun _ x => by split <;> rfl) _) h.net⟩

theorem unlinkPlan {slot : Nat} (h : e.Under m may P) : (e.unlinkPlan slot).Under m may P := h.planFields

/-! ### Plan Table: turns of a plan -/

theorem plan {slot : Nat} {r : Reason} {pin : Bool} {f : Plan → Plan} (hf : KeepsDirection slot f e.net.plans)
    (h : e.Under m may P) : (e.plan slot r pin f).Under m may P :=
  ⟨h.closed, h.image, h.closed.turn _ _ _ hf h.net⟩

/-- A plan enters a state that has no direction. -/
theorem planIdle {slot : Nat} {r : Reason} {pin : Bool} {f : Plan → Plan} (h : e.Under m may P)
    (hvalves : ∀ x, (f x).valves = x.valves := by intro _; rfl) (hf : ∀ x, (f x).Directed := by simp [Plan.Directed]) :
    (e.plan slot r pin f).Under m may P := h.plan fun x _ => ⟨hvalves x, fun _ => hf x⟩

theorem movingReport {slot : Nat} {p : Plan} {d : Direction} {moved : Option Position} {outcome : Option Ending}
    (hd : d ≠ .unset) (hstate : p.state = movingState d) (hp : lookup slot e.net.plans = some p) (h : e.Under m may P) :
    (e.movingReport slot p d moved outcome).Under m may P := by
  unfold Event.movingReport
  split
  · exact h.plan fun _ _ => ⟨rfl, fun _ => by simp [Plan.Directed, hd]⟩
  · split
    · refine h.plan fun x hx => ⟨rfl, fun ⟨hcloses, hopens, _⟩ => ?_⟩
      obtain rfl := Option.some.inj (hp.symm.trans hx)
      cases d with
      | unset => exact absurd rfl hd
      | closes => simp [Plan.Directed, settledState, hcloses (.inl hstate)]
      | opens => simp [Plan.Directed, settledState, hopens (.inl hstate)]
    · exact h

theorem settledReport {slot : Nat} {d : Direction} {moved : Option Position} (hd : d ≠ .unset) (h : e.Under m may P) :
    (e.settledReport slot d moved).Under m may P := by
  cases moved with
  | none => exact h
  | some y => exact h.plan fun _ _ => ⟨rfl, fun _ => by simp [Plan.Directed, hd]⟩

/-- A plan settles at the end of its own direction. -/
theorem settle {slot : Nat} {p : Plan} {r : Reason} {pin : Bool} (hp : lookup slot e.net.plans = some p)
    (hd : p.direction ≠ .unset) (h : e.Under m may P) :
    (e.plan slot r pin fun q => { q with state := settledState p.direction }).Under m may P := by
  refine h.plan fun x hx => ⟨rfl, fun _ => ?_⟩
  obtain rfl := Option.some.inj (hp.symm.trans hx)
  cases hdir : p.direction with
  | unset => exact absurd hdir hd
  | closes => simp [Plan.Directed, settledState]
  | opens => simp [Plan.Directed, settledState]

theorem heldReport {slot : Nat} {p : Plan} (hp : lookup slot e.net.plans = some p) (h : e.Under m may P) :
    (e.heldReport slot p).Under m may P := by
  unfold Event.heldReport
  split
  · next hcond => exact h.settle hp hcond.1
  · exact h

theorem planReport {slot : Nat} {moved : Option Position} {outcome : Option Ending} (h : e.Under m may P) :
    (e.planReport slot moved outcome).Under m may P := by
  unfold Event.planReport
  split
  · exact h
  · next p hp =>
    split
    · next hstate => exact h.movingReport (by decide) hstate hp
    · next hstate => exact h.movingReport (by decide) hstate hp
    · exact h.settledReport (by decide)
    · exact h.settledReport (by decide)
    · exact h.heldReport hp
    all_goals exact h

theorem settleIfAll {slot : Nat} {r : Reason} (h : e.Under m may P) : (e.settleIfAll slot r).Under m may P := by
  unfold Event.settleIfAll
  split
  · exact h
  · next p hp =>
    split
    · next hcond => exact h.settle hp hcond.2.1
    · exact h

theorem claimReport {claim : Option Nat} {moved : Option Position} {outcome : Option Ending} (h : e.Under m may P) :
    (e.claimReport claim moved outcome).Under m may P := by
  cases claim with
  | none => exact h
  | some k => exact h.planReport

/-! ### Writes of a valve's other fields -/

theorem fields {v : Nat} {f : Valve → Valve} (h : e.Under m may P)
    (hf : ∀ x, (f x).position = x.position ∧ (f x).claim = x.claim := by exact fun _ => ⟨rfl, rfl⟩) :
    (e.setNet { e.net with valves := adjust v f e.net.valves }).Under m may P :=
  ⟨h.closed, h.image, h.closed.fields _ v f hf h.net⟩

theorem setStuck {v : Nat} {b : Bool} (h : e.Under m may P) :
    (e.setStuck v b).Under m may P := by
  unfold Event.setStuck
  split
  · exact h
  · split
    · exact h
    · exact (h.fields).signal

theorem setUncommanded {v : Nat} {b : Bool} (h : e.Under m may P) :
    (e.setUncommanded v b).Under m may P := by
  unfold Event.setUncommanded
  split
  · exact h
  · split
    · exact h
    · exact (h.fields).signal

theorem setConflict {v : Nat} {b : Bool} (h : e.Under m may P) :
    (e.setConflict v b).Under m may P := by
  unfold Event.setConflict
  split
  · exact h
  · split
    · exact h
    · exact (h.fields).signal

theorem stuckFollows {v : Nat} {x : Position} (h : e.Under m may P) :
    (e.stuckFollows v x).Under m may P := by
  cases x
  case stuck => exact h.setStuck
  case opened => exact h.setStuck
  case closed => exact h.setStuck
  case closing => exact h
  case opening => exact h
  case unknown => exact h

/-! ### Movements -/

/-- A valve takes a position; CLOSING only where the valve may enter it. -/
theorem moveValve {v : Nat} {pos : Position} {k : Nat} {outcome : Option Ending}
    (hpos : pos = .closing → may v) (h : e.Under m may P) : (e.moveValve v pos k outcome).Under m may P := by
  unfold Event.moveValve
  split
  · next x d hx hd =>
    have hplaced : (e.setNet (placeValve d v pos k e.net)).Under m may P :=
      ⟨h.closed, h.image, h.closed.place _ v d pos k (h.image ▸ hd) hpos h.net⟩
    dsimp only
    split
    · split
      · exact hplaced
      · exact hplaced.claimReport
    · exact (((hplaced.stuckFollows).changed).post).claimReport
  · exact h

/-- A movement to a position other than CLOSING. -/
theorem moveElsewhere {v : Nat} {pos : Position} {k : Nat} {outcome : Option Ending}
    (hpos : pos ≠ .closing) (h : e.Under m may P) : (e.moveValve v pos k outcome).Under m may P :=
  h.moveValve fun hp => absurd hp hpos

theorem order {dir : Direction} {v : Nat} (hdir : dir = .closes → may v)
    (h : e.Under m may P) : (e.order dir v).Under m may P := by
  have htravel : travelOf dir = .closing → may v := fun ht => hdir (travelOf_closing ht)
  unfold Event.order
  split
  · have hclear := h.setUncommanded (v := v) (b := false)
    split
    · unfold Event.orderManual
      split
      · exact hclear.claimReport
      · split
        · exact hclear
        · exact hclear.moveValve htravel
    · unfold Event.orderActuated
      split
      · exact hclear.moveElsewhere (endOf_ne_closing dir)
      · split
        · exact hclear
        · exact hclear.moveValve htravel
  · exact h

theorem orders {dir : Direction} {l : List Nat} (hdir : dir = .closes → ∀ v ∈ l, may v)
    (h : e.Under m may P) : (Event.orders dir l e).Under m may P := by
  induction l generalizing e with
  | nil => exact h
  | cons v t ih =>
    exact ih (fun hd w hw => hdir hd w (List.mem_cons_of_mem _ hw))
      (h.order fun hd => hdir hd v (List.mem_cons_self ..))

theorem orderPending {dir : Direction} {l : List Nat}
    (hdir : dir = .closes → ∀ v ∈ l, may v) (h : e.Under m may P) : (Event.orderPending dir l e).Under m may P := by
  induction l generalizing e with
  | nil => exact h
  | cons v t ih =>
    refine ih (fun hd w hw => hdir hd w (List.mem_cons_of_mem _ hw)) ?_
    split
    · exact h
    · exact h.order fun hd => hdir hd v (List.mem_cons_self ..)

theorem abort {v : Nat} (h : e.Under m may P) : (e.abort v).Under m may P := by
  unfold Event.abort
  split
  · split
    · exact h.moveElsewhere (shownBy_ne_closing _)
    · exact h
  · exact h

theorem aborts {l : List Nat} (h : e.Under m may P) : (Event.aborts l e).Under m may P := by
  induction l generalizing e with
  | nil => exact h
  | cons v t ih => exact ih (h.abort)

theorem restReport {v : Nat} {x : Valve} {pair : Bool × Bool} (h : e.Under m may P) :
    (e.restReport v x (shownBy pair)).Under m may P := by
  have hraised := h.setUncommanded (v := v) (b := true)
  have hshown {y : Position} (hy : shownBy pair = some y) : y ≠ .closing := by
    have := shownBy_ne_closing pair
    rwa [hy] at this
  unfold Event.restReport
  split
  · exact hraised.moveElsewhere (by decide)
  · exact hraised.moveElsewhere (by decide)
  · exact hraised.moveElsewhere (by decide)
  · exact hraised.moveElsewhere (by decide)
  · next hy => exact h.moveElsewhere (hshown hy)
  · next hy => exact h.moveElsewhere (hshown hy)
  · exact h

theorem limitReport {v : Nat} (h : e.Under m may P) : (e.limitReport v).Under m may P := by
  unfold Event.limitReport
  split
  · dsimp only
    split
    · exact (h.setConflict).moveElsewhere (by decide)
    · split
      · exact (h.setConflict).moveElsewhere (shownBy_ne_closing _)
      · split
        · split
          · exact h.moveElsewhere (by decide)
          · exact h
        · split
          · exact h.moveElsewhere (by decide)
          · exact h
        · exact h.restReport
        · exact h.restReport
        · exact h.restReport
        · exact h.restReport
  · exact h

theorem limitReports {l : List Nat} (h : e.Under m may P) :
    (Event.limitReports l e).Under m may P := by
  induction l generalizing e with
  | nil => exact h
  | cons v t ih => exact ih (h.limitReport)

theorem travelExpiry {v : Nat} (h : e.Under m may P) : (e.travelExpiry v).Under m may P := by
  unfold Event.travelExpiry
  split
  · exact h
  · split
    · exact h.moveElsewhere (by decide)
    · exact h

theorem travelTick {v : Nat} (h : e.Under m may P) : (e.travelTick v).Under m may P := by
  unfold Event.travelTick
  split
  · exact h
  · split
    · exact (h.fields).travelExpiry
    · exact h

theorem travelTicks {l : List Nat} (h : e.Under m may P) :
    (Event.travelTicks l e).Under m may P := by
  induction l generalizing e with
  | nil => exact h
  | cons v t ih => exact ih (h.travelTick)

theorem verify {v : Nat} {x : Position} (hx : x ≠ .closing) (h : e.Under m may P) :
    (e.verify v x).Under m may P := ((h.setStuck).setUncommanded).moveElsewhere hx

/-! ### Call Register -/

theorem callQuietly {n : Nat} {f : Call → Call} (h : e.Under m may P) :
    (e.callQuietly n f).Under m may P := h.other

theorem call {n : Nat} {f : Call → Call} (h : e.Under m may P) :
    (e.call n f).Under m may P := h.callQuietly.markCall

theorem sectFields {k : Nat} {f : Sect → Sect} (h : e.Under m may P) : (e.sectFields k f).Under m may P := h.other

theorem expire {n : Nat} {st : Stage} (h : e.Under m may P) : (e.expire n st).Under m may P := by
  unfold Event.expire
  split
  · exact h
  · exact h.callQuietly.report.post

theorem realarmed {n : Nat} {st : Stage} (h : e.Under m may P) : (e.realarmed n st).Under m may P := by
  unfold Event.realarmed
  split
  · exact h
  · exact h.callQuietly.report.post

theorem expireIfDue {n : Nat} (h : e.Under m may P) : (e.expireIfDue n).Under m may P := by
  unfold Event.expireIfDue
  split
  · exact h
  · split
    · exact h
    · split
      · exact h.expire
      · exact h

theorem realarmIfDue {n : Nat} (h : e.Under m may P) : (e.realarmIfDue n).Under m may P := by
  unfold Event.realarmIfDue
  split
  · exact h
  · split
    · exact h
    · split
      · exact h.realarmed
      · exact h

theorem callTick {n : Nat} (h : e.Under m may P) : (e.callTick n).Under m may P := by
  unfold Event.callTick
  split
  · exact h
  · split
    · split
      · exact h.callQuietly.realarmIfDue
      · split
        · exact h.callQuietly
        · exact h.callQuietly.expireIfDue
    · exact h

theorem callTicks {l : List Nat} (h : e.Under m may P) : (Event.callTicks l e).Under m may P := by
  induction l generalizing e with
  | nil => exact h
  | cons n t ih => exact ih h.callTick

theorem upgrade {g n : Nat} (h : e.Under m may P) : (e.upgrade g n).Under m may P := by
  unfold Event.upgrade
  split
  · exact h
  · split
    · exact h.call.expireIfDue
    · exact h

theorem upgrades {g : Nat} {l : List Nat} (h : e.Under m may P) : (Event.upgrades g l e).Under m may P := by
  induction l generalizing e with
  | nil => exact h
  | cons n t ih => exact ih h.upgrade

theorem fallOnset {k : Nat} (h : e.Under m may P) : (e.fallOnset k).Under m may P := h.upgrades

theorem setCluster {k : Nat} {b : Bool} (h : e.Under m may P) : (e.setCluster k b).Under m may P := by
  unfold Event.setCluster
  split
  · exact h
  · split
    · exact h
    · exact h.sectFields.signal

theorem setSuspected {k : Nat} {b : Bool} (h : e.Under m may P) : (e.setSuspected k b).Under m may P := by
  unfold Event.setSuspected
  split
  · exact h
  · split
    · exact h
    · exact h.sectFields.signal

theorem odourJoins {k n : Nat} (h : e.Under m may P) : (e.odourJoins k n).Under m may P := by
  unfold Event.odourJoins
  dsimp only
  split
  · exact h
  · split
    · exact h.sectFields
    · split
      · exact h.sectFields.setCluster.upgrades
      · exact h.sectFields.upgrade

theorem odourLeaves {k : Nat} (h : e.Under m may P) : (e.odourLeaves k).Under m may P := by
  unfold Event.odourLeaves
  dsimp only
  split
  · exact h
  · split
    · exact h.sectFields.setCluster
    · exact h.sectFields

theorem noGasCount {k : Nat} {f : Nat → Nat} (h : e.Under m may P) : (e.noGasCount k f).Under m may P := by
  unfold Event.noGasCount
  split
  · exact h
  · exact h.sectFields.setSuspected

theorem countLink {o : Nat} {f : Nat → Nat} (h : e.Under m may P) : (e.countLink o f).Under m may P := h.other

theorem clearOverdue {c : Call} (h : e.Under m may P) : (e.clearOverdue c).Under m may P := by
  unfold Event.clearOverdue
  dsimp only
  split <;> split
  · exact h.report.report
  · exact h.report
  · exact h.report
  · exact h

theorem link {o n : Nat} {isNew : Bool} (h : e.Under m may P) : (e.link o isNew n).Under m may P := by
  unfold Event.link
  dsimp only
  split
  · exact h
  · next c _ =>
    have hcall : (e.call n (fun y => stopTiming { y with outage := some o })).Under m may P :=
      h.call
    split
    · exact hcall.clearOverdue.countLink
    · exact hcall.noGasCount.clearOverdue.countLink

theorem links {o : Nat} {l : List Nat} (h : e.Under m may P) : (Event.links o l e).Under m may P := by
  induction l generalizing e with
  | nil => exact h
  | cons n t ih => exact ih h.link

theorem linkSection {o k : Nat} (h : e.Under m may P) : (e.linkSection o k).Under m may P := h.links

theorem unlink {o n : Nat} (h : e.Under m may P) : (e.unlink o n).Under m may P := by
  unfold Event.unlink
  split
  · exact h
  · exact h.call.noGasCount.countLink.expireIfDue

theorem unlinks {o : Nat} {l : List Nat} (h : e.Under m may P) : (Event.unlinks o l e).Under m may P := by
  induction l generalizing e with
  | nil => exact h
  | cons n t ih => exact ih h.unlink

theorem unlinkSection {o k : Nat} (h : e.Under m may P) : (e.unlinkSection o k).Under m may P := h.unlinks

theorem dropCall {n : Nat} (h : e.Under m may P) : (e.dropCall n).Under m may P := h.other

theorem freeCall {how : CallEnd} {byRequest : Bool} {n : Nat} (h : e.Under m may P) :
    (e.freeCall how byRequest n).Under m may P := by
  unfold Event.freeCall
  dsimp only
  split
  · exact h
  · next c _ =>
    have hdrop : ((e.clearOverdue c).dropCall n).Under m may P := h.clearOverdue.dropCall
    split
    · exact hdrop.odourLeaves.forgetCall.markFreed
    · exact hdrop.noGasCount.forgetCall.markFreed
    · split
      · exact hdrop.countLink.forgetCall.markFreed
      · exact hdrop.forgetCall.markFreed

theorem completeCalls {l : List Nat} (h : e.Under m may P) : (Event.completeCalls l e).Under m may P := by
  induction l generalizing e with
  | nil => exact h
  | cons n t ih => exact ih h.freeCall

theorem enterCall {c : Call} (h : e.Under m may P) : (e.enterCall c).Under m may P := by
  unfold Event.enterCall
  split
  · exact h.odourJoins
  · split
    · exact h.link
    · exact h.noGasCount

theorem newCall {idx : Nat} {c : Call} (h : e.Under m may P) : (e.newCall idx c).Under m may P := by
  have hput : (e.setNet { e.net with calls := put idx c e.net.calls, lastCall := c.number }).Under m may P := h.other
  exact hput.markCall.enterCall.expireIfDue

theorem regrade {n g : Nat} {c : Call} (h : e.Under m may P) : (e.regrade n g c).Under m may P := by
  unfold Event.regrade
  split
  · exact h.upgrade
  · split
    · split
      · exact h
      · exact h.call
    · split
      · exact h.call
      · split
        · exact h
        · exact h.call

/-! ### Pressure Supervisor -/

theorem point {n : Nat} {f : Point → Point} (h : e.Under m may P) : (e.point n f).Under m may P := h.other

theorem relistOne {n : Nat} {k : CondKind} (h : e.Under m may P) : (e.relistOne n k).Under m may P := by
  unfold Event.relistOne
  split
  · exact h
  · split
    · exact h
    · exact h.point.signal

theorem relistAll {n : Nat} {l : List CondKind} (h : e.Under m may P) : (Event.relistAll n l e).Under m may P := by
  induction l generalizing e with
  | nil => exact h
  | cons k t ih => exact ih h.relistOne

theorem relist {n : Nat} (h : e.Under m may P) : (e.relist n).Under m may P := h.relistAll

theorem suppressPoint {b : Bool} {n : Nat} (h : e.Under m may P) : (e.suppressPoint b n).Under m may P := by
  unfold Event.suppressPoint
  dsimp only
  split
  · split
    · exact h
    · split
      · exact h.point.relist.fallOnset
      · exact h.point.relist
  · exact h

theorem suppressPoints {b : Bool} {l : List Nat} (h : e.Under m may P) :
    (Event.suppressPoints b l e).Under m may P := by
  induction l generalizing e with
  | nil => exact h
  | cons n t ih => exact ih h.suppressPoint

theorem suppress {k : Nat} {b : Bool} (h : e.Under m may P) : (e.suppress k b).Under m may P := h.suppressPoints

theorem suppressAll {b : Bool} {l : List Nat} (h : e.Under m may P) :
    (e.suppressAll b l).Under m may P := h.suppressPoints

/-! ### Outage Table -/

theorem outageQuietly {n : Nat} {f : Outage → Outage} (h : e.Under m may P) :
    (e.outageQuietly n f).Under m may P := h.other

theorem outage {n : Nat} {f : Outage → Outage} (h : e.Under m may P) :
    (e.outage n f).Under m may P := h.outageQuietly.markOutage

theorem setUnrecorded {k : Nat} {b : Bool} (h : e.Under m may P) : (e.setUnrecorded k b).Under m may P := by
  unfold Event.setUnrecorded
  split
  · exact h
  · split
    · exact h
    · exact h.sectFields.signal

theorem stopAwaiting {k : Nat} (h : e.Under m may P) : (e.stopAwaiting k).Under m may P := by
  unfold Event.stopAwaiting
  split
  · exact h
  · split
    · exact h.sectFields.setUnrecorded
    · exact h

theorem startAwaiting {k : Nat} (h : e.Under m may P) : (e.startAwaiting k).Under m may P := h.sectFields

theorem join {n k : Nat} (h : e.Under m may P) : (e.join n k).Under m may P := by
  unfold Event.join
  dsimp only
  split
  · exact h
  · have hjoin : (((e.outage n (joined e.image k)).stopAwaiting k).linkSection n k).Under m may P :=
      h.outage.stopAwaiting.linkSection
    split
    · exact hjoin.suppress
    · exact hjoin

theorem leave {n k : Nat} (h : e.Under m may P) : (e.leave n k).Under m may P := by
  unfold Event.leave
  dsimp only
  split
  · exact h
  · have hleft : (e.outage n (left e.image k)).Under m may P := h.outage
    have hunlink : ((if supplyAt e.net k = .unsupplied then (e.outage n (left e.image k)).startAwaiting k
        else e.outage n (left e.image k)).unlinkSection n k).Under m may P := by
      split
      · exact hleft.startAwaiting.unlinkSection
      · exact hleft.unlinkSection
    split
    · exact hunlink.suppress
    · exact hunlink

theorem joins {n : Nat} {l : List Nat} (h : e.Under m may P) : (Event.joins n l e).Under m may P := by
  induction l generalizing e with
  | nil => exact h
  | cons k t ih => exact ih h.join

theorem leaves {n : Nat} {l : List Nat} (h : e.Under m may P) : (Event.leaves n l e).Under m may P := by
  induction l generalizing e with
  | nil => exact h
  | cons k t ih => exact ih h.leave

theorem ruleDeclared {n : Nat} (h : e.Under m may P) : (e.ruleDeclared n).Under m may P := by
  unfold Event.ruleDeclared
  split
  · exact h
  · split
    · exact h.outage.suppressAll
    · exact h

theorem ruleActive {n : Nat} (h : e.Under m may P) : (e.ruleActive n).Under m may P := by
  unfold Event.ruleActive
  split
  · exact h
  · split
    · exact h.outage
    · exact h

theorem ruleRecharging {n : Nat} (h : e.Under m may P) : (e.ruleRecharging n).Under m may P := by
  unfold Event.ruleRecharging
  split
  · exact h
  · split
    · exact h.outage
    · exact h

theorem setRelapse {n : Nat} {b : Bool} (h : e.Under m may P) : (e.setRelapse n b).Under m may P := by
  unfold Event.setRelapse
  split
  · exact h
  · split
    · exact h
    · exact h.outageQuietly.signal

theorem relapse {n : Nat} (h : e.Under m may P) : (e.relapse n).Under m may P := by
  unfold Event.relapse
  split
  · exact h
  · split
    · exact h.outage.setRelapse.suppressAll
    · exact h

theorem ruleRelighting {n : Nat} (h : e.Under m may P) : (e.ruleRelighting n).Under m may P := by
  unfold Event.ruleRelighting
  split
  · exact h
  · split
    · exact h.relapse
    · exact h

theorem createOutage {idx : Nat} {c : Cause} {st : OutageState} {plan : Option Nat} {l : List Nat}
    (h : e.Under m may P) : (e.createOutage idx c st plan l).Under m may P := by
  have hput : (e.setNet { e.net with
      outages := put idx (newOutage (nextOutage e.net) c st plan e.clock) e.net.outages
      lastOutage := nextOutage e.net }).Under m may P := h.other
  exact hput.markOutage.joins

theorem gatherGroups {l : List (List Nat)} (h : e.Under m may P) : (Event.gatherGroups l e).Under m may P := by
  induction l generalizing e with
  | nil => exact h
  | cons g t ih =>
    unfold Event.gatherGroups
    split
    · exact h
    · exact ih h.createOutage

theorem raiseUnrecorded {l : List Nat} (h : e.Under m may P) : (Event.raiseUnrecorded l e).Under m may P := by
  induction l generalizing e with
  | nil => exact h
  | cons k t ih => exact ih h.setUnrecorded

theorem gather (h : e.Under m may P) : e.gather.Under m may P := h.gatherGroups.raiseUnrecorded

theorem dropOutage {n : Nat} (h : e.Under m may P) : (e.dropOutage n).Under m may P := h.other

theorem unlinkOutage {o : Outage} (h : e.Under m may P) : (e.unlinkOutage o).Under m may P := by
  unfold Event.unlinkOutage
  split
  · exact h
  · exact h.outageQuietly.unlinkPlan

theorem complete {n : Nat} (h : e.Under m may P) : (e.complete n).Under m may P := by
  unfold Event.complete
  split
  · exact h
  · exact h.completeCalls.unlinkOutage.setRelapse.leaves.markClosed.dropOutage

theorem abandon {byTrim : Bool} {n : Nat} (h : e.Under m may P) : (e.abandon byTrim n).Under m may P := by
  unfold Event.abandon
  dsimp only
  split
  · exact h
  · split
    · exact h.leaves.setRelapse.unlinkOutage.markClosed.dropOutage
    · exact h.leaves.setRelapse.markClosed.dropOutage

theorem ruleConfirmed {n : Nat} (h : e.Under m may P) : (e.ruleConfirmed n).Under m may P := by
  unfold Event.ruleConfirmed
  dsimp only
  split
  · exact h
  · split
    · have hrelit := h.outage (n := n) (f := fun x => { x with state := .relighting })
      split
      · exact hrelit.setRelapse.suppressAll.complete
      · exact hrelit.setRelapse.suppressAll
    · exact h

theorem ruleTrimmed {n : Nat} (h : e.Under m may P) : (e.ruleTrimmed n).Under m may P := by
  unfold Event.ruleTrimmed
  split
  · exact h
  · split
    · exact h
    · exact h.ruleActive
    · exact h.ruleConfirmed
    · split
      · exact h.complete
      · exact h

theorem trim {n : Nat} {l : List Nat} (h : e.Under m may P) : (e.trim n l).Under m may P := by
  unfold Event.trim
  dsimp only
  split
  · exact h
  · split
    · exact h.leaves
    · split
      · exact h.leaves.abandon.gather
      · exact h.leaves.ruleTrimmed.gather

theorem rulePublished {n : Nat} (h : e.Under m may P) : (e.rulePublished n).Under m may P := by
  unfold Event.rulePublished
  split
  · exact h
  · split
    · exact h.ruleDeclared
    · exact h.ruleActive
    · exact h.ruleRecharging
    · exact h.ruleRelighting

theorem rulesPublished {l : List Nat} (h : e.Under m may P) : (Event.rulesPublished l e).Under m may P := by
  induction l generalizing e with
  | nil => exact h
  | cons n t ih => exact ih h.rulePublished

theorem clearUnrecorded {l : List Nat} (h : e.Under m may P) : (Event.clearUnrecorded l e).Under m may P := by
  induction l generalizing e with
  | nil => exact h
  | cons k t ih => exact ih h.setUnrecorded

theorem takePublication {cleared changed : List Nat} (h : e.Under m may P) :
    (e.takePublication cleared changed).Under m may P :=
  h.clearUnrecorded.rulesPublished.gather

/-! ### Samples, staleness and holds -/

theorem pointReport {k : Nat} {entered leftLow : Bool} (h : e.Under m may P) :
    (e.pointReport k entered leftLow).Under m may P := by
  unfold Event.pointReport
  split
  · exact h
  · split
    · exact h
    · split
      · exact h.ruleActive
      · exact h
    · split
      · exact h
      · exact h.outageQuietly
    · split
      · exact h.relapse
      · exact h

theorem pointReports {n : Nat} {d : PointDef} {x y : Point} {onset : Bool} (h : e.Under m may P) :
    (e.pointReports n d x y onset).Under m may P := by
  unfold Event.pointReports
  dsimp only
  have hreport : (if x.band = y.band ∧ x.fresh = y.fresh then e
      else e.pointReport d.sect (isFreshLow y && !isFreshLow x)
        ((isFreshLow x && !isFreshLow y) || (x.fresh && !y.fresh))).Under m may P := by
    split
    · exact h
    · exact h.pointReport
  generalize (if x.band = y.band ∧ x.fresh = y.fresh then e else _) = e1 at hreport ⊢
  split
  · split
    · exact hreport.fallOnset
    · exact hreport.outlet.fallOnset
  · split
    · exact hreport
    · exact hreport.outlet

theorem repoint {l : List CondKind} {n : Nat} {d : PointDef} {x y : Point} (h : e.Under m may P) :
    (e.repoint l n d x y).Under m may P := h.point.relistAll.pointReports

theorem sample {x : Sample} (h : e.Under m may P) : (e.sample x).Under m may P := by
  unfold Event.sample
  split
  · exact h.repoint
  · exact h

theorem samples {l : List Sample} (h : e.Under m may P) : (Event.samples l e).1.Under m may P := by
  induction l generalizing e with
  | nil => exact h
  | cons x t ih => exact ih h.sample

theorem stale {n : Nat} (h : e.Under m may P) : (e.stale n).Under m may P := by
  unfold Event.stale
  split
  · exact h.repoint
  · exact h

theorem staleTick {n : Nat} (h : e.Under m may P) : (e.staleTick n).Under m may P := by
  unfold Event.staleTick
  dsimp only
  split
  · exact h
  · split
    · exact h
    · split
      · exact h.point.stale
      · exact h.point

theorem staleTicks {l : List Nat} (h : e.Under m may P) : (Event.staleTicks l e).Under m may P := by
  induction l generalizing e with
  | nil => exact h
  | cons n t ih => exact ih h.staleTick

theorem staleIfDue {n : Nat} (h : e.Under m may P) : (e.staleIfDue n).Under m may P := by
  unfold Event.staleIfDue
  split
  · exact h
  · split
    · exact h.stale
    · exact h

theorem holdTick {n : Nat} (h : e.Under m may P) : (e.holdTick n).Under m may P := by
  unfold Event.holdTick
  split
  · exact h
  · split
    · exact h.outageQuietly.ruleConfirmed
    · exact h

theorem holdTicks {l : List Nat} (h : e.Under m may P) : (Event.holdTicks l e).Under m may P := by
  induction l generalizing e with
  | nil => exact h
  | cons n t ih => exact ih h.holdTick

theorem gatherIfFreed {k : Nat} (h : e.Under m may P) : (e.gatherIfFreed k).Under m may P := by
  unfold Event.gatherIfFreed
  split
  · exact h.gather
  · exact h

theorem outageTick (h : e.Under m may P) : e.outageTick.Under m may P := h.holdTicks.gatherIfFreed

theorem confirmSection {n k : Nat} (h : e.Under m may P) : (e.confirmSection n k).Under m may P :=
  h.outageQuietly.ruleConfirmed.gatherIfFreed

theorem holdIfDue {n k : Nat} (h : e.Under m may P) : (e.holdIfDue n k).Under m may P := by
  unfold Event.holdIfDue
  split
  · exact h
  · split
    · exact h.confirmSection
    · exact h

theorem countPremises {relit : Bool} {n k : Nat} {o : Outage} (h : e.Under m may P) :
    (e.countPremises relit n k o).Under m may P := by
  unfold Event.countPremises
  dsimp only
  split
  · exact h.outage.complete.gather
  · exact h.outage

/-! ### Plan requests -/

/-- A plan whose valves move stands still at once. -/
theorem abortPlan {slot : Nat} {x : Plan} (hx : lookup slot e.net.plans = some x) (hmoving : isMoving x.state = true)
    (h : e.Under m may P) : (e.abortPlan slot x).Under m may P := by
  refine aborts (e := e.plan slot .requested true fun q => { q with state := .held })
    (h.plan fun y hy => ⟨rfl, fun ⟨hcloses, hopens, _⟩ => ?_⟩) |>.settleIfAll
  obtain rfl := Option.some.inj (hx.symm.trans hy)
  have hdirected : x.direction = .closes ∨ x.direction = .opens := by
    cases hstate : x.state <;> simp_all [isMoving]
  rcases hdirected with hd | hd <;> simp [Plan.Directed, hd]

theorem setOut {slot : Nat} {x : Plan} {dir : Direction} (hx : lookup slot e.net.plans = some x)
    (hset : x.Directed → dir ≠ .unset) (hdir : dir = .closes → ∀ v ∈ x.valves, may v) (h : e.Under m may P) :
    (e.setOut slot x dir).Under m may P := by
  refine orderPending (e := e.plan slot .requested true fun q => { q with state := movingState dir, direction := dir })
    hdir (h.plan fun y hy => ⟨rfl, fun hdirected => ?_⟩) |>.settleIfAll
  obtain rfl := Option.some.inj (hx.symm.trans hy)
  cases dir with
  | unset => exact absurd rfl (hset hdirected)
  | closes => simp [Plan.Directed, movingState]
  | opens => simp [Plan.Directed, movingState]

theorem releaseOutage {x : Plan} (h : e.Under m may P) : (e.releaseOutage x).Under m may P := by
  unfold Event.releaseOutage
  split
  · exact h
  · split
    · exact h
    · split
      · exact h.abandon.gather
      · exact h.outageQuietly

theorem takeOver {slot : Nat} {p : PortId} {x : Plan} (h : e.Under m may P) : (e.takeOver slot p x).Under m may P :=
  ⟨h.closed, h.image, h.closed.quiet _ _ (SameOrders.adjust (f := fun q => { q with owner := p }) (fun _ => rfl) _)
    h.net⟩

/-! ### The result of a trial -/

theorem checkPassed {slot : Nat} {x : Plan} {r : Consequence} (hmay : ∀ v ∈ x.valves, may v) (h : e.Under m may P) :
    (e.checkPassed slot x r).Under m may P := by
  unfold Event.checkPassed
  dsimp only
  refine ((planIdle ?_).orders fun _ => hmay).settleIfAll
  split
  · exact h
  · exact h.trim

theorem judgeCheck {slot : Nat} {x : Plan} {r : Consequence} (hmay : PassesCheck e.net x r → ∀ v ∈ x.valves, may v)
    (h : e.Under m may P) : (e.judgeCheck slot x r).Under m may P := by
  unfold Event.judgeCheck
  split
  · next hempty => exact h.checkPassed (hmay (.inl ((isEmpty_iff r).1 hempty)))
  · split
    · exact h.planIdle
    · next hwithin =>
      split
      · next hmet =>
        exact h.checkPassed (hmay (passesCheck_of_within (by simpa using hwithin) ((priorityMet_iff x r).1 hmet)))
      · exact h.planIdle

theorem recheck {slot : Nat} {x : Plan} (h : e.Under m may P) : (e.recheck slot x).Under m may P := by
  unfold Event.recheck
  split
  · split
    · next n hn => exact (h.engine (queueTrial_engineOnly hn)).planQuietly
    · exact h.planIdle
  · exact h.planIdle

/-- A plan's result sends valves towards CLOSING only where the plan passes its check with equal revisions. -/
theorem planResult {slot : Nat} {r : Consequence} {completion : Word}
    (hmay : ∀ x, lookup slot e.net.plans = some x → x.state = .checking → r.basis = completion →
      PassesCheck e.net x r → ∀ v ∈ x.valves, may v)
    (h : e.Under m may P) : (e.planResult slot r completion).Under m may P := by
  unfold Event.planResult
  split
  · exact h
  · next x hx =>
    split
    · exact h.planIdle
    · next hstate =>
      split
      · next hbasis => exact h.judgeCheck (hmay x hx hstate hbasis)
      · exact h.recheck
    · exact h

theorem handOver {r : Consequence} {completion : Word} {who : Requester}
    (hmay : ∀ slot x, who = .plan slot → lookup slot e.net.plans = some x → x.state = .checking →
      r.basis = completion → PassesCheck e.net x r → ∀ v ∈ x.valves, may v)
    (h : e.Under m may P) : (e.handOver r completion who).Under m may P := by
  cases who with
  | plan slot => exact h.planResult fun x => hmay slot x rfl
  | port p => exact h.post

theorem trialEnds {r : Consequence} {completion : Word} {who : Requester}
    (hmay : ∀ slot x, who = .plan slot → lookup slot e.net.plans = some x → x.state = .checking →
      r.basis = completion → PassesCheck e.net x r → ∀ v ∈ x.valves, may v)
    (h : e.Under m may P) : (e.trialEnds r completion who).Under m may P := by
  have hgrant := grantAfterTrial_engineOnly
  unfold Event.trialEnds
  dsimp only
  split
  · exact (handOver (e := { e with choices := (choose (handOverOrders who) e.choices).2 }) hmay h.setChoices).engine
      (hgrant _)
  · refine handOver ?_ (h.setChoices.engine (hgrant e.net))
    intro slot x hwho hx hstate hbasis hpasses
    exact hmay slot x hwho ((hgrant e.net).plans ▸ hx) hstate hbasis (hpasses.congr (hgrant e.net).outages.symm)

/-! ### Completions and ticks -/

theorem publish {x : Snapshot} (h : e.Under m may P) : (e.publish x).Under m may P := by
  unfold Event.publish
  dsimp only
  split
  · exact h.other.takePublication
  · exact h.other.post.takePublication

theorem raiseList {l : List CondId} (h : e.Under m may P) : (Event.raiseList l e).Under m may P := by
  induction l generalizing e with
  | nil => exact h
  | cons c t ih => exact ih h.report

theorem setLines {x : List LineScan} (h : e.Under m may P) : (e.setNet { e.net with lines := x }).Under m may P :=
  h.other

theorem trips {l : List Nat} (h : e.Under m may P) : (Event.trips l e).Under m may P := by
  induction l generalizing e with
  | nil => exact h
  | cons k t ih => exact ih h.trip

theorem generalLines {l : List Nat} (h : e.Under m may P) : (Event.generalLines l e).Under m may P :=
  ⟨h.closed, Event.generalLines_grows (imageClosed m) l e h.image, Event.generalLines_keeps l e h.net⟩

/-- The blocks of an event act in turn. -/
theorem inOrder {l : List Block} {f : Block → Event → Event} (h : e.Under m may P)
    (hf : ∀ b e, Event.Under m may P e → (f b e).Under m may P) : (Event.inOrder f l e).Under m may P := by
  induction l generalizing e with
  | nil => exact h
  | cons b t ih => exact ih (hf b e h)

theorem inAnyOrder {bs : List Block} {f : Block → Event → Event} (h : e.Under m may P)
    (hf : ∀ b e, Event.Under m may P e → (f b e).Under m may P) : (e.inAnyOrder bs f).Under m may P :=
  h.setChoices.inOrder hf

theorem lineUser {due : List Nat} {b : Block} (h : e.Under m may P) : (e.lineUser due b).Under m may P := by
  cases b
  case vlc => exact h.limitReports
  case srm => exact h.trips
  case lsc => exact h.generalLines
  all_goals exact h

theorem lineChanges {due : List Nat} (h : e.Under m may P) : (e.lineChanges due).Under m may P :=
  h.setLines.inAnyOrder fun _ _ hb => hb.lineUser

theorem scan {pins : BitVec 64} (h : e.Under m may P) : (e.scan pins).Under m may P := by
  unfold Event.scan
  dsimp only
  split
  · exact h.setLines
  · exact h.setLines.lineChanges

theorem lineChangeIfDue {line : Nat} (h : e.Under m may P) : (e.lineChangeIfDue line).Under m may P := by
  unfold Event.lineChangeIfDue
  dsimp only
  split
  · exact h.lineChanges
  · exact h

theorem secondAt {b : Block} (h : e.Under m may P) : (e.secondAt b).Under m may P := by
  cases b
  case vlc => exact h.travelTicks
  case psv => exact h.staleTicks
  case ogt => exact h.outageTick
  case clr => exact h.callTicks
  all_goals exact h

end Event.Under
end Sys2Proof.Machine
end

section
/-!
An invariant of the field, command by command: resets, commits and the requests that make, list or free plans apart,
every command keeps it. What a transfer does is what the request it carries does.
-/

namespace Sys2Proof.Machine

variable {s t : State}

/-! ### A transfer runs the request it carries (R168 to R170) -/

/-- Nothing but the ports differs. -/
def OnlyPorts (s t : State) : Prop := t = { s with ports := t.ports }

theorem OnlyPorts.refl (s : State) : OnlyPorts s s := rfl

theorem OnlyPorts.setPort {u : State} (h : OnlyPorts s u) (p : PortId) (f : Port → Port) :
    OnlyPorts s (u.setPort p f) := by
  unfold OnlyPorts at h ⊢
  rw [h]
  rfl

theorem OnlyPorts.trans {u : State} (h : OnlyPorts s t) (h' : OnlyPorts t u) : OnlyPorts s u := by
  unfold OnlyPorts at h h' ⊢
  rw [h', h]

theorem OnlyPorts.net (h : OnlyPorts s t) : t.net = s.net := (congrArg State.net h :)

theorem OnlyPorts.cfu (h : OnlyPorts s t) : t.cfu = s.cfu := (congrArg State.cfu h :)

theorem shiftOut_onlyPorts (p : PortId) (n : Nat) (s : State) : OnlyPorts s (shiftOut p n s) :=
  (OnlyPorts.refl s).setPort p _

/-- A request that an owner refuses changes its port alone. -/
theorem request_refused_onlyPorts {c : ReqClass} {p : PortId} {tag : Byte} {st : Status} :
    OnlyPorts s (request c p tag (refuse st) s) :=
  request_keeps (Q := OnlyPorts s) (fun _ p f h => h.setPort p f) (fun _ h => h) (.refl s)

/-- The rows that are requests of Table 9-6. -/
def isRequest : Instr → Bool
  | .powerOnReset | .lineReset | .leaveReset | .transfer _ _ => false
  | .scanTick _ | .oneSecondTick | .lineChange _ | .travelTimerExpiry _ | .liveWalkCompletes | .trialCompletes => false
  | .rechargeHoldExpiry _ _ | .stalenessExpiry _ | .deadlineExpiry _ | .realarmExpiry _ => false
  | .stepTick | .cadencePartEnd | .mimicRowScan | .lampTestEnd => false
  | _ => true

theorem requestMeaning_cases (c : Instr) (s : State) :
    requestMeaning c s = .next s ∨ (requestMeaning c s = exec c s ∧ isRequest c = true) := by
  rcases requestMeaning_eq c s with h | ⟨h, _⟩
  · exact .inl h
  · cases hc : isRequest c
    · left
      cases c <;> first | rfl | cases hc
    · exact .inr ⟨h, rfl⟩

/-- A frame is answered at its port alone, or carries a request of Table 9-6, which runs. -/
theorem runFrame_cases (code : Byte) (p : PortId) (tag : Byte) (body : List Byte) (s : State) :
    OnlyPorts s (runFrame code p tag body s)
      ∨ ∃ row c, requestRow code = some row ∧ row.command p tag body = some c ∧ isRequest c = true
          ∧ exec c s = .next (runFrame code p tag body s) := by
  unfold runFrame
  split
  · exact .inl (((OnlyPorts.refl s).setPort p _).setPort p _)
  · next row hrow =>
    split
    · exact .inl request_refused_onlyPorts
    · next c hc =>
      rcases requestMeaning_cases c s with he | ⟨he, hnot⟩
      · rw [he]
        exact .inl (.refl s)
      · obtain ⟨u, hu⟩ : ∃ u, exec c s = .next u := by cases c <;> exact ⟨_, rfl⟩
        rw [he, hu]
        exact .inr ⟨row, c, hrow, hc, hnot, hu⟩

/-- A transfer acts at its port alone, or runs the request of Table 9-6 that it carries. -/
theorem transfer_cases (p : PortId) (bits : List Bool) (s : State) :
    OnlyPorts s (transfer p bits s)
      ∨ ∃ c, Brings (.transfer p bits) c ∧ isRequest c = true
          ∧ exec c (shiftOut p bits.length s) = .next (transfer p bits s) := by
  have hshift := shiftOut_onlyPorts p bits.length s
  unfold transfer
  split
  · exact .inl (.refl s)
  · cases hframe : frameBytes (wholeBytes bits) with
    | nothing => exact .inl hshift
    | frameError tag => exact .inl (hshift.setPort p fun x => { x with response := _ })
    | checkError tag => exact .inl (hshift.setPort p fun x => { x with response := _ })
    | request code tag body =>
      rcases runFrame_cases code p tag body (shiftOut p bits.length s) with h | ⟨row, c, hrow, hc, hnot, he⟩
      · exact .inl (hshift.trans h)
      · exact .inr ⟨c, .inr ⟨p, bits, code, tag, body, row, rfl, hframe, hrow, hc⟩, hnot, he⟩

/-! ### Acts and requests -/

/-- Checks 1 to 4 of R59, with what they found. -/
theorem actPlan_acts_of {P : Net → Prop} {p : PortId} {slot : Nat} {takes : PlanState → Bool}
    {act : Plan → State → Answer}
    (h : ∀ x, lookup slot s.net.plans = some x → x.owner = p → takes x.state = true → Acts P s (act x s)) :
    Acts P s (actPlan p slot takes act s) := by
  unfold actPlan
  split
  · exact refuse_acts
  · split
    · exact refuse_acts
    · next x hx =>
      split
      · exact refuse_acts
      · next howner =>
        split
        · next htakes => exact h x hx (by simpa using howner) htakes
        · exact refuse_acts

/-- VERIFY_POSITION is taken for OPEN and CLOSED alone. -/
theorem actVerify_acts_of {p : PortId} {v : Nat} {arg : Byte} {P : Net → Prop}
    (h : ∀ x, x ≠ .closing → P ((Event.start s).verify v x).net) : Acts P s (actVerify p v arg s) := by
  unfold actVerify
  split
  · split
    · exact refuse_acts
    · next y hy =>
      split
      · exact refuse_acts
      · split
        · exact refuse_acts
        · refine taken_acts (h y ?_)
          unfold positionArgument at hy
          split at hy
          · simp [← Option.some.inj hy]
          · split at hy
            · simp [← Option.some.inj hy]
            · simp at hy
  · exact refuse_acts

/-- A request changes the network blocks by its act alone, which finds them as they are. -/
theorem request_net_keeps {P : Net → Prop} {c : ReqClass} {p : PortId} {tag : Byte} {act : State → Answer}
    (hact : P (act (renew p s)).1.net) (hs : P s.net) : P (request c p tag act s).net := by
  unfold request
  split
  · exact hs
  · split
    · exact hs
    · exact hact

theorem actBeginConfig_net (p : PortId) (s : State) : (actBeginConfig p s).1.net = s.net := by
  unfold actBeginConfig
  split
  · rfl
  · split <;> rfl
  · rfl

theorem actLoadRecords_net (body : List Byte) (s : State) : (actLoadRecords body s).1.net = s.net := by
  unfold actLoadRecords
  split
  · rfl
  · split <;> rfl

theorem actAbandonConfig_net (s : State) : (actAbandonConfig s).1.net = s.net := by
  unfold actAbandonConfig
  split <;> rfl

/-! ### Every command that leaves the plans' lists -/

section
variable {m : Image} {may : Nat → Prop} {P : Net → Prop}

theorem FieldInvariant.acts (hc : FieldInvariant m may P) {a : Answer} (h : Acts P s a) (hs : P s.net) : P a.1.net := by
  cases h with
  | keeps st body => exact hs
  | event w e st body he => exact hc.writeReasons he

theorem FieldInvariant.request (hc : FieldInvariant m may P) {c : ReqClass} {p : PortId} {tag : Byte}
    {act : State → Answer} (hact : Acts P (renew p s) (act (renew p s))) (hs : P s.net) :
    P (Machine.request c p tag act s).net := request_net_keeps (hc.acts hact hs) hs

/-- An event of the part's own. -/
theorem Event.Under.event {f : Event → Event} (h : (f (Event.start s)).Under m may P) : P (Machine.event f s).net :=
  h.closed.writeReasons h.net

/-- An event of a part in RUNNING, after its counters advance. -/
theorem FieldInvariant.whenRunningWith (hc : FieldInvariant s.cfu.image may P) {advance : State → State}
    {f : Event → Event} (hadvance : ∀ u, (advance u).cfu = u.cfu ∧ (advance u).net = u.net)
    (hf : ∀ e, Event.Under s.cfu.image may P e → (f e).Under s.cfu.image may P) (hs : P s.net) :
    P (whenRunning (fun u => Machine.event f (advance u)) s).net := by
  obtain ⟨hcfu, hnet⟩ := hadvance s
  unfold Machine.whenRunning
  split
  · exact (hf (Event.start (advance s)) ⟨hc, congrArg Cfu.image hcfu, (congrArg P hnet).mpr hs⟩).event
  · exact hs

theorem FieldInvariant.whenRunning (hc : FieldInvariant s.cfu.image may P) {f : Event → Event}
    (hf : ∀ e, Event.Under s.cfu.image may P e → (f e).Under s.cfu.image may P) (hs : P s.net) :
    P (whenRunning (Machine.event f) s).net := hc.whenRunningWith (advance := id) (fun _ => ⟨rfl, rfl⟩) hf hs

theorem confirmClosedIn_moves {v : Nat} {x : Valve} {f : Event → Event} (hf : confirmClosedIn v x = some f) :
    ∃ pos k o, pos ≠ .closing ∧ f = fun e => e.moveValve v pos k o := by
  unfold confirmClosedIn at hf
  split at hf
  · exact ⟨.closed, 0, some .done, by decide, (Option.some.inj hf).symm⟩
  · simp at hf

theorem confirmOpenIn_moves {v : Nat} {x : Valve} {f : Event → Event} (hf : confirmOpenIn v x = some f) :
    ∃ pos k o, pos ≠ .closing ∧ f = fun e => e.moveValve v pos k o := by
  unfold confirmOpenIn at hf
  split at hf
  · exact ⟨.opened, 0, some .done, by decide, (Option.some.inj hf).symm⟩
  · split at hf
    · exact ⟨.opened, 0, some .failed, by decide, (Option.some.inj hf).symm⟩
    · simp at hf

theorem inoperableIn_moves {v : Nat} {x : Valve} {f : Event → Event} (hf : inoperableIn v x = some f) :
    ∃ pos k o, pos ≠ .closing ∧ f = fun e => e.moveValve v pos k o := by
  unfold inoperableIn at hf
  split at hf
  · exact ⟨.stuck, 0, some .failed, by decide, (Option.some.inj hf).symm⟩
  · simp at hf

theorem FieldInvariant.crew (hc : FieldInvariant s.cfu.image may P) {c : ReqClass} {p : PortId} {tag : Byte} {v : Nat}
    {act : Valve → Option (Event → Event)}
    (hact : ∀ x f, act x = some f → ∃ pos k o, pos ≠ .closing ∧ f = fun e => e.moveValve v pos k o) (hs : P s.net) :
    P (Machine.request c p tag (actCrew p v act) s).net := by
  refine hc.request (actCrew_acts fun x f hf => ?_) hs
  obtain ⟨pos, k, o, hpos, rfl⟩ := hact x f hf
  exact (Event.Under.moveElsewhere (m := s.cfu.image) hpos ⟨hc, rfl, hs⟩).net

theorem FieldInvariant.completeWalk (hc : FieldInvariant s.cfu.image may P) (hs : P s.net) :
    P (completeWalk s).net := by
  unfold Machine.completeWalk
  split
  · next snap _ =>
    have hstart : (Event.start s).Under s.cfu.image may P := ⟨hc, rfl, hs⟩
    exact (hstart.publish.engine (grantAfterWalk_engineOnly _)).event
      (f := fun e => (e.publish snap).grant grantAfterWalk)
  · exact hs
  · exact hs

theorem FieldInvariant.declarePlan (hc : FieldInvariant s.cfu.image may P) {slot : Nat} {accepted : Byte} {x : Plan}
    (hs : P s.net) : Acts P s (declarePlan slot accepted x s) := by
  have hstart : (Event.start s).Under s.cfu.image may P := ⟨hc, rfl, hs⟩
  refine declarePlan_acts (fun _ _ => ?_) (fun _ _ _ => ?_)
  · unfold declareNew
    split
    · exact refuse_acts
    · exact taken_acts hstart.createOutage.ruleDeclared.planFields.net
  · unfold declareMore
    dsimp only
    split
    · exact taken_acts hstart.planQuietly.net
    · split
      · exact refuse_acts
      · split
        · exact refuse_acts
        · exact taken_acts hstart.joins.ruleDeclared.planQuietly.net

/-- A trial that is asked for takes its plan to a state without direction. -/
theorem FieldInvariant.askedTrial (hc : FieldInvariant s.cfu.image may P) {t : TrialEntry} {slot : Nat}
    {f : Plan → Plan}
    {n : Net} (hvalves : ∀ x, (f x).valves = x.valves) (hf : ∀ x, (f x).Directed) (hs : P s.net)
    (hn : queueTrial t s.net = some n) : P { n with plans := adjust slot f n.plans } :=
  hc.turn n _ _ (fun x _ => ⟨hvalves x, fun _ => hf x⟩) (hc.engine (queueTrial_engineOnly hn) hs)

theorem FieldInvariant.assessPlan (hc : FieldInvariant s.cfu.image may P) {slot : Nat} {x : Plan} (hs : P s.net) :
    Acts P s (assessPlan slot x s) := by
  unfold Machine.assessPlan
  split
  · exact refuse_acts
  · exact askTrial_acts fun _ _ hn => hc.askedTrial (fun _ => rfl) (by simp [Plan.Directed]) hs hn

/-- A commit raises its conditions and starts the first walk over what it seeded. -/
theorem commit_keeps {m : Image} (hc : FieldInvariant m may P) (h : P (seedNet m s.net.pins s.tbu.uptime)) :
    P (commit m s).net := by
  have hseed : (Event.start (committed m s)).Under m may P := ⟨hc, rfl, h⟩
  exact (hseed.raiseList.engine (startWalk_engineOnly _)).event
    (f := fun e => (Event.raiseList (initialConditions m (committed m s).net) e).grant startWalk)

/-- What sends valves towards CLOSING: a retry in direction CLOSE, and a check that passes with equal revisions. -/
structure MayClose (s : State) (i : Instr) (may : Nat → Prop) : Prop where
  retry : ∀ p tag slot x, i = .planRetry p tag slot → lookup slot.toNat s.net.plans = some x → x.owner = p →
    x.state = .held → x.direction = .closes → ∀ v ∈ x.valves, may v
  check : ∀ snap slot closure x, i = .trialCompletes → s.net.engine = .trial snap (.plan slot) closure →
    lookup slot s.net.plans = some x → x.state = .checking → snap.revision = s.net.topology →
    PassesCheck s.net x (trialResult s.cfu.image snap closure) → ∀ v ∈ x.valves, may v

theorem FieldInvariant.completeTrial (hc : FieldInvariant s.cfu.image may P) (hmay : MayClose s .trialCompletes may)
    (hs : P s.net) : P (completeTrial s).net := by
  unfold Machine.completeTrial
  split
  · next snap who closure hengine =>
    dsimp only
    have hfill (r : Consequence) (c : Word) : (Event.start (fillBuffer r c who s)).Under s.cfu.image may P := by
      cases who <;> exact ⟨hc, rfl, hs⟩
    refine Event.Under.event (f := fun e => e.trialEnds _ _ who) (Event.Under.trialEnds ?_ (hfill _ _))
    intro slot x hwho hx hstate hbasis hpasses
    subst hwho
    exact hmay.check snap slot closure x rfl hengine hx hstate hbasis hpasses
  · exact hs
  · exact hs

/-- The commands that make, list or free plan records. -/
def listsPlans : Instr → Bool
  | .planCreate _ _ _ | .planAddValve _ _ _ _ | .planRemoveValve _ _ _ _ | .planRelease _ _ _ => true
  | _ => false

/-- The commands that empty or seed the network blocks, and transfers. -/
def replacesNet : Instr → Bool
  | .powerOnReset | .lineReset | .commitConfig _ _ _ | .transfer _ _ => true
  | _ => false

/-- Every other command keeps an invariant of the field whose valves may enter CLOSING. -/
theorem exec_keeps_fields (i : Instr) (hc : FieldInvariant s.cfu.image may P) (hs : P s.net)
    (hmay : MayClose s i may) (hlists : listsPlans i = false) (hnet : replacesNet i = false) :
      ∃ t, exec i s = .next t ∧ P t.net := by
  have hstart {p : PortId} : (Event.start (renew p s)).Under s.cfu.image may P := ⟨hc, rfl, hs⟩
  cases i
  case planCreate | planAddValve | planRemoveValve | planRelease => simp [listsPlans] at hlists
  case powerOnReset | lineReset | commitConfig | transfer => simp [replacesNet] at hnet
  case leaveReset =>
    refine ⟨_, rfl, ?_⟩
    unfold leaveReset
    split <;> exact hs
  case beginConfig p tag => exact ⟨_, rfl, request_net_keeps ((congrArg P (actBeginConfig_net p _)).mpr hs) hs⟩
  case loadRecords p tag body => exact ⟨_, rfl, request_net_keeps ((congrArg P (actLoadRecords_net body _)).mpr hs) hs⟩
  case abandonConfig => exact ⟨_, rfl, request_net_keeps ((congrArg P (actAbandonConfig_net _)).mpr hs) hs⟩
  case setClock => exact ⟨_, rfl, request_net_keeps hs hs⟩
  case readNotices => exact ⟨_, rfl, request_net_keeps hs hs⟩
  case setLimits =>
    refine ⟨_, rfl, request_net_keeps ?_ hs⟩
    unfold actSetLimits
    split
    · exact hs
    · split
      · exact hs
      · exact hc.frame s.net _ rfl rfl rfl hs
  case trial p tag body =>
    refine ⟨_, rfl, request_net_keeps ?_ hs⟩
    unfold actTrial
    split
    · exact hs
    · split
      · exact hs
      · split
        · exact hs
        · split
          · exact hs
          · split
            · exact hs
            · next n hn => exact hc.engine (queueTrial_engineOnly hn) hs
  case lampTest => exact ⟨_, rfl, request_net_keeps hs hs⟩
  case null => exact ⟨_, rfl, hc.request readOk_acts hs⟩
  case readIdentity => exact ⟨_, rfl, hc.request readOk_acts hs⟩
  case readStatus => exact ⟨_, rfl, hc.request readOk_acts hs⟩
  case readTrial => exact ⟨_, rfl, hc.request readOk_acts hs⟩
  case readPorts => exact ⟨_, rfl, hc.request readOk_acts hs⟩
  case readLines => exact ⟨_, rfl, hc.request readOk_acts hs⟩
  case readLamps => exact ⟨_, rfl, hc.request readOk_acts hs⟩
  case readAlarms => exact ⟨_, rfl, hc.request readOk_acts hs⟩
  case readWithheld => exact ⟨_, rfl, hc.request readOk_acts hs⟩
  case readDefinition => exact ⟨_, rfl, hc.request actReadDefinition_acts hs⟩
  case readSection => exact ⟨_, rfl, hc.request readObject_acts hs⟩
  case readValve => exact ⟨_, rfl, hc.request readObject_acts hs⟩
  case readSource => exact ⟨_, rfl, hc.request readObject_acts hs⟩
  case readPoint => exact ⟨_, rfl, hc.request readObject_acts hs⟩
  case readPlan => exact ⟨_, rfl, hc.request readObject_acts hs⟩
  case readOutage => exact ⟨_, rfl, hc.request readObject_acts hs⟩
  case readCall => exact ⟨_, rfl, hc.request readObject_acts hs⟩
  case confirmClosed => exact ⟨_, rfl, hc.crew (fun _ _ => confirmClosedIn_moves) hs⟩
  case confirmOpen => exact ⟨_, rfl, hc.crew (fun _ _ => confirmOpenIn_moves) hs⟩
  case reportInoperable => exact ⟨_, rfl, hc.crew (fun _ _ => inoperableIn_moves) hs⟩
  case verifyPosition => exact ⟨_, rfl, hc.request (actVerify_acts_of fun _ hx => (hstart.verify hx).net) hs⟩
  case planAssess =>
    exact ⟨_, rfl, hc.request (actPlan_acts fun _ => FieldInvariant.assessPlan (s := renew _ s) hc hs) hs⟩
  case planExecute =>
    exact ⟨_, rfl, hc.request (actPlan_acts fun _ => askTrial_acts fun _ _ hn =>
      hc.askedTrial (fun _ => rfl) (by simp [Plan.Directed]) hs hn) hs⟩
  case planDeclareOutage => exact ⟨_, rfl, hc.request
    (actPlan_acts fun _ => FieldInvariant.declarePlan (s := renew _ s) hc hs) hs⟩
  case planAbort =>
    exact ⟨_, rfl, hc.request (actPlan_acts_of fun _ hx _ htakes =>
      planTaken_acts (hstart.abortPlan hx htakes).net) hs⟩
  case planRetry p tag slot =>
    refine ⟨_, rfl, hc.request (actPlan_acts_of fun x hx howner htakes => ?_) hs⟩
    have hheld : x.state = .held := by simpa using htakes
    exact planTaken_acts (hstart.setOut hx (fun hdirected => hdirected.2.2 hheld)
      (hmay.retry p tag slot x rfl hx howner hheld)).net
  case planRestore =>
    exact ⟨_, rfl, hc.request (actPlan_acts_of fun _ hx _ _ => planTaken_acts
      (hstart.setOut hx (by simp) (by simp)).net) hs⟩
  case planTakeOver => exact ⟨_, rfl, hc.request (actTakeOver_acts fun _ => hstart.takeOver.net) hs⟩
  case trialCompletes =>
    refine ⟨_, rfl, ?_⟩
    unfold whenRunning
    split
    · exact hc.completeTrial hmay hs
    · exact hs
  case sourceOut => exact ⟨_, rfl, hc.request (actSourceService_acts hstart.source.net) hs⟩
  case sourceIn => exact ⟨_, rfl, hc.request (actSourceService_acts hstart.source.net) hs⟩
  case outageConfirmSection => exact ⟨_, rfl, hc.request (actConfirmSection_acts hstart.confirmSection.net) hs⟩
  case outageRelit => exact ⟨_, rfl, hc.request (actPremises_acts fun _ => hstart.countPremises.net) hs⟩
  case outageNoAccess => exact ⟨_, rfl, hc.request (actPremises_acts fun _ => hstart.countPremises.net) hs⟩
  case callNew => exact ⟨_, rfl, hc.request (actCallNew_acts fun _ _ _ _ => hstart.newCall.net) hs⟩
  case callAssign => exact ⟨_, rfl, hc.request (actCall_acts fun _ => assignCall_acts hs hstart.call.net) hs⟩
  case callArrived =>
    exact ⟨_, rfl, hc.request (actCall_acts fun _ => taken_acts hstart.clearOverdue.call.net) hs⟩
  case callMadeSafe =>
    exact ⟨_, rfl, hc.request (actCall_acts fun _ => taken_acts hstart.clearOverdue.call.net) hs⟩
  case callClose => exact ⟨_, rfl, hc.request (actCall_acts fun _ => endCall_acts hstart.freeCall.net) hs⟩
  case callCancel => exact ⟨_, rfl, hc.request (actCall_acts fun _ => endCall_acts hstart.freeCall.net) hs⟩
  case callRegrade => exact ⟨_, rfl, hc.request (actCall_acts fun _ => regradeCall_acts hstart.regrade.net) hs⟩
  case sampleBatch => exact ⟨_, rfl, hc.request (actSampleBatch_acts fun _ => hstart.samples.net) hs⟩
  case alarmAck => exact ⟨_, rfl, hc.request (actAlarmAck_acts hs) hs⟩
  case hornSilence => exact ⟨_, rfl, hc.request (listEvent_acts hs) hs⟩
  case scanTick pins =>
    have hpins : P (setPins pins s).net := hc.frame s.net _ rfl rfl rfl hs
    exact ⟨_, rfl, FieldInvariant.whenRunningWith (s := setPins pins s) hc (advance := scanCounters)
      (fun _ => ⟨rfl, rfl⟩)
      (fun _ h => h.scan) hpins⟩
  case oneSecondTick =>
    refine ⟨_, rfl, ?_⟩
    split
    · exact hs
    · exact FieldInvariant.whenRunning (s := advanceClocks s) hc
        (f := fun e => e.inAnyOrder (secondUsers e.net) Event.secondAt)
        (fun _ h => h.inAnyOrder fun _ _ hb => hb.secondAt) hs
  case lineChange => exact ⟨_, rfl, hc.whenRunning (fun _ h => h.lineChangeIfDue) hs⟩
  case travelTimerExpiry => exact ⟨_, rfl, hc.whenRunning (fun _ h => h.travelExpiry) hs⟩
  case liveWalkCompletes =>
    refine ⟨_, rfl, ?_⟩
    unfold whenRunning
    split
    · exact hc.completeWalk hs
    · exact hs
  case rechargeHoldExpiry => exact ⟨_, rfl, hc.whenRunning (fun _ h => h.holdIfDue) hs⟩
  case stalenessExpiry => exact ⟨_, rfl, hc.whenRunning (fun _ h => h.staleIfDue) hs⟩
  case deadlineExpiry => exact ⟨_, rfl, hc.whenRunning (fun _ h => h.expireIfDue) hs⟩
  case realarmExpiry => exact ⟨_, rfl, hc.whenRunning (fun _ h => h.realarmIfDue) hs⟩
  case stepTick => exact ⟨_, rfl, whenRunning_keeps (Q := fun u => P u.net) (fun _ h => h) hs⟩
  case cadencePartEnd => exact ⟨_, rfl, whenRunning_keeps (Q := fun u => P u.net) (fun _ h => h) hs⟩
  case mimicRowScan => exact ⟨_, rfl, whenRunning_keeps (Q := fun u => P u.net) (fun _ h => h) hs⟩
  case lampTestEnd => exact ⟨_, rfl, hs⟩

end

/-! ### Properties of positions and outputs alone -/

/-- What a property of valve positions and output lines is kept by, where the valves of `may` may enter CLOSING. -/
structure ValveInvariant (m : Image) (may : Nat → Prop) (P : Net → Prop) : Prop where
  frame : ∀ n n', n'.valves = n.valves → n'.outputs = n.outputs → P n → P n'
  fields : ∀ n v f, (∀ x : Valve, (f x).position = x.position) → P n → P { n with valves := adjust v f n.valves }
  place : ∀ n v d pos k, lookup v m.valves = some d → (pos = .closing → may v) → P n → P (placeValve d v pos k n)

section
variable {m : Image} {may : Nat → Prop} {P : Net → Prop}

theorem ValveInvariant.toField (hc : ValveInvariant m may P) : FieldInvariant m may P where
  frame n n' hv ho _ := hc.frame n n' hv ho
  quiet n _ _ := hc.frame n _ rfl rfl
  turn n _ _ _ := hc.frame n _ rfl rfl
  fields n v f hf := hc.fields n v f fun x => (hf x).1
  place := hc.place

theorem ValveInvariant.claim (hc : ValveInvariant m may P) {v : Nat} {c : Option Nat} {e : Event}
    (h : e.Under m may P) : (e.claim v c).Under m may P :=
  ⟨h.closed, h.image, hc.fields _ v _ (fun _ => rfl) h.net⟩

theorem ValveInvariant.unclaim (hc : ValveInvariant m may P) {l : List Nat} {e : Event} (h : e.Under m may P) :
    (Event.unclaim l e).Under m may P := by
  induction l generalizing e with
  | nil => exact h
  | cons v t ih => exact ih (hc.claim h)

theorem ValveInvariant.editPlan (hc : ValveInvariant m may P) {slot : Nat} {x : Plan} {l : List Nat} {e : Event}
    (h : P e.net) : P (e.editPlan slot x l).net := by
  unfold Event.editPlan
  split <;> exact hc.frame e.net _ rfl rfl h

theorem ValveInvariant.releasePlan (hc : ValveInvariant m may P) {slot : Nat} {x : Plan} {e : Event}
    (h : e.Under m may P) : P (e.releasePlan slot x).net :=
  hc.frame ((Event.unclaim x.valves e).releaseOutage x).net _ rfl rfl (hc.unclaim h).releaseOutage.net

/-- Every command but resets, commits and transfers keeps a property of positions and outputs. -/
theorem exec_keeps_valves (i : Instr) (hc : ValveInvariant s.cfu.image may P) (hs : P s.net) (hmay : MayClose s i may)
    (hnet : replacesNet i = false) : ∃ t, exec i s = .next t ∧ P t.net := by
  have hstart {p : PortId} : (Event.start (renew p s)).Under s.cfu.image may P := ⟨hc.toField, rfl, hs⟩
  cases hlists : listsPlans i
  · exact exec_keeps_fields i hc.toField hs hmay hlists hnet
  · cases i
    case planCreate =>
      exact ⟨_, rfl, hc.toField.request (actPlanCreate_acts fun _ _ _ => hc.frame s.net _ rfl rfl hs) hs⟩
    case planAddValve =>
      exact ⟨_, rfl, hc.toField.request (actPlan_acts fun _ => addValve_acts fun _ => hc.editPlan
        (hc.claim hstart).net) hs⟩
    case planRemoveValve =>
      exact ⟨_, rfl, hc.toField.request (actPlan_acts fun _ => removeValve_acts fun _ =>
        hc.editPlan (hc.claim hstart).net) hs⟩
    case planRelease =>
      exact ⟨_, rfl, hc.toField.request (actPlan_acts fun _ => releasePlan_acts (hc.releasePlan hstart)) hs⟩
    all_goals simp [listsPlans] at hlists

end
end Sys2Proof.Machine
end

section
/-!
The outputs of every actuated valve follow its position (O20): placing a valve sets its own two outputs and no other
valve's (R6, R29), a commit seeds every output released and no valve on its way, and no other command touches either.
-/

namespace Sys2Proof.Machine

variable {s t : State}

/-! ### Output lines (R19) -/

theorem driveLine_same {n : Nat} (b : Bool) (o : BitVec 32) (h : n < 32) : (driveLine n b o).getLsbD n = b := by
  cases b <;> simp [driveLine, h]

theorem driveLine_other {k n : Nat} (b : Bool) (o : BitVec 32) (h : k ≠ n) :
    (driveLine n b o).getLsbD k = o.getLsbD k := by
  cases b
  · simp only [driveLine, Bool.false_eq_true, if_false, BitVec.getLsbD_and, BitVec.getLsbD_not, BitVec.getLsbD_twoPow]
    by_cases hk : k < 32
    · simp [hk, h.symm]
    · simp [hk, BitVec.getLsbD_of_ge _ _ (Nat.le_of_not_lt hk)]
  · simp [driveLine, h.symm]

/-- The two outputs of an actuated valve as its position has them (Table 2-4). -/
theorem settleOutputs_own {d : ValveDef} {c p : Nat} (x : Position) (o : BitVec 32) (hd : d.kind = .actuated)
    (hclose : d.closeOutput = some c) (hopen : d.openOutput = some p) (hcp : c ≠ p) (hc : c < 32) (hp : p < 32) :
    (settleOutputs d x o).getLsbD c = (x == .closing) ∧ (settleOutputs d x o).getLsbD p = (x == .opening) := by
  simp only [settleOutputs, hd, hclose, hopen]
  split
  · next hx =>
    rw [driveLine_same _ _ hc, driveLine_other _ _ hcp.symm, driveLine_same _ _ hp, hx]
    exact ⟨rfl, rfl⟩
  · next hx =>
    rw [driveLine_other _ _ hcp, driveLine_same _ _ hc, driveLine_same _ _ hp]
    exact ⟨by simp [hx], rfl⟩

theorem settleOutputs_other {d : ValveDef} {n : Nat} (x : Position) (o : BitVec 32)
    (hclose : d.kind = .actuated → d.closeOutput ≠ some n) (hopen : d.kind = .actuated → d.openOutput ≠ some n) :
    (settleOutputs d x o).getLsbD n = o.getLsbD n := by
  unfold settleOutputs
  split
  · next c p hkind hc hp =>
    have hnc : n ≠ c := fun h => hclose hkind (h ▸ hc)
    have hnp : n ≠ p := fun h => hopen hkind (h ▸ hp)
    split <;> simp [driveLine_other, hnc, hnp]
  · rfl

theorem settleOutputs_manual {d : ValveDef} (x : Position) (o : BitVec 32) (hd : d.kind = .manual) :
    settleOutputs d x o = o := by simp [settleOutputs, hd]

/-! ### What keeps the outputs in step -/

theorem lookup_placeValve (d : ValveDef) (v : Nat) (pos : Position) (k : Nat) (n : Net) (w : Nat) :
    lookup w (placeValve d v pos k n).valves
      = if w = v then (lookup w n.valves).map (fun y => { y with position := pos, travel := k })
        else lookup w n.valves := lookup_adjust _ _ _ _

theorem OutputsFollow.frame {m : Image} {n n' : Net} (hv : n'.valves = n.valves) (ho : n'.outputs = n.outputs)
    (h : OutputsFollow m n) : OutputsFollow m n' := by
  unfold OutputsFollow
  rw [hv, ho]
  exact h

theorem OutputsFollow.fields {m : Image} {n : Net} {v : Nat} {f : Valve → Valve}
    (hf : ∀ x, (f x).position = x.position) (h : OutputsFollow m n) :
    OutputsFollow m { n with valves := adjust v f n.valves } := by
  intro w d x c o hd hkind hx hc ho
  rw [lookup_adjust] at hx
  split at hx
  · obtain ⟨y, hy, rfl⟩ := Option.map_eq_some_iff.1 hx
    rw [hf]
    exact h w d y c o hd hkind hy hc ho
  · exact h w d x c o hd hkind hx hc ho

/-- Placing a valve sets its own outputs, which no other actuated valve has (R6). -/
theorem OutputsFollow.place {m : Image} {n : Net} {v : Nat} {d : ValveDef} {pos : Position} {k : Nat}
    (hdisjoint : OutputsDisjoint m) (hd : lookup v m.valves = some d) (h : OutputsFollow m n) :
    OutputsFollow m (placeValve d v pos k n) := by
  intro w e x c o he hkind hx hc ho
  obtain ⟨c', o', hc', ho', hne, hcl, hol, hothers⟩ := hdisjoint w e he hkind
  obtain rfl : c' = c := Option.some.inj (hc'.symm.trans hc)
  obtain rfl : o' = o := Option.some.inj (ho'.symm.trans ho)
  rw [lookup_placeValve] at hx
  split at hx
  · next hwv =>
    subst hwv
    obtain rfl : e = d := Option.some.inj (he.symm.trans hd)
    obtain ⟨y, _, rfl⟩ := Option.map_eq_some_iff.1 hx
    exact settleOutputs_own pos n.outputs hkind hc ho hne hcl hol
  · next hwv =>
    have hfollow := h w e x c' o' he hkind hx hc ho
    have hnamed : d.kind = .actuated → d.closeOutput ≠ some c' ∧ d.closeOutput ≠ some o' ∧ d.openOutput ≠ some c'
        ∧ d.openOutput ≠ some o' := hothers v d (Ne.symm hwv) hd
    have hclose : (settleOutputs d pos n.outputs).getLsbD c' = n.outputs.getLsbD c' :=
      settleOutputs_other pos _ (fun hk => (hnamed hk).1) (fun hk => (hnamed hk).2.2.1)
    have hopen : (settleOutputs d pos n.outputs).getLsbD o' = n.outputs.getLsbD o' :=
      settleOutputs_other pos _ (fun hk => (hnamed hk).2.1) (fun hk => (hnamed hk).2.2.2)
    exact ⟨hclose.trans hfollow.1, hopen.trans hfollow.2⟩

theorem outputsFollow_invariant {m : Image} (hdisjoint : OutputsDisjoint m) :
    ValveInvariant m (fun _ => True) (OutputsFollow m) where
  frame _ _ hv ho h := h.frame hv ho
  fields _ _ _ hf h := h.fields hf
  place _ _ _ _ _ hd _ h := h.place hdisjoint hd

/-! ### Commit (R6, R21, R189) -/

/-- Without an offender every record of a table passes its test. -/
theorem offenderIn_none_mem {α : Type} {kind : RecordKind} {ok : Nat → α → Bool} {l : Table α}
    (h : offenderIn kind ok l = none) {k : Nat} {d : α} (hm : (k, d) ∈ l) : ok k d = true := by
  induction l with
  | nil => simp at hm
  | cons y t ih =>
    obtain ⟨j, e⟩ := y
    unfold offenderIn at h
    split at h
    · next hok =>
      rcases List.mem_cons.1 hm with he | hm
      · obtain ⟨rfl, rfl⟩ := Prod.mk.inj he
        exact hok
      · exact ih h hm
    · simp at h

theorem offender_none_valves {m : Image} (h : offender m = none) :
    offenderIn .valve (validValve m) m.valves = none := by
  have hall : ∀ l : List (Option Offender), firstOf l = none → ∀ x ∈ l, x = none := by
    intro l hl
    induction l with
    | nil => simp
    | cons x t ih =>
      cases x with
      | none => exact fun y hy => (List.mem_cons.1 hy).elim id (ih hl y)
      | some o => simp [firstOf] at hl
  exact hall _ h _ (by simp)

/-- An actuated valve of a valid image has two outputs, which no actuated valve of lower index names (R6). -/
theorem validValve_outputs {m : Image} {k : Nat} {d : ValveDef} (h : validValve m k d = true)
    (hd : d.kind = .actuated) :
    ∃ c o, d.closeOutput = some c ∧ d.openOutput = some o ∧ c ≠ o ∧ c < 32 ∧ o < 32 ∧
      ∀ e ∈ actuatedBelow m k, e.closeOutput ≠ some c ∧ e.closeOutput ≠ some o ∧ e.openOutput ≠ some c
        ∧ e.openOutput ≠ some o := by
  have hact : validActuated m k d = true := by
    simp only [validValve, hd, Bool.and_eq_true] at h
    exact h.2
  unfold validActuated at hact
  split at hact
  · next t c o cl ol ht hc ho hcl hol =>
    simp only [Bool.and_eq_true, decide_eq_true_eq, bne_iff_ne, ne_eq, List.all_eq_true, Bool.not_eq_true', namesOutput,
      Bool.or_eq_false_iff, beq_eq_false_iff_ne] at hact
    obtain ⟨⟨⟨⟨⟨⟨⟨⟨⟨_, hc32⟩, ho32⟩, hne⟩, hbelow⟩, _⟩, _⟩, _⟩, _⟩, _⟩ := hact
    refine ⟨c, o, hc, ho, hne, hc32, ho32, fun e he => ?_⟩
    obtain ⟨⟨h1, h2⟩, h3, h4⟩ := hbelow e he
    exact ⟨h1, h3, h2, h4⟩
  · simp at hact

theorem outputsDisjoint_of_valid {m : Image} (h : offender m = none) : OutputsDisjoint m := by
  have hvalid {v : Nat} {d : ValveDef} (hd : lookup v m.valves = some d) : validValve m v d = true :=
    offenderIn_none_mem (offender_none_valves h) (mem_of_lookup hd)
  have hbelow {j k : Nat} {d : ValveDef} (hd : lookup j m.valves = some d) (hk : d.kind = .actuated) (hjk : j < k) :
      d ∈ actuatedBelow m k :=
    List.mem_map.2 ⟨(j, d), List.mem_filter.2 ⟨mem_of_lookup hd, by simp [hjk, hk]⟩, rfl⟩
  intro v d hd hkind
  obtain ⟨c, o, hc, ho, hne, hc32, ho32, hlower⟩ := validValve_outputs (hvalid hd) hkind
  refine ⟨c, o, hc, ho, hne, hc32, ho32, fun w e hw he hek => ?_⟩
  rcases Nat.lt_or_gt_of_ne hw with hlt | hgt
  · exact hlower e (hbelow he hek hlt)
  · obtain ⟨c', o', hc', ho', _, _, _, hlower'⟩ := validValve_outputs (hvalid he) hek
    obtain ⟨h1, h2, h3, h4⟩ := hlower' d (hbelow hd hkind hgt)
    rw [hc] at h1 h2
    rw [ho] at h3 h4
    rw [hc', ho']
    exact ⟨fun heq => h1 heq.symm, fun heq => h3 heq.symm, fun heq => h2 heq.symm, fun heq => h4 heq.symm⟩

/-- At commit no valve is on its way, and no output is driven (R19, R21). -/
theorem outputsFollow_seedNet (m : Image) (pins : BitVec 64) (uptime : Word) :
    OutputsFollow m (seedNet m pins uptime) := by
  intro v d x c o hd hkind hx hc ho
  have hx : lookup v (mapTable (fun _ d => seedValve (seedLines m pins) d) m.valves) = some x := hx
  rw [lookup_mapTable, hd] at hx
  have hpos : x.position ≠ .closing ∧ x.position ≠ .opening := by
    obtain rfl := Option.some.inj hx
    simp only [seedValve, hkind]
    cases levelIn (seedLines m pins) d.closedLimit <;> cases levelIn (seedLines m pins) d.openLimit <;> decide
  have hreleased (n : Nat) : (seedNet m pins uptime).outputs.getLsbD n = false := BitVec.getLsbD_zero
  simp [hreleased, hpos]

theorem commit_outputs {m : Image} (h : offender m = none) : OutputsSound (commit m s) := by
  intro _
  have hdisjoint := outputsDisjoint_of_valid h
  exact ⟨hdisjoint, commit_keeps (outputsFollow_invariant hdisjoint).toField (outputsFollow_seedNet m _ _)⟩

/-! ### Every command -/

/-- The part was in RUNNING if it now is, and the valves' definitions stand. -/
def RunsOn (s t : State) : Prop :=
  t.cfu.device = .running → s.cfu.device = .running ∧ t.cfu.image.valves = s.cfu.image.valves

theorem RunsOn.of_cfu (h : t.cfu = s.cfu) : RunsOn s t := fun hrun => by
  rw [h] at hrun ⊢
  exact ⟨hrun, rfl⟩

theorem request_runsOn {c : ReqClass} {p : PortId} {tag : Byte} {act : State → Answer}
    (hact : ∀ u, RunsOn s u → RunsOn s (act u).1) : RunsOn s (request c p tag act s) :=
  request_keeps (Q := RunsOn s) (fun _ _ _ h => h) hact (.of_cfu rfl)

theorem actBeginConfig_runsOn (p : PortId) {u : State} (h : RunsOn s u) : RunsOn s (actBeginConfig p u).1 := by
  unfold actBeginConfig
  split
  · exact fun hrun => nomatch hrun
  · split <;> exact h
  · exact h

theorem actAbandonConfig_runsOn {u : State} (h : RunsOn s u) : RunsOn s (actAbandonConfig u).1 := by
  unfold actAbandonConfig
  split
  · exact h
  · exact fun hrun => nomatch hrun

theorem actLoadRecords_runsOn (body : List Byte) {u : State} (h : RunsOn s u) : RunsOn s (actLoadRecords body u).1 := by
  unfold actLoadRecords
  split
  · exact h
  · next hdevice =>
    split
    · exact h
    · exact fun hrun => absurd hrun hdevice

/-- Commits apart, no command takes the part into RUNNING, and in RUNNING none changes the valves' definitions. -/
theorem exec_runsOn {i : Instr} (hi : ∀ p tag x, i ≠ .commitConfig p tag x) (hnot : ∀ p bits, i ≠ .transfer p bits)
    (h : exec i s = .next t) : RunsOn s t := by
  have hframe := unitFrames.1 i s t h
  cases i
  case transfer p bits => exact absurd rfl (hnot p bits)
  case commitConfig p tag x => exact absurd rfl (hi p tag x)
  case powerOnReset =>
    cases h
    exact fun hrun => nomatch hrun
  case lineReset =>
    cases h
    exact fun hrun => nomatch hrun
  case leaveReset =>
    intro hrun
    rw [hframe] at hrun ⊢
    exact ⟨hrun, rfl⟩
  case setLimits =>
    obtain ⟨l, hl, _⟩ := hframe
    intro hrun
    rw [hl] at hrun ⊢
    exact ⟨hrun, rfl⟩
  case beginConfig p tag =>
    cases h
    exact request_runsOn fun _ => actBeginConfig_runsOn p
  case abandonConfig p tag =>
    cases h
    exact request_runsOn fun _ => actAbandonConfig_runsOn
  case loadRecords p tag body =>
    cases h
    exact request_runsOn fun _ => actLoadRecords_runsOn body
  all_goals exact .of_cfu hframe

theorem OutputsSound.congr (h : OutputsSound s) (hm : t.cfu = s.cfu) (hn : t.net = s.net) : OutputsSound t := by
  unfold OutputsSound
  rw [hm, hn]
  exact h

theorem actCommitConfig_outputs (x : Half) (h : OutputsSound s) : OutputsSound (actCommitConfig x s).1 := by
  unfold actCommitConfig
  split
  · exact h
  · next hdevice =>
    split
    · exact fun hrun => absurd hrun hdevice
    · split
      · exact fun hrun => absurd hrun hdevice
      · next hvalid => exact commit_outputs hvalid

theorem OutputsDisjoint.congr {a b : Image} (hv : b.valves = a.valves) (h : OutputsDisjoint a) : OutputsDisjoint b := by
  unfold OutputsDisjoint
  rw [hv]
  exact h

theorem OutputsFollow.congr {a b : Image} {n : Net} (hv : b.valves = a.valves) (h : OutputsFollow a n) :
    OutputsFollow b n := by
  unfold OutputsFollow
  rw [hv]
  exact h

/-- A command that is not a transfer keeps the outputs in step with the valves. -/
theorem exec_outputs {i : Instr} (h : OutputsSound s) (hnot : ∀ p bits, i ≠ .transfer p bits)
    (he : exec i s = .next t) : OutputsSound t := by
  by_cases hcommit : ∃ p tag x, i = .commitConfig p tag x
  · obtain ⟨p, tag, x, rfl⟩ := hcommit
    cases he
    exact request_keeps (Q := OutputsSound) (fun _ _ _ h => h) (fun _ => actCommitConfig_outputs x) h
  · push Not at hcommit
    intro hrun
    obtain ⟨hsrun, hvalves⟩ := exec_runsOn hcommit hnot he hrun
    obtain ⟨hdisjoint, hfollow⟩ := h hsrun
    have hnet : replacesNet i = false := by
      cases i
      case powerOnReset | lineReset =>
        cases he
        cases hrun
      case transfer p bits => exact absurd rfl (hnot p bits)
      case commitConfig p tag x => exact absurd rfl (hcommit p tag x)
      all_goals rfl
    obtain ⟨u, hu, hkept⟩ := exec_keeps_valves i (outputsFollow_invariant hdisjoint) hfollow ⟨by simp, by simp⟩ hnet
    rw [hu] at he
    cases he
    exact ⟨hdisjoint.congr hvalves, hkept.congr hvalves⟩

theorem exec_keeps_outputs {i : Instr} (h : OutputsSound s) (he : exec i s = .next t) : OutputsSound t := by
  by_cases htransfer : ∃ p bits, i = .transfer p bits
  · obtain ⟨p, bits, rfl⟩ := htransfer
    cases he
    rcases transfer_cases p bits s with hports | ⟨c, _, hc, hec⟩
    · exact h.congr hports.cfu hports.net
    · have hshift := shiftOut_onlyPorts p bits.length s
      exact exec_outputs (h.congr hshift.cfu hshift.net) (by rintro q b rfl; cases hc) hec
  · push Not at htransfer
    exact exec_outputs h htransfer he

/-- Settles O20: at reset the part is in STANDBY, and every step keeps the outputs in step with the valves. -/
theorem outputsFollowTheValves : Obligations.OutputsFollowTheValves := by
  refine ⟨fun hrun => (by cases hrun), fun s t h he => ?_⟩
  unfold step at he
  split at he
  · cases he
    exact h
  · next c rest _ => exact exec_keeps_outputs (h.congr (t := { s with pending := rest }) rfl rfl) he

end Sys2Proof.Machine
end

section
/-!
A valve enters CLOSING only by a check that passes, or by the owner's retry of a HELD closure (O37).
-/

namespace Sys2Proof.Machine

variable {s t : State}

/-- A valve in CLOSING was so before, or is one of those that may enter it. -/
def ClosesOnly (a : Net) (may : Nat → Prop) (n : Net) : Prop :=
  ∀ v y, lookup v n.valves = some y → y.position = .closing →
    (∃ x, lookup v a.valves = some x ∧ x.position = .closing) ∨ may v

theorem closesOnly_invariant (m : Image) (a : Net) (may : Nat → Prop) : ValveInvariant m may (ClosesOnly a may) where
  frame n n' hv _ h := by
    intro v y hy
    exact h v y (hv ▸ hy)
  fields n v f hf h := by
    intro w y hy hclosing
    rw [lookup_adjust] at hy
    split at hy
    · obtain ⟨x, hx, rfl⟩ := Option.map_eq_some_iff.1 hy
      exact h w x hx (hf x ▸ hclosing)
    · exact h w y hy hclosing
  place n v d pos k _ hpos h := by
    intro w y hy hclosing
    rw [lookup_placeValve] at hy
    split at hy
    · next hwv =>
      obtain ⟨x, _, rfl⟩ := Option.map_eq_some_iff.1 hy
      exact .inr (hwv ▸ hpos hclosing)
    · exact h w y hy hclosing

/-- What takes a valve of a plan into CLOSING: the plan passes its check at a trial that completes with the revision of
its start, or it is HELD towards CLOSE and its owner's retry comes, by itself or in a transfer. -/
def SendsToClose (s : State) (i : Instr) (k : Nat) (p : Plan) : Prop :=
  (i = .trialCompletes ∧ ∃ snap closure, s.net.engine = .trial snap (.plan k) closure ∧ p.state = .checking
      ∧ snap.revision = s.net.topology ∧ PassesCheck s.net p (trialResult s.cfu.image snap closure))
    ∨ (p.state = .held ∧ p.direction = .closes
      ∧ ∃ port tag slot, slot.toNat = k ∧ p.owner = port ∧ Brings i (.planRetry port tag slot))

/-- The valves that a command may take into CLOSING. -/
def MayEnterClosing (s : State) (i : Instr) (v : Nat) : Prop :=
  ∃ k p, lookup k s.net.plans = some p ∧ v ∈ p.valves ∧ SendsToClose s i k p

/-- A command that runs by itself, or by a transfer that brings it. -/
theorem mayClose {i c : Instr} (hbrings : Brings i c) (hself : i = c ∨ isRequest c = true) :
    MayClose s c (MayEnterClosing s i) where
  retry p tag slot x hc hx howner hheld hcloses v hv := by
    subst hc
    exact ⟨slot.toNat, x, hx, hv, .inr ⟨hheld, hcloses, p, tag, slot, rfl, howner, hbrings⟩⟩
  check snap slot closure x hc hengine hx hstate hrevision hpasses v hv := by
    subst hc
    obtain rfl : i = .trialCompletes := hself.resolve_right Bool.false_ne_true
    exact ⟨slot, x, hx, hv, .inl ⟨rfl, snap, closure, hengine, hstate, hrevision, hpasses⟩⟩

theorem actCommitConfig_running (hrun : s.cfu.device = .running) (x : Half) : (actCommitConfig x s).1 = s := by
  simp [actCommitConfig, hrun, refuse]

/-- In RUNNING no command but a transfer takes another valve into CLOSING. -/
theorem exec_closesOnly {i c : Instr} (hrun : s.cfu.device = .running)
    (hmay : MayClose s c (MayEnterClosing t i)) (hnot : ∀ p bits, c ≠ .transfer p bits) {u : State}
    (he : exec c s = .next u) : ClosesOnly s.net (MayEnterClosing t i) u.net := by
  have hs : ClosesOnly s.net (MayEnterClosing t i) s.net := fun v y hy hclosing => .inl ⟨y, hy, hclosing⟩
  have hnone {n : Net} (hn : n.valves = []) : ClosesOnly s.net (MayEnterClosing t i) n := by
    intro v y hy
    rw [hn] at hy
    simp at hy
  cases hnet : replacesNet c
  · obtain ⟨w, hw, hkept⟩ := exec_keeps_valves c (closesOnly_invariant s.cfu.image s.net _) hs hmay hnet
    rw [hw] at he
    cases he
    exact hkept
  · cases c
    case powerOnReset | lineReset =>
      cases he
      exact hnone rfl
    case commitConfig p tag x =>
      cases he
      exact request_net_keeps ((congrArg (fun w => ClosesOnly s.net _ w.net)
        (actCommitConfig_running (s := renew p s) hrun x)).mpr hs) hs
    case transfer p bits => exact absurd rfl (hnot p bits)
    all_goals simp [replacesNet] at hnet

/-- In RUNNING a command takes no other valve into CLOSING. -/
theorem exec_closes {i : Instr} (hrun : s.cfu.device = .running) (he : exec i s = .next t) :
    ClosesOnly s.net (MayEnterClosing s i) t.net := by
  by_cases htransfer : ∃ p bits, i = .transfer p bits
  · obtain ⟨p, bits, rfl⟩ := htransfer
    cases he
    rcases transfer_cases p bits s with hports | ⟨c, hbrings, hc, hec⟩
    · rw [hports.net]
      exact fun v y hy hclosing => .inl ⟨y, hy, hclosing⟩
    · obtain ⟨hretry, hcheck⟩ := mayClose (s := s) hbrings (.inr hc)
      exact exec_closesOnly (s := shiftOut p bits.length s) hrun ⟨hretry, hcheck⟩
        (by rintro q b rfl; cases hc) hec
  · push Not at htransfer
    exact exec_closesOnly hrun (mayClose (.inl rfl) (.inl rfl)) htransfer he

/-- Settles O37: the valve that enters CLOSING is in the list of a plan that sends it there, and its claim names that
plan. -/
theorem valvesCloseOnlyAfterACheck : Obligations.ValvesCloseOnlyAfterACheck := by
  intro s t v x y _ hplans hrun hstep hx hy hbefore hafter
  unfold step at hstep
  split at hstep
  · cases hstep
    rw [hx] at hy
    obtain rfl := Option.some.inj hy
    exact absurd hafter hbefore
  · next i rest hpending =>
    have honly := exec_closes (s := { s with pending := rest }) hrun.2 hstep v y hy hafter
    rcases honly with ⟨z, hz, hclosing⟩ | ⟨k, p, hp, hv, hsends⟩
    · have hz : lookup v s.net.valves = some z := hz
      rw [hx] at hz
      obtain rfl := Option.some.inj hz
      exact absurd hclosing hbefore
    · exact ⟨i, rest, k, p, hpending, (hplans.claims v x k hx).2 ⟨p, hp, hv⟩, hp, hsends⟩

end Sys2Proof.Machine
end

section
/-!
Claims and lists (O38): a claim names the plan whose list holds the valve. The requests that make, list and free plans
write both sides; between the release of the claims and that of the record the plan's slot is no longer live.
-/

namespace Sys2Proof.Machine

variable {s t : State} {live : Nat → Prop} {n : Net}

/-! ### What holds of the lists -/

/-- A valve is in the list of the plan in a slot. -/
def Listed (l : Table Plan) (k v : Nat) : Prop := ∃ x, lookup k l = some x ∧ v ∈ x.valves

/-- Claims name the plans of live slots, by their lists, and every plan has the direction of its state. -/
structure Net.PlansAgree (live : Nat → Prop) (n : Net) : Prop where
  claims : ∀ v y k, lookup v n.valves = some y → (y.claim = some k ↔ live k ∧ Listed n.plans k v)
  directions : ∀ k x, lookup k n.plans = some x → x.Directed

/-- Where every slot is live, a claim says no more than the lists do. -/
theorem Net.PlansAgree.claim_iff (h : n.PlansAgree fun _ => True) {v k : Nat} {y : Valve}
    (hy : lookup v n.valves = some y) : y.claim = some k ↔ Listed n.plans k v := by
  simpa using h.claims v y k hy

theorem plansSound_iff : PlansSound s ↔ s.net.PlansAgree (fun _ => True) :=
  ⟨fun h => ⟨fun v y k hy => by simpa [Listed] using h.claims v y k hy, h.directions⟩,
    fun h => ⟨fun _ _ _ hy => h.claim_iff hy, h.directions⟩⟩

theorem listed_adjust {slot : Nat} {f : Plan → Plan} {l : Table Plan} {k v : Nat} :
    Listed (adjust slot f l) k v ↔ if k = slot then ∃ x, lookup k l = some x ∧ v ∈ (f x).valves else Listed l k v := by
  unfold Listed
  rw [lookup_adjust]
  split
  · simp [Option.map_eq_some_iff]
  · rfl

namespace Net.PlansAgree

/-- The plan records change, the lists do not. -/
theorem plans {l : Table Plan} (h : n.PlansAgree live) (hlisted : ∀ k v, Listed l k v ↔ Listed n.plans k v)
    (hdirected : ∀ k x, lookup k l = some x → x.Directed) : Net.PlansAgree live { n with plans := l } :=
  ⟨fun v y k hy => (h.claims v y k hy).trans (and_congr_right fun _ => (hlisted k v).symm), hdirected⟩

/-- The valve records change, the claims do not. -/
theorem valves {n' : Net} (h : n.PlansAgree live) (hp : n'.plans = n.plans)
    (hv : ∀ v y, lookup v n'.valves = some y → ∃ x, lookup v n.valves = some x ∧ y.claim = x.claim) :
    n'.PlansAgree live where
  claims v y k hy := by
    obtain ⟨x, hx, hclaim⟩ := hv v y hy
    rw [hclaim, hp]
    exact h.claims v x k hx
  directions k x hx := h.directions k x (hp ▸ hx)

theorem adjustValve {n' : Net} {w : Nat} {f : Valve → Valve} (h : n.PlansAgree live) (hp : n'.plans = n.plans)
    (hn : n'.valves = adjust w f n.valves) (hf : ∀ x, (f x).claim = x.claim) : n'.PlansAgree live := by
  refine h.valves hp fun v y hy => ?_
  rw [hn, lookup_adjust] at hy
  split at hy
  · obtain ⟨x, hx, rfl⟩ := Option.map_eq_some_iff.1 hy
    exact ⟨x, hx, hf x⟩
  · exact ⟨y, hy, rfl⟩

theorem quiet {l : Table Plan} (h : n.PlansAgree live) (hl : SameOrders n.plans l) :
    Net.PlansAgree live { n with plans := l } := by
  have hvalves {x y : Plan} (h : y.orders = x.orders) : x.valves = y.valves := (congrArg Prod.fst h).symm
  have hback {k : Nat} {x : Plan} (hx : lookup k l = some x) :
    ∃ y, lookup k n.plans = some y ∧ y.orders = x.orders := by
    simpa [hx, Option.map_eq_some_iff] using (hl k).symm
  have hforth {k : Nat} {x : Plan} (hx : lookup k n.plans = some x) :
    ∃ y, lookup k l = some y ∧ y.orders = x.orders := by
    simpa [hx, Option.map_eq_some_iff] using hl k
  refine h.plans (fun k v => ⟨?_, ?_⟩) fun k x hx => ?_
  · rintro ⟨x, hx, hv⟩
    obtain ⟨y, hy, horders⟩ := hback hx
    exact ⟨y, hy, hvalves horders ▸ hv⟩
  · rintro ⟨x, hx, hv⟩
    obtain ⟨y, hy, horders⟩ := hforth hx
    exact ⟨y, hy, hvalves horders ▸ hv⟩
  · obtain ⟨y, hy, horders⟩ := hback hx
    have hy := h.directions k y hy
    simp only [Plan.orders, Prod.mk.injEq] at horders
    obtain ⟨_, hstate, hdirection⟩ := horders
    unfold Plan.Directed at hy ⊢
    rwa [hstate, hdirection] at hy

theorem turn {slot : Nat} {f : Plan → Plan} (h : n.PlansAgree live) (hf : KeepsDirection slot f n.plans) :
    Net.PlansAgree live { n with plans := adjust slot f n.plans } := by
  refine h.plans (fun k v => ?_) fun k x hx => ?_
  · rw [listed_adjust]
    split
    · next hk =>
      subst hk
      exact exists_congr fun x => and_congr_right fun hx => (hf x hx).1 ▸ Iff.rfl
    · rfl
  · rw [lookup_adjust] at hx
    split at hx
    · next hk =>
      subst hk
      obtain ⟨y, hy, rfl⟩ := Option.map_eq_some_iff.1 hx
      exact (hf y hy).2 (h.directions k y hy)
    · exact h.directions k x hx

theorem invariant (m : Image) (live : Nat → Prop) : FieldInvariant m (fun _ => True) (Net.PlansAgree live) where
  frame _ _ hv _ hp h := h.valves hp fun _ y hy => ⟨y, hv ▸ hy, rfl⟩
  quiet _ _ hl h := h.quiet hl
  turn _ _ _ hf h := h.turn hf
  fields n _ _ hf h := h.adjustValve (n := n) rfl rfl fun x => (hf x).2
  place n _ _ _ _ _ _ h := h.adjustValve (n := n) rfl rfl fun _ => rfl

/-! ### Requests that write lists -/

/-- A plan takes a list that differs from its own at one valve, whose claim follows. -/
theorem relist {slot v : Nat} {x : Plan} {l : List Nat} {c : Option Nat} {f : Plan → Plan}
    (h : n.PlansAgree fun _ => True) (hx : lookup slot n.plans = some x)
    (hothers : ∀ y, lookup v n.valves = some y → ∀ k ≠ slot, ¬ Listed n.plans k v)
    (hc : ∀ k, c = some k ↔ k = slot ∧ v ∈ l) (hl : ∀ w ≠ v, w ∈ l ↔ w ∈ x.valves)
    (hf : ∀ q, (f q).valves = l ∧ (q.Directed → (f q).Directed)) :
    Net.PlansAgree (fun _ => True)
      { n with valves := adjust v (fun y => { y with claim := c }) n.valves, plans := adjust slot f n.plans } where
  claims w y k hy := by
    dsimp only at hy ⊢
    rw [lookup_adjust] at hy
    rw [listed_adjust, true_and]
    split at hy
    · next hw =>
      subst hw
      obtain ⟨z, hz, rfl⟩ := Option.map_eq_some_iff.1 hy
      rw [hc]
      split
      · next hk =>
        subst hk
        simp [hx, hf]
      · next hk => simp [hk, hothers z hz k hk]
    · next hw =>
      refine (h.claim_iff hy).trans ?_
      split
      · next hk =>
        subst hk
        simp [Listed, hx, hf, hl w hw]
      · rfl
  directions k q hq := by
    dsimp only at hq
    rw [lookup_adjust] at hq
    split at hq
    · obtain ⟨y, hy, rfl⟩ := Option.map_eq_some_iff.1 hq
      exact (hf y).2 (h.directions k y hy)
    · exact h.directions k q hq

end Net.PlansAgree

theorem editPlan_net (slot : Nat) (x : Plan) (l : List Nat) (e : Event) :
    ∃ f, (e.editPlan slot x l).net = { e.net with plans := adjust slot f e.net.plans }
      ∧ ∀ q, (f q).valves = l ∧ (q.Directed → (f q).Directed) := by
  unfold Event.editPlan
  split
  · exact ⟨_, rfl, fun q => ⟨rfl, fun _ => by simp [Plan.Directed]⟩⟩
  · exact ⟨_, rfl, fun q => ⟨rfl, id⟩⟩

/-- A claim and the list follow each other. -/
theorem claimEdit_agrees {slot v : Nat} {x : Plan} {l : List Nat} {c : Option Nat} {e : Event}
    (h : e.net.PlansAgree fun _ => True) (hx : lookup slot e.net.plans = some x)
    (hothers : ∀ y, lookup v e.net.valves = some y → ∀ k ≠ slot, ¬ Listed e.net.plans k v)
    (hc : ∀ k, c = some k ↔ k = slot ∧ v ∈ l)
    (hl : ∀ w ≠ v, w ∈ l ↔ w ∈ x.valves) : ((e.claim v c).editPlan slot x l).net.PlansAgree fun _ => True := by
  obtain ⟨f, hnet, hf⟩ := editPlan_net slot x l (e.claim v c)
  rw [hnet]
  exact h.relist hx hothers hc hl hf

theorem addValve_agrees {slot v : Nat} {x : Plan} (h : s.net.PlansAgree fun _ => True)
    (hx : lookup slot s.net.plans = some x) : Acts (Net.PlansAgree fun _ => True) s (addValve slot v x s) := by
  unfold addValve
  split
  · exact refuse_acts
  · next y hy =>
    split
    · exact refuse_acts
    · split
      · exact refuse_acts
      · split
        · exact .keeps _ _
        · next hclaim =>
          refine planTaken_acts (claimEdit_agrees h hx (fun z hz k _ hlisted => ?_) ?_ ?_)
          · obtain rfl := Option.some.inj (hy.symm.trans hz)
            have := (h.claim_iff hy).2 hlisted
            rw [hclaim] at this
            cases this
          · simp [eq_comm]
          · intro w hw
            simp [hw]

theorem removeValve_agrees {slot v : Nat} {x : Plan} (h : s.net.PlansAgree fun _ => True)
    (hx : lookup slot s.net.plans = some x) : Acts (Net.PlansAgree fun _ => True) s (removeValve slot v x s) := by
  unfold removeValve
  split
  · next hmem =>
    have hmem : v ∈ x.valves := by simpa using hmem
    refine planTaken_acts (claimEdit_agrees h hx (fun y hy k hk hlisted => ?_) ?_ ?_)
    · have hown := (h.claim_iff hy).2 ⟨x, hx, hmem⟩
      have hother := (h.claim_iff hy).2 hlisted
      exact hk (Option.some.inj (hother.symm.trans hown))
    · simp
    · intro w hw
      simp [hw]
  · exact refuse_acts

/-- A new plan lists no valve. -/
theorem actPlanCreate_agrees {p : PortId} {call : Nat} (h : s.net.PlansAgree fun _ => True) :
    Acts (Net.PlansAgree fun _ => True) s (actPlanCreate p call s) := by
  unfold actPlanCreate
  split
  · exact refuse_acts
  · split
    · exact refuse_acts
    · next slot hslot =>
      have hfree := (lowestFree_spec hslot).1
      refine taken_acts (h.plans (fun k v => ?_) fun k x hx => ?_)
      · by_cases hk : k = slot
        · subst hk
          simp [Listed, hfree, newPlan]
        · simp [Listed, lookup_put_other hk, Event.start]
      · by_cases hk : k = slot
        · subst hk
          rw [lookup_put_same] at hx
          obtain rfl := Option.some.inj hx
          simp [Plan.Directed, newPlan]
        · exact h.directions k x (lookup_put_other hk _ _ ▸ hx)

/-! ### Release -/

/-- The claims of the list are released; nothing else changes. -/
theorem unclaim_net (l : List Nat) (e : Event) :
    ∃ vs, (Event.unclaim l e).net = { e.net with valves := vs }
      ∧ ∀ w, lookup w vs = (lookup w e.net.valves).map (fun y => if w ∈ l then { y with claim := none } else y) := by
  induction l generalizing e with
  | nil => exact ⟨e.net.valves, rfl, fun w => by simp⟩
  | cons v t ih =>
    obtain ⟨vs, hnet, hvs⟩ := ih (e.claim v none)
    refine ⟨vs, hnet, fun w => ?_⟩
    rw [hvs]
    simp only [Event.claim, Event.setNet, lookup_adjust]
    by_cases hw : w = v
    · subst hw
      cases lookup w e.net.valves <;> simp
    · simp [hw]

/-- In canonical form a freed key has no record. -/
theorem lookup_remove_same {α : Type} {k : Nat} {l : Table α} (h : l.wf = true) : lookup k (remove k l) = none := by
  unfold Table.wf at h
  induction l with
  | nil => rfl
  | cons x t ih =>
    obtain ⟨j, w⟩ := x
    obtain ⟨hbelow, hrising⟩ := (keysRising_cons j (keys t)).1 h
    unfold remove
    split
    · next hj =>
      subst hj
      have hnot : j ∉ keys t := fun hmem => Nat.lt_irrefl j (hbelow j hmem)
      rw [mem_keys_iff_lookup] at hnot
      simpa using hnot
    · next hj => simp [lookup, hj, ih hrising]

/-- A plan whose valves' claims are released is no longer live. -/
theorem unclaim_agrees {slot : Nat} {x : Plan} {e : Event} (h : e.net.PlansAgree fun _ => True)
    (hx : lookup slot e.net.plans = some x) : (Event.unclaim x.valves e).net.PlansAgree (· ≠ slot) := by
  obtain ⟨vs, hnet, hvs⟩ := unclaim_net x.valves e
  rw [hnet]
  refine ⟨fun v y k hy => ?_, h.directions⟩
  dsimp only at hy ⊢
  rw [hvs] at hy
  obtain ⟨z, hz, rfl⟩ := Option.map_eq_some_iff.1 hy
  have hclaim (j : Nat) : z.claim = some j ↔ Listed e.net.plans j v := h.claim_iff hz
  have hslot : Listed e.net.plans slot v ↔ v ∈ x.valves := by simp [Listed, hx]
  split
  · next hv =>
    have hown := (hclaim slot).2 (hslot.2 hv)
    simp only [reduceCtorEq, false_iff, not_and]
    intro hk hlisted
    exact hk (Option.some.inj (((hclaim k).2 hlisted).symm.trans hown))
  · next hv =>
    rw [hclaim]
    refine ⟨fun hlisted => ⟨?_, hlisted⟩, And.right⟩
    rintro rfl
    exact hv (hslot.1 hlisted)

theorem Net.PlansAgree.freed {slot : Nat} (h : n.PlansAgree (· ≠ slot)) (hwf : n.plans.wf = true) :
    Net.PlansAgree (fun _ => True) { n with plans := remove slot n.plans } := by
  have hnone : lookup slot (remove slot n.plans) = none := lookup_remove_same hwf
  refine ⟨fun v y k hy => (h.claims v y k hy).trans ?_, fun k x hx => ?_⟩
  · by_cases hk : k = slot
    · subst hk
      simp [Listed, hnone]
    · simp [Listed, hk, lookup_remove_other hk]
  · by_cases hk : k = slot
    · subst hk
      rw [hnone] at hx
      cases hx
    · exact h.directions k x (lookup_remove_other hk _ ▸ hx)

theorem releasePlan_agrees {slot : Nat} {x : Plan} {e : Event} (htables : e.Tabled) (h : e.net.PlansAgree fun _ => True)
    (hx : lookup slot e.net.plans = some x) : (e.releasePlan slot x).net.PlansAgree fun _ => True := by
  have hfreed : (Event.unclaim x.valves e).Under e.image (fun _ => True) (Net.PlansAgree (· ≠ slot)) :=
    ⟨Net.PlansAgree.invariant _ _, Event.unclaim_grows (imageClosed e.image) _ e rfl, unclaim_agrees h hx⟩
  have hwf : ((Event.unclaim x.valves e).releaseOutage x).net.plans.wf = true := htables.unclaim.releaseOutage.plans.1
  exact hfreed.releaseOutage.net.freed hwf

/-! ### Every command -/

theorem net_reset_agrees {pins : BitVec 64} : Net.PlansAgree (fun _ => True) { Net.reset with pins := pins } :=
  ⟨fun _ _ _ hy => (nomatch hy), fun _ _ hx => (nomatch hx)⟩

/-- At commit no valve is claimed, and there is no plan. -/
theorem seedNet_agrees (m : Image) (pins : BitVec 64) (uptime : Word) :
    (seedNet m pins uptime).PlansAgree fun _ => True := by
  refine ⟨fun v y k hy => ?_, fun _ _ hx => nomatch hx⟩
  have hy : lookup v (mapTable (fun _ d => seedValve (seedLines m pins) d) m.valves) = some y := hy
  rw [lookup_mapTable] at hy
  obtain ⟨d, _, rfl⟩ := Option.map_eq_some_iff.1 hy
  have hnone : (seedValve (seedLines m pins) d).claim = none := by
    unfold seedValve
    split <;> rfl
  rw [hnone]
  exact ⟨fun h => (nomatch h), fun ⟨_, _, hx, _⟩ => (nomatch hx)⟩

theorem actCommitConfig_agrees (x : Half) (h : s.net.PlansAgree fun _ => True) :
    (actCommitConfig x s).1.net.PlansAgree fun _ => True := by
  unfold actCommitConfig
  split
  · exact h
  · split
    · exact h
    · split
      · exact h
      · exact commit_keeps (Net.PlansAgree.invariant _ _) (seedNet_agrees _ _ _)

/-- A command that is not a transfer keeps claims and lists in agreement. -/
theorem exec_agrees {i : Instr} (htables : TablesSound s) (h : s.net.PlansAgree fun _ => True)
    (hnot : ∀ p bits, i ≠ .transfer p bits) (he : exec i s = .next t) : t.net.PlansAgree fun _ => True := by
  have hc := Net.PlansAgree.invariant s.cfu.image fun _ => True
  by_cases hother : listsPlans i = false ∧ replacesNet i = false
  · obtain ⟨u, hu, hkept⟩ := exec_keeps_fields i hc h ⟨by simp, by simp⟩ hother.1 hother.2
    rw [hu] at he
    cases he
    exact hkept
  · cases i
    case powerOnReset | lineReset =>
      cases he
      exact net_reset_agrees
    case commitConfig p tag x =>
      cases he
      exact request_net_keeps (actCommitConfig_agrees (s := renew p s) x h) h
    case planCreate =>
      cases he
      exact hc.request (actPlanCreate_agrees h) h
    case planAddValve =>
      cases he
      exact hc.request (actPlan_acts_of fun _ hx _ _ => addValve_agrees h hx) h
    case planRemoveValve =>
      cases he
      exact hc.request (actPlan_acts_of fun _ hx _ _ => removeValve_agrees h hx) h
    case planRelease =>
      cases he
      exact hc.request (actPlan_acts_of fun _ hx _ _ => releasePlan_acts (releasePlan_agrees htables.net h hx)) h
    case transfer p bits => exact absurd rfl (hnot p bits)
    all_goals exact absurd ⟨rfl, rfl⟩ hother

theorem exec_keeps_plans {i : Instr} (htables : TablesSound s) (h : s.net.PlansAgree fun _ => True)
    (he : exec i s = .next t) : t.net.PlansAgree fun _ => True := by
  by_cases htransfer : ∃ p bits, i = .transfer p bits
  · obtain ⟨p, bits, rfl⟩ := htransfer
    cases he
    rcases transfer_cases p bits s with hports | ⟨c, _, hc, hec⟩
    · exact hports.net ▸ h
    · have hshift := shiftOut_onlyPorts p bits.length s
      exact exec_agrees (htables.congr (congrArg Cfu.image hshift.cfu) hshift.net) (hshift.net ▸ h)
        (by rintro q b rfl; cases hc) hec
  · push Not at htransfer
    exact exec_agrees htables h htransfer he

/-- Settles O38: the lists hold at reset, where no plan is, and every step keeps them. -/
theorem plansStaySound : Obligations.PlansStaySound := by
  refine ⟨plansSound_iff.2 net_reset_agrees, fun s t htables h he => plansSound_iff.2 ?_⟩
  have h := plansSound_iff.1 h
  unfold step at he
  split at he
  · cases he
    exact h
  · next i rest _ => exact exec_keeps_plans (htables.congr (t := { s with pending := rest }) rfl rfl) h he

end Sys2Proof.Machine
end

section
/-!
What the Valve Controller does to the network blocks, said once: setting a condition writes one field of one valve, a
report to a plan writes one plan record, and a valve that takes a position writes its record and its outputs, with a
change counted where the position is another (R22, R29, R33).
-/

namespace Sys2Proof.Machine

variable {e : Event} {v : Nat}

/-! ### Writes of one record -/

theorem adjust_congr {α : Type} {k : Nat} {f g : α → α} {t : Table α} (h : ∀ x, lookup k t = some x → f x = g x) :
    adjust k f t = adjust k g t := by
  induction t with
  | nil => rfl
  | cons y t ih =>
    obtain ⟨j, w⟩ := y
    by_cases hj : j = k
    · simp [adjust, hj, h w (by simp [lookup, hj])]
    · simpa [adjust, hj] using ih fun x hx => h x (by simpa [lookup, hj] using hx)

theorem adjust_id {α : Type} (k : Nat) (t : Table α) : adjust k (fun x => x) t = t := by
  induction t with
  | nil => rfl
  | cons y t ih =>
    obtain ⟨j, w⟩ := y
    by_cases hj : j = k <;> simp [adjust, hj, ih]

theorem adjust_of_same {α : Type} {k : Nat} {f : α → α} {t : Table α} (h : ∀ x, lookup k t = some x → f x = x) :
    adjust k f t = t := (adjust_congr h).trans (adjust_id k t)

theorem adjust_adjust {α : Type} (k : Nat) (f g : α → α) (t : Table α) :
    adjust k g (adjust k f t) = adjust k (fun x => g (f x)) t := by
  induction t with
  | nil => rfl
  | cons y t ih => by_cases hj : y.1 = k <;> simp [adjust, hj, ih]

/-! ### Conditions of a valve (R33, R34) -/

theorem setStuck_net (v : Nat) (b : Bool) (e : Event) :
    (e.setStuck v b).net = { e.net with valves := adjust v (fun y => { y with stuck := b }) e.net.valves } := by
  unfold Event.setStuck
  split
  · next hnone => rw [adjust_of_same (by simp [hnone])]
  · next x hx =>
    split
    · next hb => rw [adjust_of_same (by rintro y hy; cases hx.symm.trans hy; simp [← hb])]
    · rfl

theorem setUncommanded_net (v : Nat) (b : Bool) (e : Event) :
    (e.setUncommanded v b).net =
      { e.net with valves := adjust v (fun y => { y with uncommanded := b }) e.net.valves } := by
  unfold Event.setUncommanded
  split
  · next hnone => rw [adjust_of_same (by simp [hnone])]
  · next x hx =>
    split
    · next hb => rw [adjust_of_same (by rintro y hy; cases hx.symm.trans hy; simp [← hb])]
    · rfl

theorem setConflict_net (v : Nat) (b : Bool) (e : Event) :
    (e.setConflict v b).net = { e.net with valves := adjust v (fun y => { y with conflict := b }) e.net.valves } := by
  unfold Event.setConflict
  split
  · next hnone => rw [adjust_of_same (by simp [hnone])]
  · next x hx =>
    split
    · next hb => rw [adjust_of_same (by rintro y hy; cases hx.symm.trans hy; simp [← hb])]
    · rfl

@[simp] theorem setStuck_image (v : Nat) (b : Bool) (e : Event) : (e.setStuck v b).image = e.image :=
  Event.setStuck_grows (imageClosed e.image) v b e rfl

@[simp] theorem setUncommanded_image (v : Nat) (b : Bool) (e : Event) : (e.setUncommanded v b).image = e.image :=
  Event.setUncommanded_grows (imageClosed e.image) v b e rfl

@[simp] theorem setConflict_image (v : Nat) (b : Bool) (e : Event) : (e.setConflict v b).image = e.image :=
  Event.setConflict_grows (imageClosed e.image) v b e rfl

/-- VALVE_STUCK once a valve has come to a position (R33). -/
def stuckAfter (pos : Position) (b : Bool) : Bool :=
  match pos with
  | .stuck => true
  | .opened => false
  | .closed => false
  | _ => b

theorem stuckFollows_net (v : Nat) (pos : Position) (e : Event) : (e.stuckFollows v pos).net =
    { e.net with valves := adjust v (fun y => { y with stuck := stuckAfter pos y.stuck }) e.net.valves } := by
  cases pos
  case stuck => exact setStuck_net v true e
  case opened => exact setStuck_net v false e
  case closed => exact setStuck_net v false e
  all_goals exact congrArg (fun l => { e.net with valves := l }) (adjust_id v e.net.valves).symm

/-! ### Reports to a plan (R72 to R78) -/

/-- A report changes nothing, or turns the plan once. -/
theorem planReport_cases (slot : Nat) (moved : Option Position) (outcome : Option Ending) (e : Event) :
    e.planReport slot moved outcome = e ∨ ∃ r f, e.planReport slot moved outcome = e.plan slot r false f := by
  have hmoving (p : Plan) (d : Direction) :
      e.movingReport slot p d moved outcome = e ∨ ∃ r f,
        e.movingReport slot p d moved outcome = e.plan slot r false f := by
    unfold Event.movingReport
    split
    · exact .inr ⟨_, _, rfl⟩
    · split
      · exact .inr ⟨_, _, rfl⟩
      · exact .inl rfl
  have hsettled (d : Direction) :
      e.settledReport slot d moved = e ∨ ∃ r f, e.settledReport slot d moved = e.plan slot r false f := by
    cases moved with
    | none => exact .inl rfl
    | some y => exact .inr ⟨_, _, rfl⟩
  unfold Event.planReport
  split
  · exact .inl rfl
  · next p _ =>
    split
    · exact hmoving p _
    · exact hmoving p _
    · exact hsettled _
    · exact hsettled _
    · unfold Event.heldReport
      split
      · exact .inr ⟨_, _, rfl⟩
      · exact .inl rfl
    all_goals exact .inl rfl

/-- A report writes the plan's own record, if any. -/
theorem planReport_net (slot : Nat) (moved : Option Position) (outcome : Option Ending) (e : Event) :
    ∃ f, (e.planReport slot moved outcome).net = { e.net with plans := adjust slot f e.net.plans } := by
  rcases planReport_cases slot moved outcome e with h | ⟨r, f, h⟩
  · exact ⟨_, by rw [h, adjust_id]⟩
  · exact ⟨f, by rw [h]; rfl⟩

theorem claimReport_net (claim : Option Nat) (moved : Option Position) (outcome : Option Ending) (e : Event) :
    ∃ l, (e.claimReport claim moved outcome).net = { e.net with plans := l } := by
  cases claim with
  | none => exact ⟨e.net.plans, rfl⟩
  | some k =>
    obtain ⟨f, hf⟩ := planReport_net k moved outcome e
    exact ⟨_, hf⟩

/-! ### A valve takes a position (R22, R29) -/

theorem KeepsField.refl (n : Net) : KeepsField n n := ⟨⟨rfl, rfl⟩, rfl, rfl, rfl, rfl, ⟨rfl, rfl⟩, rfl, rfl⟩

theorem KeepsField.trans {a b c : Net} (h : KeepsField a b) (h' : KeepsField b c) : KeepsField a c := by
  obtain ⟨⟨hpins, hlines⟩, hsources, hsupply, hsections, hpoints, ⟨houtages, hlast⟩, hcalls, hlastCall⟩ := h
  obtain ⟨⟨hpins', hlines'⟩, hsources', hsupply', hsections', hpoints', ⟨houtages', hlast'⟩, hcalls', hlastCall'⟩ := h'
  exact ⟨⟨hpins'.trans hpins, hlines'.trans hlines⟩, hsources'.trans hsources, hsupply'.trans hsupply,
    hsections'.trans hsections, hpoints'.trans hpoints, ⟨houtages'.trans houtages, hlast'.trans hlast⟩,
    hcalls'.trans hcalls, hlastCall'.trans hlastCall⟩

theorem EngineOnly.keepsField {a b : Net} (h : EngineOnly a b) : KeepsField a b :=
  ⟨⟨(congrArg Net.pins h :), (congrArg Net.lines h :)⟩, (congrArg Net.sources h :), (congrArg Net.supply h :),
    (congrArg Net.sections h :), (congrArg Net.points h :), ⟨(congrArg Net.outages h :), (congrArg Net.lastOutage h :)⟩,
    (congrArg Net.calls h :), (congrArg Net.lastCall h :)⟩

theorem countChange_topology (n : Net) : (countChange n).topology = n.topology + 1 := by
  unfold countChange
  dsimp only
  split <;> rfl

/-- A valve record once the valve has come to a position with a travel time. -/
def Valve.at (pos : Position) (k : Nat) (x : Valve) : Valve :=
  { x with position := pos, travel := k, stuck := if x.position = pos then x.stuck else stuckAfter pos x.stuck }

/-- One valve takes a position: its record and its outputs follow, and a change is counted. -/
structure TakesPosition (v : Nat) (x : Valve) (d : ValveDef) (pos : Position) (k : Nat) (a b : Net) : Prop where
  valves : b.valves = adjust v (fun y => y.at pos k) a.valves
  outputs : b.outputs = settleOutputs d pos a.outputs
  topology : b.topology = if x.position = pos then a.topology else a.topology + 1
  field : KeepsField a b

theorem moveValve_takes {x : Valve} {d : ValveDef} (hx : lookup v e.net.valves = some x)
    (hd : lookup v e.image.valves = some d) (pos : Position) (k : Nat) (outcome : Option Ending) :
    TakesPosition v x d pos k e.net (e.moveValve v pos k outcome).net := by
  have hrecord {g : Valve → Valve} (hg : g { x with position := pos, travel := k } = x.at pos k) :
      adjust v g (placeValve d v pos k e.net).valves = adjust v (fun y => y.at pos k) e.net.valves := by
    refine (adjust_adjust _ _ _ _).trans (adjust_congr fun y hy => ?_)
    cases hx.symm.trans hy
    exact hg
  simp only [Event.moveValve, hx, hd]
  split
  · next hpos =>
    have hsame := hrecord (g := fun y => y) (by simp [Valve.at, hpos])
    rw [adjust_id] at hsame
    have hplaced : TakesPosition v x d pos k e.net (placeValve d v pos k e.net) :=
      ⟨hsame, rfl, by simp [hpos, placeValve], .refl e.net⟩
    split
    · exact hplaced
    · next o =>
      obtain ⟨l, hl⟩ := claimReport_net x.claim none (some o) (e.setNet (placeValve d v pos k e.net))
      rw [hl]
      exact { hplaced with }
  · next hpos =>
    have hfollows := stuckFollows_net v pos (e.setNet (placeValve d v pos k e.net))
    set e1 := (e.setNet (placeValve d v pos k e.net)).stuckFollows v pos
    have hcounted := countChange_engineOnly e1.net
    obtain ⟨l, hl⟩ := claimReport_net x.claim (some pos) outcome
      (e1.changed.post .vlc (.valvePosition v pos x.claim) [])
    rw [hl]
    refine ⟨?_, ?_, ?_, (KeepsField.trans (b := e1.net) ?_ hcounted.keepsField :)⟩
    · refine hcounted.valves.trans ?_
      rw [hfollows]
      exact hrecord (by simp [Valve.at, hpos])
    · refine hcounted.outputs.trans ?_
      rw [hfollows]
      rfl
    · refine (countChange_topology e1.net).trans ?_
      rw [hfollows, if_neg hpos]
      rfl
    · rw [hfollows]
      exact .refl e.net

theorem TakesPosition.lookup_same {x : Valve} {d : ValveDef} {pos : Position} {k : Nat} {a b : Net}
    (h : TakesPosition v x d pos k a b) (hx : lookup v a.valves = some x) : lookup v b.valves = some (x.at pos k) := by
  rw [h.valves, lookup_adjust_same, hx]
  rfl

theorem TakesPosition.lookup_other {x : Valve} {d : ValveDef} {pos : Position} {k w : Nat} {a b : Net}
    (h : TakesPosition v x d pos k a b) (hw : w ≠ v) : lookup w b.valves = lookup w a.valves := by
  rw [h.valves, lookup_adjust_other hw]

/-- Notices stay posted. -/
theorem postsClosed (y : Block × Post) : EventClosed (fun e => y ∈ e.posts) where
  setNet _ _ h := h
  choices _ _ h := h
  report _ _ _ _ _ h := h
  post _ _ _ _ h := List.mem_append_left _ h
  markPlan _ _ _ _ _ _ h := h
  markReleased _ _ _ h := h
  markOutage n e h := by unfold Event.markOutage; split <;> exact h
  markClosed _ _ _ h := h
  markCall n e h := by unfold Event.markCall; split <;> exact h
  markFreed _ _ _ h := h

/-- A valve that comes to another position is announced. -/
theorem moveValve_posts {x : Valve} {d : ValveDef} (hx : lookup v e.net.valves = some x)
    (hd : lookup v e.image.valves = some d) {pos : Position} (hpos : x.position ≠ pos) (k : Nat)
    (outcome : Option Ending) :
    (Block.vlc, { body := .valvePosition v pos x.claim, also := [] }) ∈ (e.moveValve v pos k outcome).posts := by
  simp only [Event.moveValve, hx, hd, hpos, if_false]
  exact Event.claimReport_grows (postsClosed _) _ _ _ _ (by simp [Event.post])

end Sys2Proof.Machine
end

section
/-!
Orders and limit reports (O18, O19): an order first clears UNCOMMANDED_MOVE, then the valve stays, or takes the position
of the order's end or of its way there (R25, R29); a limit report at most sets a condition and has the valve take the
position that the pair of limits gives (R30, R32, R34).
-/

namespace Sys2Proof.Machine

variable {e : Event} {v : Nat} {x : Valve} {d : ValveDef} {dir : Direction}

/-! ### Outputs at rest and on the way -/

theorem endOf_ne_opening (dir : Direction) : endOf dir ≠ .opening := by cases dir <;> decide

theorem travelOf_eq_closing (dir : Direction) : (travelOf dir == .closing) = (dir == .closes) := by cases dir <;> rfl

theorem travelOf_eq_opening (dir : Direction) : (travelOf dir == .opening) = (dir == .opens) := by cases dir <;> rfl

theorem driveLine_release (k n : Nat) (o : BitVec 32) :
    (driveLine n false o).getLsbD k = (decide (k ≠ n) && o.getLsbD k) := by
  by_cases hk : k = n
  · subst hk
    by_cases h : k < 32
    · simp [driveLine, h]
    · simp [driveLine, BitVec.getLsbD_of_ge _ _ (Nat.le_of_not_lt h)]
  · simp [driveLine_other false o hk, hk]

/-- Away from CLOSING and OPENING both outputs of an actuated valve are released. -/
theorem settleOutputs_released {c p : Nat} {pos : Position} (o : BitVec 32) (hd : d.kind = .actuated)
    (hclose : d.closeOutput = some c) (hopen : d.openOutput = some p) (hclosing : pos ≠ .closing)
    (hopening : pos ≠ .opening) :
    (settleOutputs d pos o).getLsbD c = false ∧ (settleOutputs d pos o).getLsbD p = false := by
  have hpos : (pos == .opening) = false := by simpa using hopening
  simp [settleOutputs, hd, hclose, hopen, hclosing, hpos, driveLine_release]

/-! ### Orders (R25, R29) -/

/-- The event once UNCOMMANDED_MOVE is cleared: nothing else differs. -/
theorem cleared_lookup (hx : lookup v e.net.valves = some x) :
    lookup v (e.setUncommanded v false).net.valves = some { x with uncommanded := false } := by
  simp [setUncommanded_net, hx]

theorem cleared_lookup_other {w : Nat} (b : Bool) (hw : w ≠ v) :
    lookup w (e.setUncommanded v b).net.valves = lookup w e.net.valves := by
  simp [setUncommanded_net, lookup_adjust_other hw]

theorem cleared_outputs (b : Bool) : (e.setUncommanded v b).net.outputs = e.net.outputs := by rw [setUncommanded_net]

theorem cleared_limitPair (b : Bool) : limitPair d (e.setUncommanded v b).net = limitPair d e.net := by
  rw [setUncommanded_net]
  rfl

/-- An order to a valve that is to stay: UNCOMMANDED_MOVE is cleared, and nothing else of the field changes. -/
structure ClearsOnly (v : Nat) (a b : Net) : Prop where
  valves : b.valves = adjust v (fun y => { y with uncommanded := false }) a.valves
  outputs : b.outputs = a.outputs

theorem clearsOnly_of_plans {l : Table Plan} {n : Net} (h : n = { (e.setUncommanded v false).net with plans := l }) :
    ClearsOnly v e.net n := by
  rw [h, setUncommanded_net]
  exact ⟨rfl, rfl⟩

theorem clearsOnly_self : ClearsOnly v e.net (e.setUncommanded v false).net :=
  clearsOnly_of_plans (l := (e.setUncommanded v false).net.plans) rfl

/-- An order's valve takes a position once UNCOMMANDED_MOVE is cleared. -/
def OrderTakes (v : Nat) (x : Valve) (d : ValveDef) (pos : Position) (k : Nat) (e : Event) (n : Net) : Prop :=
  TakesPosition v { x with uncommanded := false } d pos k (e.setUncommanded v false).net n

theorem order_takes (hx : lookup v e.net.valves = some x) (hd : lookup v e.image.valves = some d) (pos : Position)
    (k : Nat) (o : Option Ending) : OrderTakes v x d pos k e ((e.setUncommanded v false).moveValve v pos k o).net :=
  moveValve_takes (cleared_lookup hx) (by simpa using hd) pos k o

theorem order_manual (hx : lookup v e.net.valves = some x) (hd : lookup v e.image.valves = some d)
    (hkind : d.kind = .manual) :
    if x.position = endOf dir ∨ x.position = travelOf dir then ClearsOnly v e.net (e.order dir v).net
    else OrderTakes v x d (travelOf dir) 0 e (e.order dir v).net := by
  simp only [Event.order, hx, hd, hkind, Event.orderManual]
  by_cases hend : x.position = endOf dir
  · obtain ⟨l, hl⟩ := claimReport_net x.claim none (some .done) (e.setUncommanded v false)
    simpa [hend] using clearsOnly_of_plans hl
  · by_cases htravel : x.position = travelOf dir
    · rw [if_pos (.inr htravel), if_neg hend, if_pos htravel]
      exact clearsOnly_self
    · rw [if_neg (by simp [hend, htravel]), if_neg hend, if_neg htravel]
      exact order_takes hx hd _ _ _

theorem order_actuated (hx : lookup v e.net.valves = some x) (hd : lookup v e.image.valves = some d)
    (hkind : d.kind = .actuated) :
    if x.position = endOf dir ∨ shownBy (limitPair d e.net) = some (endOf dir) then
      OrderTakes v x d (endOf dir) 0 e (e.order dir v).net
    else if x.position = travelOf dir then ClearsOnly v e.net (e.order dir v).net
    else OrderTakes v x d (travelOf dir) (d.timeout.getD 0) e (e.order dir v).net := by
  simp only [Event.order, hx, hd, hkind, Event.orderActuated, cleared_limitPair]
  by_cases hend : x.position = endOf dir ∨ shownBy (limitPair d e.net) = some (endOf dir)
  · simpa [hend, hend.symm] using order_takes hx hd _ _ _
  · have hend' : ¬ (shownBy (limitPair d e.net) = some (endOf dir) ∨ x.position = endOf dir) := fun h => hend h.symm
    by_cases htravel : x.position = travelOf dir
    · simpa only [if_neg hend, if_neg hend', if_pos htravel] using clearsOnly_self
    · simpa only [if_neg hend, if_neg hend', if_neg htravel] using order_takes hx hd _ _ _

section
variable {n : Net}

theorem ClearsOnly.lookup (h : ClearsOnly v e.net n) (hx : lookup v e.net.valves = some x) :
    lookup v n.valves = some { x with uncommanded := false } := by simp [h.valves, hx]

theorem OrderTakes.lookup {pos : Position} {k : Nat} (h : OrderTakes v x d pos k e n)
    (hx : lookup v e.net.valves = some x) :
    lookup v n.valves = some (Valve.at pos k { x with uncommanded := false }) :=
  h.lookup_same (cleared_lookup hx)

theorem OrderTakes.outputs {pos : Position} {k : Nat} (h : OrderTakes v x d pos k e n) :
    n.outputs = settleOutputs d pos e.net.outputs := by
  rw [TakesPosition.outputs h, cleared_outputs]

end

/-- What any order leaves: the other valves, and UNCOMMANDED_MOVE cleared. -/
structure OrderLeaves (v : Nat) (a b : Net) : Prop where
  others : ∀ w, w ≠ v → lookup w b.valves = lookup w a.valves
  uncommanded : (lookup v b.valves).map Valve.uncommanded = some false

theorem ClearsOnly.leaves {n : Net} (h : ClearsOnly v e.net n) (hx : Machine.lookup v e.net.valves = some x) :
    OrderLeaves v e.net n where
  others w hw := by rw [h.valves, lookup_adjust_other hw]
  uncommanded := by rw [h.lookup hx]; rfl

theorem OrderTakes.leaves {n : Net} {pos : Position} {k : Nat} (h : OrderTakes v x d pos k e n)
    (hx : Machine.lookup v e.net.valves = some x) : OrderLeaves v e.net n where
  others w hw := (h.lookup_other hw).trans (cleared_lookup_other false hw)
  uncommanded := by rw [h.lookup hx]; rfl

theorem order_leaves (hx : lookup v e.net.valves = some x) (hd : lookup v e.image.valves = some d) :
    OrderLeaves v e.net (e.order dir v).net := by
  cases hkind : d.kind with
  | manual =>
    have h := order_manual (dir := dir) hx hd hkind
    split at h
    · exact h.leaves hx
    · exact h.leaves hx
  | actuated =>
    have h := order_actuated (dir := dir) hx hd hkind
    split at h
    · exact h.leaves hx
    · split at h
      · exact h.leaves hx
      · exact h.leaves hx

/-- Settles O18: what an order makes of the valve, kind by kind. -/
theorem ordersSetValvesMoving : Obligations.OrdersSetValvesMoving := by
  intro e v x d dir hdir hx hd
  obtain ⟨hothers, huncommanded⟩ := order_leaves (dir := dir) hx hd
  refine ⟨hothers, fun hkind => ?_, fun c o t hkind hclose hopen htimeout hco hc ho => ?_, huncommanded⟩
  · have h := order_manual (dir := dir) hx hd hkind
    split at h
    · next hstays =>
      refine ⟨h.outputs, ?_⟩
      rw [h.lookup hx]
      rcases hstays with hend | htravel
      · simp [hend]
      · simp [htravel]
    · next hmoves =>
      have hend : x.position ≠ endOf dir := fun hend => hmoves (.inl hend)
      refine ⟨h.outputs.trans (settleOutputs_manual _ _ hkind), ?_⟩
      rw [h.lookup hx]
      simp [Valve.at, hend]
  · have h := order_actuated (dir := dir) hx hd hkind
    refine ⟨fun hend => ?_, fun hend htravel hshown => ?_, fun htravel hshown => ?_⟩
    · rw [if_pos hend] at h
      rw [h.lookup hx, h.outputs]
      exact ⟨rfl, settleOutputs_released _ hkind hclose hopen (endOf_ne_closing dir) (endOf_ne_opening dir)⟩
    · rw [if_neg (by simp [hend, hshown]), if_neg htravel] at h
      rw [h.lookup hx, h.outputs, htimeout]
      refine ⟨rfl, ?_⟩
      have hown := settleOutputs_own (travelOf dir) e.net.outputs hkind hclose hopen hco hc ho
      rwa [travelOf_eq_closing, travelOf_eq_opening] at hown
    · have hend : x.position ≠ endOf dir := by
        rw [htravel]
        cases dir with
        | unset => exact absurd rfl hdir
        | closes => decide
        | opens => decide
      rw [if_neg (by simp [hend, hshown]), if_pos htravel] at h
      rw [h.lookup hx]
      exact ⟨h.outputs, rfl⟩

/-! ### Limit reports (R30, R32, R34) -/

/-- What a limit report bears on: position, LIMIT_CONFLICT and UNCOMMANDED_MOVE. -/
def Valve.reported (y : Valve) : Position × Bool × Bool := (y.position, y.conflict, y.uncommanded)

theorem moveValve_reported (hx : lookup v e.net.valves = some x) (hd : lookup v e.image.valves = some d)
    (pos : Position)
    (k : Nat) (o : Option Ending) :
    (lookup v (e.moveValve v pos k o).net.valves).map Valve.reported = some (pos, x.conflict, x.uncommanded) := by
  rw [(moveValve_takes hx hd pos k o).lookup_same hx]
  rfl

/-- A position after LIMIT_CONFLICT is set. -/
theorem conflict_reported (hx : lookup v e.net.valves = some x) (hd : lookup v e.image.valves = some d) (b : Bool)
    (pos : Position) (o : Option Ending) :
    (lookup v ((e.setConflict v b).moveValve v pos 0 o).net.valves).map Valve.reported = some (pos, b, x.uncommanded) :=
  moveValve_reported (x := { x with conflict := b }) (by simp [setConflict_net, hx]) (by simpa using hd) pos 0 o

/-- A move that nobody commanded. -/
theorem uncommanded_reported (hx : lookup v e.net.valves = some x) (hd : lookup v e.image.valves = some d)
    (pos : Position) (o : Option Ending) :
    (lookup v ((e.setUncommanded v true).moveValve v pos 0 o).net.valves).map Valve.reported
      = some (pos, x.conflict, true) :=
  moveValve_reported (x := { x with uncommanded := true }) (by simp [setUncommanded_net, hx])
    (by simpa using hd) pos 0 o

theorem stays_reported (hx : lookup v e.net.valves = some x) :
    (lookup v e.net.valves).map Valve.reported = some (x.position, x.conflict, x.uncommanded) := by
  rw [hx]
  rfl

/-- Both limits ACTIVE. -/
theorem limitReport_both (hx : lookup v e.net.valves = some x) (hd : lookup v e.image.valves = some d)
    (hpair : limitPair d e.net = (true, true)) :
    (lookup v (e.limitReport v).net.valves).map Valve.reported = some (.unknown, true, x.uncommanded) := by
  simp only [Event.limitReport, hx, hd, hpair, Bool.and_self, if_true]
  exact conflict_reported hx hd _ _ _

/-- The report that ends a conflict. -/
theorem limitReport_ends (hx : lookup v e.net.valves = some x) (hd : lookup v e.image.valves = some d)
    (hpair : limitPair d e.net ≠ (true, true)) (hconflict : x.conflict = true) :
    (lookup v (e.limitReport v).net.valves).map Valve.reported
      = some ((shownBy (limitPair d e.net)).getD .unknown, false, x.uncommanded) := by
  have hone : ((limitPair d e.net).1 && (limitPair d e.net).2) = false := by
    rw [Bool.and_eq_false_iff]
    by_contra hboth
    simp only [not_or, Bool.not_eq_false] at hboth
    exact hpair (Prod.ext hboth.1 hboth.2)
  simp only [Event.limitReport, hx, hd, hone, hconflict, Bool.false_eq_true, if_false, if_true]
  exact conflict_reported hx hd _ _ _

section
variable (hx : lookup v e.net.valves = some x) (hd : lookup v e.image.valves = some d) (hconflict : x.conflict = false)
include hx hd hconflict

/-- No conflict stands, and the limits show CLOSED. -/
theorem limitReport_closed (hpair : limitPair d e.net = (true, false)) :
    (lookup v (e.limitReport v).net.valves).map Valve.reported =
      match x.position with
      | .closing | .stuck | .unknown => some (.closed, false, x.uncommanded)
      | .opened => some (.closed, false, true)
      | .opening | .closed => some (x.position, false, x.uncommanded) := by
  have hmove (o : Option Ending) := moveValve_reported hx hd .closed 0 o
  have huncommanded := uncommanded_reported hx hd .closed none
  have hstays := stays_reported hx
  rw [hconflict] at huncommanded hstays
  simp only [hconflict] at hmove
  simp only [Event.limitReport, hx, hd, hpair, hconflict, shownBy, Bool.and_false, Bool.false_eq_true, if_false,
    if_true]
  cases hpos : x.position with
  | closing => exact hmove _
  | stuck => simpa only [Event.restReport, hpos] using hmove none
  | unknown => simpa only [Event.restReport, hpos] using hmove none
  | opened => simpa only [Event.restReport, hpos] using huncommanded
  | opening => simpa only [hpos, Option.some.injEq, reduceCtorEq, if_false] using hstays
  | closed => simpa only [Event.restReport, hpos] using hstays

/-- No conflict stands, and the limits show OPEN. -/
theorem limitReport_opened (hpair : limitPair d e.net = (false, true)) :
    (lookup v (e.limitReport v).net.valves).map Valve.reported =
      match x.position with
      | .opening | .stuck | .unknown => some (.opened, false, x.uncommanded)
      | .closed => some (.opened, false, true)
      | .closing | .opened => some (x.position, false, x.uncommanded) := by
  have hmove (o : Option Ending) := moveValve_reported hx hd .opened 0 o
  have huncommanded := uncommanded_reported hx hd .opened none
  have hstays := stays_reported hx
  rw [hconflict] at huncommanded hstays
  simp only [hconflict] at hmove
  simp only [Event.limitReport, hx, hd, hpair, hconflict, shownBy, Bool.false_and, Bool.false_eq_true, if_false,
    if_true]
  cases hpos : x.position with
  | opening => exact hmove _
  | stuck => simpa only [Event.restReport, hpos] using hmove none
  | unknown => simpa only [Event.restReport, hpos] using hmove none
  | closed => simpa only [Event.restReport, hpos] using huncommanded
  | closing => simpa only [hpos, Option.some.injEq, reduceCtorEq, if_false] using hstays
  | opened => simpa only [Event.restReport, hpos] using hstays

/-- No conflict stands, and the limits show neither end. -/
theorem limitReport_neither (hpair : limitPair d e.net = (false, false)) :
    (lookup v (e.limitReport v).net.valves).map Valve.reported =
      match x.position with
      | .opened | .closed => some (.unknown, false, true)
      | _ => some (x.position, false, x.uncommanded) := by
  have huncommanded := uncommanded_reported hx hd .unknown none
  have hstays := stays_reported hx
  rw [hconflict] at huncommanded hstays
  simp only [Event.limitReport, hx, hd, hpair, hconflict, shownBy, Bool.false_and, Bool.false_eq_true, if_false]
  cases hpos : x.position with
  | opened => simpa only [Event.restReport, hpos] using huncommanded
  | closed => simpa only [Event.restReport, hpos] using huncommanded
  | closing => simpa only [hpos, reduceCtorEq, if_false] using hstays
  | opening => simpa only [hpos, reduceCtorEq, if_false] using hstays
  | stuck => simpa only [Event.restReport, hpos] using hstays
  | unknown => simpa only [Event.restReport, hpos] using hstays

end

/-- Settles O19: the pair of limits, and a conflict that stands, decide the case. -/
theorem limitReportsFollowTheLimits : Obligations.LimitReportsFollowTheLimits := by
  intro e v x d hx hd _
  refine ⟨limitReport_both hx hd, limitReport_ends hx hd,
    fun hconflict => ⟨fun hpair => ?_, fun hpair => ?_, fun hpair => ?_⟩⟩
  · have h := limitReport_closed hx hd hconflict hpair
    refine ⟨?_, ?_, ?_⟩
    · rintro (hpos | hpos | hpos) <;> (simp only [hpos] at h ⊢; exact h)
    · intro hpos
      simp only [hpos] at h
      exact h
    · rintro (hpos | hpos) <;> (simp only [hpos] at h ⊢; exact h)
  · have h := limitReport_opened hx hd hconflict hpair
    refine ⟨?_, ?_, ?_⟩
    · rintro (hpos | hpos | hpos) <;> (simp only [hpos] at h ⊢; exact h)
    · intro hpos
      simp only [hpos] at h
      exact h
    · rintro (hpos | hpos) <;> (simp only [hpos] at h ⊢; exact h)
  · have h := limitReport_neither hx hd hconflict hpair
    refine ⟨?_, fun hopened hclosed => ?_⟩
    · rintro (hpos | hpos) <;> (simp only [hpos] at h ⊢; exact h)
    · cases hpos : x.position with
      | opened => exact absurd hpos hopened
      | closed => exact absurd hpos hclosed
      | _ =>
        simp only [hpos] at h ⊢
        exact h

end Sys2Proof.Machine
end

section
/-!
Requests and expiries that have one valve take a position (O15 to O17): the crew's reports, VERIFY_POSITION and the end
of a travel time.
-/

namespace Sys2Proof.Machine

variable {s t : State} {v : Nat} {x : Valve} {d : ValveDef}

/-! ### An event of the part's own, and a request that is one event -/

/-- The end of an event writes reasons into plan records, and nothing else into the network blocks. -/
theorem event_net (f : Event → Event) (s : State) :
    ∃ l, (event f s).net = { (f (Event.start s)).net with plans := l } :=
  event_net_keeps (P := fun n => ∃ l, n = { (f (Event.start s)).net with plans := l })
    ⟨fun _ l ⟨_, hn⟩ => ⟨l, by rw [hn]⟩⟩ f s ⟨_, rfl⟩

/-- A request is taken, its effect one event. -/
structure TakesEvent (p : PortId) (tag : Byte) (st : Status) (body : List Byte) (f : Event → Event) (s t : State) :
    Prop where
  answered : Answered p tag st body t
  rest : KeepsRest (some p) s t
  net : t.net = (event f s).net
  alu : t.alu = (event f s).alu
  notified : ∀ c y b l, noticeClass y = some c → (b, { body := y, also := l }) ∈ (f (Event.start s)).posts →
    Notified c y s t

/-- What reaches a port in an event stands in its queue when the request is answered. -/
theorem Notified.respond {c : NoticeClass} {y : NoticeBody} {p : PortId} {tag : Byte} {st : Status} {body : List Byte}
    (h : Notified c y (renew p s) t) : Notified c y s (respond p tag st body t) := by
  intro q hq
  have hqueue := h q (by by_cases hqp : q = p <;> simpa [hqp] using hq)
  by_cases hqp : q = p <;> simpa [hqp] using hqueue

theorem request_takesEvent {i : Instr} {c : ReqClass} {p : PortId} {tag : Byte} {act : State → Answer}
    {f : Event → Event} {st : Status} {body : List Byte} {roles : List Role}
    (hi : exec i s = .next (request c p tag act s))
    (hsend : CanSend roles p s) (hroles : ∀ r ∈ roles, permits r c = true)
    (hact : act (renew p s) = (event f (renew p s), st, body)) :
    ∃ t, exec i s = .next t ∧ TakesEvent p tag st body f s t := by
  obtain ⟨heq, hanswered, hrest⟩ := taken_of c p tag act s roles st body _ _ hsend hroles hact
  refine ⟨_, hi, hanswered, hrest, ?_, ?_, fun k y b l hy hmem => ?_⟩
  · rw [heq]
    rfl
  · rw [heq]
    rfl
  · rw [heq]
    exact Notified.respond (finish_notified (f (Event.start (renew p s))) (renew p s) b y l k hy hmem)

theorem request_refused {i : Instr} {c : ReqClass} {p : PortId} {tag : Byte} {act : State → Answer} {st : Status}
    {body : List Byte} {roles : List Role} (hi : exec i s = .next (request c p tag act s)) (hsend : CanSend roles p s)
    (hroles : ∀ r ∈ roles, permits r c = true) (hact : act (renew p s) = (renew p s, st, body)) :
    Refused i p tag st body s :=
  refused_act hi hsend.1.1 (refusalOf_running c p s roles hsend hroles) hact

/-! ### Events that have one valve take a position -/

theorem TakesPosition.withPlans {pos : Position} {k : Nat} {a b : Net} {l : Table Plan}
    (h : TakesPosition v x d pos k a b) : TakesPosition v x d pos k a { b with plans := l } := { h with }

theorem event_takes (hx : lookup v s.net.valves = some x) (hd : lookup v s.cfu.image.valves = some d) (pos : Position)
    (k : Nat) (o : Option Ending) :
    TakesPosition v x d pos k s.net (event (fun e => e.moveValve v pos k o) s).net := by
  obtain ⟨l, hl⟩ := event_net (fun e => e.moveValve v pos k o) s
  rw [hl]
  exact (moveValve_takes (e := Event.start s) hx hd pos k o).withPlans

/-! ### The end of a travel time (R31) -/

/-- The expiry is a failed order: the valve takes STUCK. -/
theorem travelExpiry_event (hrun : Running s) (hx : lookup v s.net.valves = some x)
    (hd : lookup v s.cfu.image.valves = some d) (hkind : d.kind = .actuated)
    (hpos : x.position = .closing ∨ x.position = .opening) (htravel : x.travel = 0) :
    whenRunning (event fun e => e.travelExpiry v) s = event (fun e => e.moveValve v .stuck 0 (some .failed)) s := by
  have hx : lookup v (Event.start s).net.valves = some x := hx
  have hdriven : isDriven (Event.start s).image v x = true := by
    rcases hpos with hpos | hpos <;> simp [Event.start, isDriven, hd, hkind, hpos, isTravelling]
  have hexpires : (Event.start s).travelExpiry v = (Event.start s).moveValve v .stuck 0 (some .failed) := by
    simp [Event.travelExpiry, hx, hdriven, htravel]
  exact (whenRunning_running hrun).trans (congrArg (finish · s) hexpires)

/-- Settles O17: the expiry has the valve take STUCK, which releases its own outputs and no other. -/
theorem travelTimerExpirySticksTheValve : Obligations.TravelTimerExpirySticksTheValve := by
  intro s v x d c o hrun hx hd hkind hclose hopen hpos htravel
  have hstuck : x.position ≠ .stuck := by rcases hpos with hpos | hpos <;> simp [hpos]
  have hevent := travelExpiry_event hrun hx hd hkind hpos htravel
  have htakes := event_takes hx hd .stuck 0 (some .failed)
  obtain ⟨hreleased, hreleased'⟩ :=
    settleOutputs_released (pos := .stuck) s.net.outputs hkind hclose hopen (by decide) (by decide)
  obtain ⟨hlines, hsources, hsupply, hsections, hpoints, houtages, hcalls⟩ := htakes.field
  refine ⟨_, congrArg Host.Outcome.next hevent, event_rest _ _, ?_, fun w => htakes.lookup_other, ?_, ?_, ?_, ?_, ?_,
    hlines,
    hsources, hsupply, hsections, hpoints, houtages, hcalls⟩
  · simpa [Valve.at, hstuck, stuckAfter] using htakes.lookup_same hx
  · rw [htakes.outputs, hreleased]
  · rw [htakes.outputs, hreleased']
  · intro n hnc hno
    rw [htakes.outputs]
    exact settleOutputs_other _ _ (fun _ => by simp [hclose, Ne.symm hnc]) (fun _ => by simp [hopen, Ne.symm hno])
  · rw [htakes.topology, if_neg hstuck]
  · exact finish_notified _ _ _ _ [] _ rfl (moveValve_posts (e := Event.start s) hx hd hstuck 0 _)

/-! ### The crew's reports (R26, R27, R36) -/

section
variable {p : PortId} {tag : Byte} {k : Nat} {pl : Plan} {i : Instr} {act : Valve → Option (Event → Event)}

variable (hsend : CanSend [.switching] p s) (hx : lookup v s.net.valves = some x)
  (hd : lookup v s.cfu.image.valves = some d) (hkind : d.kind = .manual) (hclaim : x.claim = some k)
  (hpl : lookup k s.net.plans = some pl) (howner : pl.owner = p)
  (hi : exec i s = .next (request .plan p tag (actCrew p v act) s))
include hsend hx hd hkind hclaim hpl howner hi

/-- A crew request of the port whose plan claims the manual valve is judged by the valve's state. -/
theorem crew_refused (hact : act x = none) : Refused i p tag .wrongState [] s := by
  refine request_refused hi hsend (by simp [permits]) ?_
  simp [actCrew, hx, hd, hkind, hclaim, ownsClaim, hpl, howner, hact, refuse]

/-- The crew's report has the valve take a position, which the valve's plan hears of. -/
theorem crew_taken {pos : Position} {o : Ending} (hact : act x = some fun e => e.moveValve v pos 0 (some o)) :
    ∃ t, exec i s = .next t ∧ TakesEvent p tag .ok [] (fun e => e.moveValve v pos 0 (some o)) s t := by
  refine request_takesEvent hi hsend (by simp [permits]) ?_
  simp [actCrew, hx, hd, hkind, hclaim, ownsClaim, hpl, howner, hact, taken]

theorem crew_moves {pos : Position} {o : Ending} (hact : act x = some fun e => e.moveValve v pos 0 (some o))
    (hpos : x.position ≠ pos) :
    ∃ t, exec i s = .next t ∧ Answered p tag .ok [] t ∧ KeepsRest (some p) s t
      ∧ lookup v t.net.valves = some { x with position := pos, travel := 0, stuck := stuckAfter pos x.stuck }
      ∧ (∀ w, w ≠ v → lookup w t.net.valves = lookup w s.net.valves)
      ∧ t.net.outputs = s.net.outputs ∧ t.net.topology = s.net.topology + 1
      ∧ Notified .valve (.valvePosition v pos (some k)) s t
      ∧ KeepsLines s.net t.net ∧ t.net.sources = s.net.sources ∧ t.net.supply = s.net.supply
      ∧ t.net.sections = s.net.sections ∧ KeepsPoints s.net t.net ∧ KeepsOutages s.net t.net
        ∧ KeepsCalls s.net t.net := by
  obtain ⟨t, ht, htaken⟩ := crew_taken hsend hx hd hkind hclaim hpl howner hi hact
  have htakes : TakesPosition v x d pos 0 s.net t.net := htaken.net ▸ event_takes hx hd pos 0 (some o)
  refine ⟨t, ht, htaken.answered, htaken.rest, ?_, fun w => htakes.lookup_other, ?_, ?_, ?_, htakes.field⟩
  · simpa [Valve.at, hpos] using htakes.lookup_same hx
  · rw [htakes.outputs, settleOutputs_manual _ _ hkind]
  · rw [htakes.topology, if_neg hpos]
  · exact htaken.notified _ _ _ [] rfl (hclaim ▸ moveValve_posts (e := Event.start s) hx hd hpos 0 (some o))

end

/-- Settles O15: each report is taken in the positions of R26 and R27, and has the valve take the position it gives. -/
theorem crewReportsMoveTheValve : Obligations.CrewReportsMoveTheValve := by
  intro s p tag v x d k pl hsend hx hd hkind hclaim hpl howner
  refine ⟨fun hpos => ⟨?_, ?_, ?_⟩, fun hpos => ⟨?_, ?_⟩, fun hpos => ?_, fun hclosing hopening => ⟨?_, ?_⟩⟩
  · exact crew_moves (o := .done) hsend hx hd hkind hclaim hpl howner rfl
      (by simp [confirmClosedIn, hpos]) (by simp [hpos])
  · exact crew_moves (o := .failed) hsend hx hd hkind hclaim hpl howner rfl
      (by simp [confirmOpenIn, hpos]) (by simp [hpos])
  · exact crew_moves (o := .failed) hsend hx hd hkind hclaim hpl howner rfl
      (by simp [inoperableIn, hpos, isTravelling]) (by simp [hpos])
  · exact crew_moves (o := .done) hsend hx hd hkind hclaim hpl howner rfl
      (by simp [confirmOpenIn, hpos]) (by simp [hpos])
  · exact crew_moves (o := .failed) hsend hx hd hkind hclaim hpl howner rfl
      (by simp [inoperableIn, hpos, isTravelling]) (by simp [hpos])
  · exact crew_refused hsend hx hd hkind hclaim hpl howner rfl (by simp [confirmClosedIn, hpos])
  · exact crew_refused hsend hx hd hkind hclaim hpl howner rfl (by simp [confirmOpenIn, hclosing, hopening])
  · exact crew_refused hsend hx hd hkind hclaim hpl howner rfl
      (by simp [inoperableIn, hclosing, hopening, isTravelling])

/-! ### VERIFY_POSITION (R28, R36) -/

/-- The event once both conditions of the valve are cleared. -/
def Event.verifying (v : Nat) (e : Event) : Event := (e.setStuck v false).setUncommanded v false

theorem verifying_net (v : Nat) (e : Event) : (e.verifying v).net =
    { e.net with valves := adjust v (fun y => { y with stuck := false, uncommanded := false }) e.net.valves } := by
  rw [Event.verifying, setUncommanded_net, setStuck_net]
  exact congrArg (fun l => { e.net with valves := l }) (adjust_adjust _ _ _ _)

theorem verifying_image (v : Nat) (e : Event) : (e.verifying v).image = e.image := by simp [Event.verifying]

theorem verify_takes {e : Event} (hx : lookup v e.net.valves = some x) (hd : lookup v e.image.valves = some d)
    (y : Position) :
    TakesPosition v { x with stuck := false, uncommanded := false } d y 0 (e.verifying v).net (e.verify v y).net :=
  moveValve_takes (e := e.verifying v) (by simp [verifying_net, hx]) (by rwa [verifying_image]) y 0 none

theorem verify_posts {e : Event} (hx : lookup v e.net.valves = some x) (hd : lookup v e.image.valves = some d)
    {y : Position} (hy : x.position ≠ y) :
    (Block.vlc, { body := .valvePosition v y x.claim, also := [] }) ∈ (e.verify v y).posts :=
  moveValve_posts (e := e.verifying v) (x := { x with stuck := false, uncommanded := false })
    (by simp [verifying_net, hx]) (by rwa [verifying_image]) hy 0 none

/-- VERIFY_POSITION of a valve that no plan claims, or that the port's HELD plan claims, is taken. -/
theorem verifyPosition_taken {p : PortId} {tag : Byte} {v : Half} {arg : Byte} {y : Position}
    (hsend : CanSend [.switching] p s) (hx : lookup v.toNat s.net.valves = some x)
    (hd : lookup v.toNat s.cfu.image.valves = some d)
    (hstate : d.kind = .manual ∨ x.position = .stuck ∨ x.position = .unknown)
    (hclaim : x.claim = none
      ∨ ∃ k pl, x.claim = some k ∧ lookup k s.net.plans = some pl ∧ pl.owner = p ∧ pl.state = .held)
    (harg : (arg = 0 ∧ y = .opened) ∨ (arg = 1 ∧ y = .closed)) :
    ∃ t, exec (.verifyPosition p tag v arg) s = .next t
      ∧ TakesEvent p tag .ok [] (fun e => e.verify v.toNat y) s t := by
  refine request_takesEvent (c := .switching) (act := actVerify p v.toNat arg) rfl hsend (by simp [permits]) ?_
  have hargument : positionArgument arg = some y := by
    rcases harg with ⟨rfl, rfl⟩ | ⟨rfl, rfl⟩ <;> rfl
  have howned : ¬ (x.claim ≠ none ∧ ownsClaim p x.claim s.net = false) ∧ claimHeld x.claim s.net = true := by
    rcases hclaim with hnone | ⟨k, pl, hk, hpl, howner, hheld⟩
    · simp [hnone, claimHeld]
    · simp [hk, ownsClaim, claimHeld, hpl, howner, hheld]
  have htaken : ¬ (claimHeld x.claim s.net = false
      ∨ (d.kind = .actuated ∧ x.position ≠ .stuck ∧ x.position ≠ .unknown)) := by
    rintro (hnot | ⟨hkind, hstuck, hunknown⟩)
    · rw [howned.2] at hnot
      cases hnot
    · simp [hkind, hstuck, hunknown] at hstate
  have hx : lookup v.toNat (renew p s).net.valves = some x := hx
  have hd : lookup v.toNat (renew p s).cfu.image.valves = some d := hd
  simp only [actVerify, hx, hd, hargument]
  exact (if_neg howned.1).trans (if_neg htaken)

/-- Settles O16: the request clears both conditions, and the valve takes the position given. -/
theorem verifySetsThePosition : Obligations.VerifySetsThePosition := by
  intro s p tag v x d y arg hsend hx hd hstate hclaim harg
  obtain ⟨t, ht, htaken⟩ := verifyPosition_taken (tag := tag) hsend hx hd hstate hclaim harg
  obtain ⟨l, hl⟩ := event_net (fun e => e.verify v.toNat y) s
  have hnet := verifying_net v.toNat (Event.start s)
  have htakes : TakesPosition v.toNat { x with stuck := false, uncommanded := false } d y 0
      ((Event.start s).verifying v.toNat).net t.net := by
    rw [htaken.net, hl]
    exact (verify_takes (e := Event.start s) hx hd y).withPlans
  have hend : y ≠ .closing ∧ y ≠ .opening ∧ stuckAfter y false = false := by
    rcases harg with ⟨_, rfl⟩ | ⟨_, rfl⟩ <;> decide
  refine ⟨t, ht, htaken.answered, htaken.rest, ?_, fun w hw => ?_, fun hy => ?_, fun hy => ⟨?_, ?_⟩, fun hkind => ?_,
    fun c o hkind hclose hopen => ?_, ?_⟩
  · have hrecord := htakes.lookup_same (by rw [hnet, lookup_adjust_same]; exact congrArg _ hx)
    simpa [Valve.at, hend.2.2] using hrecord
  · rw [htakes.lookup_other hw, hnet]
    exact lookup_adjust_other hw _ _
  · rw [htakes.topology, if_pos hy, hnet]
    rfl
  · rw [htakes.topology, if_neg hy, hnet]
    rfl
  · exact htaken.notified _ _ _ [] rfl (verify_posts (e := Event.start s) hx hd hy)
  · rw [htakes.outputs, settleOutputs_manual _ _ hkind, hnet]
    rfl
  · rw [htakes.outputs]
    exact settleOutputs_released _ hkind hclose hopen hend.1 hend.2.1
  · have hfield := htakes.field
    rw [hnet] at hfield
    exact hfield

end Sys2Proof.Machine
end

section
/-!
Plan requests (O29): the checks of R59 passed, a request of the plan's owner is one event, in which the plan's own
record changes and its notice is in the making.
-/

namespace Sys2Proof.Machine

variable {s t : State} {p : PortId} {tag : Byte} {slot : Byte} {x : Plan}

/-! ### Requests of a plan's owner (R59) -/

section
variable {i : Instr} {takes : PlanState → Bool} {act : Plan → State → Answer}

theorem actPlan_owned (h : OwnsPlan p slot x s) (htakes : takes x.state = true) :
    actPlan p slot.toNat takes act s = act x s := by
  obtain ⟨_, hslot, hx, howner⟩ := h
  simp [actPlan, Nat.not_lt.2 (Nat.lt_succ_iff.1 hslot), hx, howner, htakes]

theorem actPlan_wrongState (h : OwnsPlan p slot x s) (htakes : takes x.state = false) :
    actPlan p slot.toNat takes act s = (s, .wrongState, []) := by
  obtain ⟨_, hslot, hx, howner⟩ := h
  simp [actPlan, Nat.not_lt.2 (Nat.lt_succ_iff.1 hslot), hx, howner, htakes, refuse]

theorem OwnsPlan.renew (h : OwnsPlan p slot x s) : OwnsPlan p slot x (renew p s) := by
  obtain ⟨⟨hrun, r, hr, hrole⟩, hslot, hx, howner⟩ := h
  exact ⟨⟨hrun, r, hr, by simpa using hrole⟩, hslot, hx, howner⟩

theorem plan_refused {st : Status} {body : List Byte} (h : OwnsPlan p slot x s) (htakes : takes x.state = true)
    (hi : exec i s = .next (request .plan p tag (actPlan p slot.toNat takes act) s))
    (hact : act x (renew p s) = (renew p s, st, body)) : Refused i p tag st body s :=
  request_refused hi h.1 (by simp [permits]) ((actPlan_owned h.renew htakes).trans hact)

theorem plan_wrongState (h : OwnsPlan p slot x s) (htakes : takes x.state = false)
    (hi : exec i s = .next (request .plan p tag (actPlan p slot.toNat takes act) s)) :
    Refused i p tag .wrongState [] s :=
  request_refused hi h.1 (by simp [permits]) (actPlan_wrongState h.renew htakes)

theorem plan_takesEvent {f : Event → Event} {st : Status} {body : List Byte} (h : OwnsPlan p slot x s)
    (htakes : takes x.state = true) (hi : exec i s = .next (request .plan p tag (actPlan p slot.toNat takes act) s))
    (hact : act x (renew p s) = (event f (renew p s), st, body)) :
    ∃ t, exec i s = .next t ∧ TakesEvent p tag st body f s t :=
  request_takesEvent hi h.1 (by simp [permits]) ((actPlan_owned h.renew htakes).trans hact)

end

/-! ### The end of an event that marks one plan, or none (R58) -/

/-- An event without reports leaves the alarm list. -/
theorem event_alu {f : Event → Event} (h : (f (Event.start s)).reports = []) : (event f s).alu = s.alu := by
  simp [event, finish, finishAsMade, finishWith, h, takeAll]

/-- The mark of a plan that one step of the event changes. -/
def markOf (slot : Nat) (r : Reason) (pin : Bool) (n : Net) : PlanMark :=
  { plan := slot, reason := r, pinned := pin, also := []
    before := (lookup slot n.plans).map (fun q => (q.state, q.owner, q.outage)), released := none }

theorem plan_marks {slot : Nat} {r : Reason} {pin : Bool} {f : Plan → Plan} {e : Event} (h : e.plans = []) :
    (e.plan slot r pin f).plans = [markOf slot r pin e.net] := by
  simp [Event.plan, Event.markPlan, h, markIn, markOf]

theorem event_unmarked {f : Event → Event} (h : (f (Event.start s)).plans = []) :
    (event f s).net = (f (Event.start s)).net := by
  simp [event, finish, h, writeReasons]

/-- A marked plan that differs in state, owner or link takes the mark's reason. -/
theorem event_marked {f : Event → Event} {slot : Nat} {r : Reason} {pin : Bool} {a : Net} {y : Plan}
    (hmark : (f (Event.start s)).plans = [markOf slot r pin a])
    (hy : lookup slot (f (Event.start s)).net.plans = some y)
    (hdiffers : (lookup slot a.plans).map (fun q => (q.state, q.owner, q.outage)) ≠ some (y.state, y.owner, y.outage)) :
    (event f s).net = { (f (Event.start s)).net with
      plans := adjust slot (fun q => { q with lastReason := r }) (f (Event.start s)).net.plans } := by
  have hposts : (markOf slot r pin a).posts (f (Event.start s)).net = true := by
    simp [PlanMark.posts, markOf, hy, Ne.symm hdiffers]
  simp [event, finish, hmark, writeReasons, hposts]
  rfl

/-! ### Edits of the list (R24, R61, R62) -/

/-- An edit of a valve list: a claim is set or released, and the list follows. -/
def listEdit (slot v : Nat) (x : Plan) (l : List Nat) (c : Option Nat) (e : Event) : Event :=
  (e.claim v c).editPlan slot x l

/-- What the edit makes of the plan's record. -/
def Plan.edited (l : List Nat) (q : Plan) : Plan :=
  if q.state = .assessed then
    { q with valves := l, state := .draft, consequence := none, accepted := false, lastReason := .requested }
  else { q with valves := l }

theorem listEdit_net {slot v : Nat} {l : List Nat} {c : Option Nat} (hx : lookup slot s.net.plans = some x) :
    (event (listEdit slot v x l c) s).net =
      { s.net with
        valves := adjust v (fun y => { y with claim := c }) s.net.valves
        plans := adjust slot (Plan.edited l) s.net.plans } := by
  have hedit {g : Plan → Plan} (hg : g x = x.edited l) :
    adjust slot g s.net.plans = adjust slot (Plan.edited l) s.net.plans :=
    adjust_congr fun y hy => by cases hx.symm.trans hy; exact hg
  have htwice {g h : Plan → Plan} (hg : h (g x) = x.edited l) :
      adjust slot h (adjust slot g s.net.plans) = adjust slot (Plan.edited l) s.net.plans :=
    (adjust_adjust _ _ _ _).trans (hedit (g := fun q => h (g q)) hg)
  by_cases hstate : x.state = .assessed
  · have hrun : listEdit slot v x l c (Event.start s) = ((Event.start s).claim v c).plan slot .requested true
        (fun q => { q with valves := l, state := .draft, consequence := none, accepted := false }) := if_pos hstate
    have hnet := congrArg Event.net hrun
    rw [event_marked (slot := slot) (r := .requested) (pin := true) (a := s.net)
      (y := { x with valves := l, state := .draft, consequence := none, accepted := false })
      (by rw [hrun]; exact plan_marks rfl)
      (by rw [hnet]; exact (lookup_adjust_same _ _ _).trans (by simp [Event.claim, Event.start, hx]))
      (by simp [hx, hstate]), hnet]
    rw [← htwice (g := fun q => { q with valves := l, state := .draft, consequence := none, accepted := false })
      (h := fun q => { q with lastReason := .requested }) (by simp [Plan.edited, hstate])]
    rfl
  · have hrun : listEdit slot v x l c (Event.start s) = ((Event.start s).claim v c).planQuietly slot
        (fun q => { q with valves := l }) := if_neg hstate
    rw [event_unmarked (by rw [hrun]; rfl), hrun,
      ← hedit (g := fun q => { q with valves := l }) (by simp [Plan.edited, hstate])]
    rfl

theorem listEdit_alu {slot v : Nat} {l : List Nat} {c : Option Nat} :
    (event (listEdit slot v x l c) s).alu = s.alu := by
  refine event_alu ?_
  unfold listEdit Event.editPlan
  split <;> rfl

/-- An edit that is taken, as the statement has it. -/
theorem listEdit_changes {i : Instr} {v : Nat} {act : Plan → State → Answer} {l : List Nat} {c : Option Nat}
    (h : OwnsPlan p slot x s) (hstate : x.state = .draft ∨ x.state = .assessed)
    (hi : exec i s = .next (request .plan p tag (actPlan p slot.toNat editable act) s))
    (hact : act x (renew p s) = (event (listEdit slot.toNat v x l c) (renew p s), .ok, [])) :
    ∃ t, exec i s = .next t ∧ Answered p tag .ok [] t ∧ KeepsRest (some p) s t ∧ t.alu = s.alu
      ∧ (x.state = .draft → lookup slot.toNat t.net.plans = some { x with valves := l })
      ∧ (x.state = .assessed → lookup slot.toNat t.net.plans = some
          { x with valves := l, state := .draft, consequence := none, accepted := false, lastReason := .requested })
      ∧ KeepsOtherPlans slot.toNat s.net t.net
      ∧ (∀ w, lookup w t.net.valves =
          (lookup w s.net.valves).map (fun y => if w = v then { y with claim := c } else y))
      ∧ t.net = { s.net with plans := t.net.plans, valves := t.net.valves } := by
  have heditable : editable x.state = true := by rcases hstate with hstate | hstate <;> simp [hstate, editable]
  obtain ⟨t, ht, htaken⟩ := plan_takesEvent h heditable hi hact
  have hx := h.2.2.1
  have hnet := htaken.net.trans (listEdit_net hx)
  refine ⟨t, ht, htaken.answered, htaken.rest, htaken.alu.trans listEdit_alu, fun hdraft => ?_, fun hassessed => ?_,
    fun k hk => ?_, fun w => ?_, ?_⟩
  · rw [hnet, lookup_adjust_same, hx]
    simp [Plan.edited, hdraft]
  · rw [hnet, lookup_adjust_same, hx]
    simp [Plan.edited, hassessed]
  · rw [hnet]
    exact lookup_adjust_other hk _ _
  · rw [hnet]
    refine (lookup_adjust _ _ _ _).trans ?_
    split <;> simp
  · rw [hnet]

/-- Settles O29: the checks of R61 and R62 in their order, and the edit where all of them pass. -/
theorem valveListHoldsTheClaims : Obligations.ValveListHoldsTheClaims := by
  intro s p tag slot v x howns hstate
  have heditable : editable x.state = true := by rcases hstate with hstate | hstate <;> simp [hstate, editable]
  refine ⟨fun hnone => ?_, fun y hy => ⟨fun hmem => ?_, fun hnew hfull => ?_, fun hnew hroom =>
    ⟨fun k z hk hz => ?_, fun hfree => ?_⟩⟩, fun hnew => ?_, fun hmem => ?_⟩
  · exact plan_refused howns heditable rfl (by simp [addValve, hnone, refuse])
  · exact plan_refused howns heditable rfl (by simp [addValve, hy, hmem, refuse])
  · exact plan_refused howns heditable rfl (by simp [addValve, hy, hnew, Config.planValves, hfull, refuse])
  · refine plan_refused howns heditable rfl ?_
    simp [addValve, hy, hnew, Config.planValves, hroom, hk, claimedBody, hz, opt8]
  · refine listEdit_changes howns hstate rfl ?_
    have hroom : ¬ 16 ≤ x.valves.length := by omega
    simp only [addValve, renew_net, hy, hfree, List.contains_eq_mem, hnew, decide_false, Bool.false_eq_true, if_false,
      Config.planValves, hroom]
    rfl
  · exact plan_refused howns heditable rfl (by simp [removeValve, hnew, refuse])
  · refine listEdit_changes howns hstate rfl ?_
    simp only [removeValve, List.contains_eq_mem, hmem, decide_true, if_true]
    rfl

end Sys2Proof.Machine
end

section
/-!
What a report makes of its plan (O34): a report turns the plan at most once, and the turn is announced with its reason
(R58, R72 to R78). A valve that takes a position brings its plan one such report, over the valve records as they then
stand.
-/

namespace Sys2Proof.Machine

variable {s t : State} {slot : Nat} {p : Plan} {moved : Option Position} {outcome : Option Ending}

/-! ### An event that turns one plan (R58) -/

/-- The notice of a marked plan reaches a port that is entitled to it. -/
theorem finish_planNotice {e : Event} {m : PlanMark} (hm : m ∈ e.plans) {n : Post}
    (hn : (Block.plt, n) ∈ planNotice e.net m) {q : PortId} (hq : entitled q (s.ports.get q) n = true) :
    NotifiedAt q n.body s (finish e s) := by
  refine deliverAll_reaches s.tbu.clock _ s.ports q n ?_ hq
  rw [mem_merge]
  exact ⟨.plt, by
    simp only [eventPosts, List.mem_append, List.mem_flatMap]
    exact .inl (.inl (.inl (.inr ⟨m, hm, hn⟩)))⟩

/-- The plan in a slot is turned: its record, its notice to the owner and to the subscribers, and nothing else. -/
structure PlanTurns (slot : Nat) (y : Plan) (r : Reason) (s t : State) : Prop where
  record : lookup slot t.net.plans = some { y with lastReason := r }
  others : KeepsOtherPlans slot s.net t.net
  rest : t.net = { s.net with plans := t.net.plans }
  alu : t.alu = s.alu
  owner : NotifiedAt y.owner (.planState slot (some y.state) r y.owner) s t
  subscribers : Notified .plan (.planState slot (some y.state) r y.owner) s t

theorem event_planTurns {F : Event → Event} {r : Reason} {pin : Bool} {f : Plan → Plan}
    (hF : F (Event.start s) = (Event.start s).plan slot r pin f) (hp : lookup slot s.net.plans = some p)
    (hstate : (f p).state ≠ p.state) :
    PlanTurns slot (f p) r s (event F s) := by
  have hmark : (F (Event.start s)).plans = [markOf slot r pin s.net] := by rw [hF]; exact plan_marks rfl
  have hafter : (F (Event.start s)).net = { s.net with plans := adjust slot f s.net.plans } := by rw [hF]; rfl
  have hturned : lookup slot (F (Event.start s)).net.plans = some (f p) := by simp [hafter, hp]
  have hdiffers : (lookup slot s.net.plans).map (fun q => (q.state, q.owner, q.outage))
      ≠ some ((f p).state, (f p).owner, (f p).outage) := by
    simp [hp, Ne.symm hstate]
  have hnet := event_marked hmark hturned hdiffers
  have hnotice : (Block.plt, { body := .planState slot (some (f p).state) r (f p).owner, also := [(f p).owner] })
      ∈ planNotice (F (Event.start s)).net (markOf slot r pin s.net) := by
    have hposts : (markOf slot r pin s.net).posts (F (Event.start s)).net = true := by
      simp [PlanMark.posts, markOf, hturned, Ne.symm hdiffers]
    simp only [planNotice, markOf, hturned] at hposts ⊢
    simp [hposts]
  have hmem : markOf slot r pin s.net ∈ (F (Event.start s)).plans := by simp [hmark]
  refine ⟨?_, fun k hk => ?_, ?_, event_alu (by rw [hF]; rfl), ?_, fun q hq => ?_⟩
  · rw [hnet]
    simp [hafter, hp]
  · rw [hnet, hafter]
    exact (lookup_adjust_other hk _ _).trans (lookup_adjust_other hk _ _)
  · rw [hnet, hafter]
  · exact finish_planNotice (e := F (Event.start s)) hmem hnotice (by simp [entitled])
  · exact finish_planNotice (e := F (Event.start s)) hmem hnotice (by simp [entitled, noticeClass, hq])

/-- An event without effect changes nothing at all. -/
theorem event_same {F : Event → Event} (hF : F (Event.start s) = Event.start s) : event F s = s :=
  (congrArg (finish · s) hF).trans rfl

/-! ### The rules of R72 to R78 -/

/-- The plan goes to a state and a direction, for a reason. -/
abbrev PlanGoes (slot : Nat) (p : Plan) (st : PlanState) (dir : Direction) (r : Reason) (s t : State) : Prop :=
  PlanTurns slot { p with state := st, direction := dir } r s t

theorem isFailure_iff (d : Direction) : isFailure d moved outcome = true
    ↔ outcome = some .failed ∨ ∃ y, moved = some y ∧ y ∉ [endOf d, travelOf d] := by
  cases moved <;> simp [isFailure]

section
variable (hp : lookup slot s.net.plans = some p)
include hp

/-- A plan whose orders are out: a failure holds it, its last valve settles it, and any other report leaves it. -/
theorem movingReport_event {d : Direction} (hstate : p.state = movingState d) (hd : d ≠ .unset) :
    let t := event (fun e => e.planReport slot moved outcome) s
    let fails := outcome = some .failed ∨ ∃ y, moved = some y ∧ y ∉ [endOf d, travelOf d]
    (fails → PlanGoes slot p .held d .valveFailed s t)
      ∧ (¬ fails → allAt s.net (endOf d) p.valves = true →
          PlanGoes slot p (settledState d) p.direction (settledReason d) s t)
      ∧ (¬ fails → allAt s.net (endOf d) p.valves = false → t = s) := by
  have hreport : (Event.start s).planReport slot moved outcome =
    (Event.start s).movingReport slot p d moved outcome := by
    have hp : lookup slot (Event.start s).net.plans = some p := hp
    cases d with
    | unset => exact absurd rfl hd
    | closes => simp [Event.planReport, hp, hstate, movingState]
    | opens => simp [Event.planReport, hp, hstate, movingState]
  have hmoving : p.state ≠ .held ∧ p.state ≠ settledState d := by
    cases d with
    | unset => exact absurd rfl hd
    | closes => simp [hstate, movingState, settledState]
    | opens => simp [hstate, movingState, settledState]
  refine ⟨fun hfails => ?_, fun hfails hall => ?_, fun hfails hall => ?_⟩
  · exact event_planTurns (hreport.trans (if_pos ((isFailure_iff d).2 hfails))) hp hmoving.1.symm
  · refine event_planTurns (f := fun q => { q with state := settledState d })
      (hreport.trans ((if_neg (fun h => hfails ((isFailure_iff d).1 h))).trans (if_pos hall))) hp hmoving.2.symm
  · exact event_same (hreport.trans ((if_neg (fun h => hfails ((isFailure_iff d).1 h))).trans
      (if_neg (by simpa [Event.start] using hall))))

/-- A settled plan: a valve that moves holds it. -/
theorem settledReport_event {d : Direction} (hstate : p.state = settledState d) (hd : d ≠ .unset) :
    let t := event (fun e => e.planReport slot moved outcome) s
    (moved ≠ none → PlanGoes slot p .held d .valveMoved s t) ∧ (moved = none → t = s) := by
  have hreport : (Event.start s).planReport slot moved outcome = (Event.start s).settledReport slot d moved := by
    have hp : lookup slot (Event.start s).net.plans = some p := hp
    cases d with
    | unset => exact absurd rfl hd
    | closes => simp [Event.planReport, hp, hstate, settledState]
    | opens => simp [Event.planReport, hp, hstate, settledState]
  have hsettled : p.state ≠ .held := by
    cases d with
    | unset => exact absurd rfl hd
    | closes => simp [hstate, settledState]
    | opens => simp [hstate, settledState]
  cases moved with
  | none => exact ⟨fun h => absurd rfl h, fun _ => event_same hreport⟩
  | some y => exact ⟨fun _ => event_planTurns hreport hp hsettled.symm, fun h => (nomatch h)⟩

/-- A HELD plan settles once every valve stands at the end of its direction. -/
theorem heldReport_event (hstate : p.state = .held) (hd : p.direction ≠ .unset) :
    let t := event (fun e => e.planReport slot moved outcome) s
    (allAt s.net (endOf p.direction) p.valves = true →
        PlanGoes slot p (settledState p.direction) p.direction (settledReason p.direction) s t)
      ∧ (allAt s.net (endOf p.direction) p.valves = false → t = s) := by
  have hreport : (Event.start s).planReport slot moved outcome = (Event.start s).heldReport slot p := by
    have hp : lookup slot (Event.start s).net.plans = some p := hp
    simp [Event.planReport, hp, hstate]
  have hsettled : settledState p.direction ≠ p.state := by
    cases hdir : p.direction with
    | unset => exact absurd hdir hd
    | closes => simp [hstate, settledState]
    | opens => simp [hstate, settledState]
  refine ⟨fun hall => ?_, fun hall => ?_⟩
  · exact event_planTurns (hreport.trans (if_pos ⟨hd, hall⟩)) hp hsettled
  · exact event_same (hreport.trans (if_neg fun h => Bool.false_ne_true (hall.symm.trans h.2)))

/-- A plan whose orders are not out keeps its record. -/
theorem idleReport_event
    (hstate : p.state = .draft ∨ p.state = .assessing ∨ p.state = .assessed ∨ p.state = .checking) :
    event (fun e => e.planReport slot moved outcome) s = s := by
  have hp : lookup slot (Event.start s).net.plans = some p := hp
  refine event_same ?_
  rcases hstate with h | h | h | h <;> simp [Event.planReport, hp, h]

end

/-! ### The report that a move brings (R22, R85) -/

/-- Two events agree on what a report to a plan reads and writes. -/
structure SameReport (a b : Event) : Prop where
  plans : a.net.plans = b.net.plans
  valves : a.net.valves = b.net.valves
  marks : a.plans = b.plans

namespace SameReport

variable {a b : Event}

theorem plan (h : SameReport a b) (slot : Nat) (r : Reason) (pin : Bool) (f : Plan → Plan) :
    SameReport (a.plan slot r pin f) (b.plan slot r pin f) where
  plans := congrArg (adjust slot f) h.plans
  valves := h.valves
  marks := by simp only [Event.plan, Event.markPlan, Event.setNet, h.plans, h.marks]

theorem allAt (h : SameReport a b) (pos : Position) (l : List Nat) : allAt a.net pos l = allAt b.net pos l := by
  simp only [Machine.allAt, positionAt, h.valves]

theorem movingReport (h : SameReport a b) (p : Plan) (d : Direction) :
    SameReport (a.movingReport slot p d moved outcome) (b.movingReport slot p d moved outcome) := by
  simp only [Event.movingReport, h.allAt]
  split
  · exact h.plan ..
  · split
    · exact h.plan ..
    · exact h

theorem settledReport (h : SameReport a b) (d : Direction) :
    SameReport (a.settledReport slot d moved) (b.settledReport slot d moved) := by
  cases moved with
  | none => exact h
  | some y => exact h.plan ..

theorem heldReport (h : SameReport a b) (p : Plan) : SameReport (a.heldReport slot p) (b.heldReport slot p) := by
  simp only [Event.heldReport, h.allAt]
  split
  · exact h.plan ..
  · exact h

theorem planReport (h : SameReport a b) :
    SameReport (a.planReport slot moved outcome) (b.planReport slot moved outcome) := by
  simp only [Event.planReport, h.plans]
  split
  · exact h
  · split
    · exact h.movingReport _ _
    · exact h.movingReport _ _
    · exact h.settledReport _
    · exact h.settledReport _
    · exact h.heldReport _
    all_goals exact h

theorem writeReasons {l : List PlanMark} {m n : Net} (h : m.plans = n.plans) :
    (writeReasons l m).plans = (writeReasons l n).plans := by
  induction l generalizing m n with
  | nil => exact h
  | cons x t ih =>
    refine ih ?_
    have hposts : x.posts m = x.posts n := by simp only [PlanMark.posts, h]
    rw [hposts]
    split
    · exact congrArg (adjust x.plan fun q => { q with lastReason := x.reason }) h
    · exact h

end SameReport

/-- The marks of an event are of one plan. -/
def MarksOnly (slot : Nat) (e : Event) : Prop := ∀ m ∈ e.plans, m.plan = slot

theorem planReport_marksOnly {e : Event} (h : e.plans = []) : MarksOnly slot (e.planReport slot moved outcome) := by
  rcases planReport_cases slot moved outcome e with hsame | ⟨r, f, hturn⟩
  · simp [MarksOnly, hsame, h]
  · simp [MarksOnly, hturn, plan_marks h, markOf]

theorem writeReasons_others {l : List PlanMark} {n : Net} (h : ∀ m ∈ l, m.plan = slot) {k : Nat} (hk : k ≠ slot) :
    lookup k (writeReasons l n).plans = lookup k n.plans := by
  induction l generalizing n with
  | nil => rfl
  | cons x t ih =>
    refine (ih fun m hm => h m (List.mem_cons_of_mem _ hm)).trans ?_
    split
    · exact lookup_adjust_other (h x (List.mem_cons_self ..) ▸ hk) _ _
    · rfl

/-- A command brings the plan that claims a valve the report that the valve took a position. -/
def Reports (k : Nat) (pos : Position) (outcome : Option Ending) (s t : State) : Prop :=
  lookup k t.net.plans = lookup k
      (event (fun e => e.planReport k (some pos) outcome)
        { s with net := { s.net with valves := t.net.valves } }).net.plans
    ∧ KeepsOtherPlans k s.net t.net

@[simp] theorem setStuck_plans (v : Nat) (b : Bool) (e : Event) : (e.setStuck v b).plans = e.plans := by
  unfold Event.setStuck
  split
  · rfl
  · split <;> rfl

@[simp] theorem setUncommanded_plans (v : Nat) (b : Bool) (e : Event) : (e.setUncommanded v b).plans = e.plans := by
  unfold Event.setUncommanded
  split
  · rfl
  · split <;> rfl

@[simp] theorem stuckFollows_plans (v : Nat) (pos : Position) (e : Event) : (e.stuckFollows v pos).plans = e.plans := by
  cases pos <;> simp [Event.stuckFollows]

/-- An event ends in the move of a valve that a plan claims, its plans unmarked and as at the start. -/
theorem move_reports {F : Event → Event} {e : Event} {v k : Nat} {x : Valve} {d : ValveDef} {pos : Position}
    {o : Option Ending} (hF : F (Event.start s) = e.moveValve v pos 0 o) (hmarks : e.plans = [])
    (hplans : e.net.plans = s.net.plans) (hx : lookup v e.net.valves = some x) (hd : lookup v e.image.valves = some d)
    (hclaim : x.claim = some k) (hpos : x.position ≠ pos) (ht : t.net = (event F s).net) :
    Reports k pos o s t := by
  have hend : ∃ a : Event, e.moveValve v pos 0 o = a.planReport k (some pos) o ∧ a.plans = []
      ∧ a.net.plans = s.net.plans := by
    refine ⟨((e.setNet (placeValve d v pos 0 e.net)).stuckFollows v pos).changed.post .vlc
      (.valvePosition v pos (some k)) [], ?_, ?_, ?_⟩
    · simp only [Event.moveValve, hx, hd, hpos, if_false, hclaim, Event.claimReport]
    · simpa [Event.changed] using hmarks
    · refine (countChange_engineOnly _).plans.trans ?_
      rw [stuckFollows_net]
      exact hplans
  obtain ⟨a, hmove, hmarked, hsame⟩ := hend
  have hnet : t.net = writeReasons (a.planReport k (some pos) o).plans (a.planReport k (some pos) o).net := by
    rw [ht, ← hmove, ← hF]
    rfl
  obtain ⟨f, hf⟩ := planReport_net k (some pos) o a
  have hvalves : t.net.valves = a.net.valves := by
    rw [hnet]
    exact writeReasons_keeps (P := fun n => n.valves = a.net.valves) ⟨fun _ _ hn => hn⟩ _ _ (by rw [hf])
  refine ⟨?_, fun j hj => ?_⟩
  · have hstart : SameReport a (Event.start { s with net := { s.net with valves := t.net.valves } }) :=
      ⟨hsame, hvalves.symm, hmarked⟩
    have hreport := hstart.planReport (slot := k) (moved := some pos) (outcome := o)
    refine (congrArg (fun n => lookup k n.plans) hnet).trans ?_
    simp only [hreport.marks]
    exact congrArg (lookup k) (SameReport.writeReasons hreport.plans)
  · rw [hnet, writeReasons_others (planReport_marksOnly hmarked) hj, hf]
    exact (lookup_adjust_other hj _ _).trans (by rw [hsame])

/-- The claiming plan hears of the move that an event is. -/
theorem moveEvent_reports {v k : Nat} {x : Valve} {d : ValveDef} {pos : Position} {o : Option Ending}
    (hx : lookup v s.net.valves = some x) (hd : lookup v s.cfu.image.valves = some d) (hclaim : x.claim = some k)
    (hpos : x.position ≠ pos) (ht : t.net = (event (fun e => e.moveValve v pos 0 o) s).net) : Reports k pos o s t :=
  move_reports (e := Event.start s) (F := fun e => e.moveValve v pos 0 o) rfl rfl rfl hx hd hclaim hpos ht

section
variable {v : Half} {x : Valve} {d : ValveDef} {k : Nat} {pl : Plan} {q : PortId} {tag : Byte} {i : Instr}
  {act : Valve → Option (Event → Event)}

theorem crew_reports {pos : Position} {o : Ending} (hsend : CanSend [.switching] q s)
    (hx : lookup v.toNat s.net.valves = some x) (hd : lookup v.toNat s.cfu.image.valves = some d)
    (hkind : d.kind = .manual) (hclaim : x.claim = some k) (hpl : lookup k s.net.plans = some pl)
    (howner : pl.owner = q)
    (hi : exec i s = .next (request .plan q tag (actCrew q v.toNat act) s))
    (hact : act x = some fun e => e.moveValve v.toNat pos 0 (some o)) (hpos : x.position ≠ pos) :
    ∃ t, exec i s = .next t ∧ Reports k pos (some o) s t := by
  obtain ⟨t, ht, htaken⟩ := crew_taken hsend hx hd hkind hclaim hpl howner hi hact
  exact ⟨t, ht, moveEvent_reports hx hd hclaim hpos htaken.net⟩

theorem expiry_reports (hrun : Running s) (hx : lookup v.toNat s.net.valves = some x)
    (hd : lookup v.toNat s.cfu.image.valves = some d) (hclaim : x.claim = some k) (hkind : d.kind = .actuated)
    (hpos : x.position = .closing ∨ x.position = .opening) (htravel : x.travel = 0) :
    ∃ t, exec (.travelTimerExpiry v.toNat) s = .next t ∧ Reports k .stuck (some .failed) s t := by
  refine ⟨_, congrArg Host.Outcome.next (travelExpiry_event hrun hx hd hkind hpos htravel), ?_⟩
  exact moveEvent_reports hx hd hclaim (by rcases hpos with hpos | hpos <;> simp [hpos]) rfl

theorem verify_reports {y : Position} {arg : Byte} (hsend : CanSend [.switching] q s)
    (hx : lookup v.toNat s.net.valves = some x) (hd : lookup v.toNat s.cfu.image.valves = some d)
    (hclaim : x.claim = some k) (hstate : d.kind = .manual ∨ x.position = .stuck ∨ x.position = .unknown)
    (hpl : lookup k s.net.plans = some pl) (howner : pl.owner = q) (hheld : pl.state = .held)
    (harg : (arg = 0 ∧ y = .opened) ∨ (arg = 1 ∧ y = .closed)) (hy : x.position ≠ y) :
    ∃ t, exec (.verifyPosition q tag v arg) s = .next t ∧ Reports k y none s t := by
  obtain ⟨t, ht, htaken⟩ := verifyPosition_taken (tag := tag) hsend hx hd hstate
    (.inr ⟨k, pl, hclaim, hpl, howner, hheld⟩) harg
  refine ⟨t, ht, ?_⟩
  exact move_reports (F := fun e => e.verify v.toNat y) (e := (Event.start s).verifying v.toNat)
    (x := { x with stuck := false, uncommanded := false }) rfl (by simp [Event.verifying, Event.start])
    (by rw [verifying_net]; rfl) (by rw [verifying_net, lookup_adjust_same]; exact congrArg _ hx)
    (by rwa [verifying_image]) hclaim hy htaken.net

end

/-- Settles O34: a report by the plan's state, and the report that each move of a claimed valve brings. -/
theorem plansJudgeTheirValves : Obligations.PlansJudgeTheirValves := by
  refine ⟨fun s slot p moved outcome hp => ?_, fun s q tag v x d k hx hd hclaim => ?_⟩
  · intro t goes fails
    have hgoes {st : PlanState} {dir : Direction} {r : Reason} (h : PlanGoes slot p st dir r s t) : goes st dir r :=
      ⟨h.record, h.others, h.rest, h.alu, h.owner, h.subscribers⟩
    refine ⟨fun hstate => ?_, fun hstate => ?_, fun hstate => ?_, fun hstate => ?_, fun hstate => ?_, fun hstate => ?_⟩
    · obtain ⟨hfails, hall, hnot⟩ := movingReport_event (d := .closes) (moved := moved) (outcome := outcome) hp hstate
        (by decide)
      exact ⟨fun h => hgoes (hfails h), fun h h' => hgoes (hall h h'), hnot⟩
    · obtain ⟨hfails, hall, hnot⟩ := movingReport_event (d := .opens) (moved := moved) (outcome := outcome) hp hstate
        (by decide)
      exact ⟨fun h => hgoes (hfails h), fun h h' => hgoes (hall h h'), hnot⟩
    · obtain ⟨hmoved, hnot⟩ := settledReport_event (d := .closes) (moved := moved) (outcome := outcome) hp hstate
        (by decide)
      exact ⟨fun h => hgoes (hmoved h), hnot⟩
    · obtain ⟨hmoved, hnot⟩ := settledReport_event (d := .opens) (moved := moved) (outcome := outcome) hp hstate
        (by decide)
      exact ⟨fun h => hgoes (hmoved h), hnot⟩
    · have hheld := heldReport_event (moved := moved) (outcome := outcome) hp hstate
      refine ⟨fun hdir hall => ?_, fun hdir hall => ?_, fun hdir => (hheld hdir).2⟩
      · have h := (hheld (by simp [hdir])).1 (by rw [hdir]; exact hall)
        rw [hdir] at h
        exact hgoes h
      · have h := (hheld (by simp [hdir])).1 (by rw [hdir]; exact hall)
        rw [hdir] at h
        exact hgoes h
    · exact idleReport_event hp hstate
  · refine ⟨fun pl hsend hkind hpl howner => ⟨fun hpos => ⟨?_, ?_, ?_⟩, fun hpos => ⟨?_, ?_⟩⟩,
      fun hrun hkind hpos htravel => ?_, fun pl y arg hsend hstate hpl howner hheld harg hy => ?_⟩
    · exact crew_reports hsend hx hd hkind hclaim hpl howner rfl (if_pos hpos) (by simp [hpos])
    · exact crew_reports hsend hx hd hkind hclaim hpl howner rfl (by simp [confirmOpenIn, hpos]) (by simp [hpos])
    · exact crew_reports hsend hx hd hkind hclaim hpl howner rfl (by simp [inoperableIn, hpos, isTravelling])
        (by simp [hpos])
    · exact crew_reports hsend hx hd hkind hclaim hpl howner rfl (if_pos hpos) (by simp [hpos])
    · exact crew_reports hsend hx hd hkind hclaim hpl howner rfl (by simp [inoperableIn, hpos, isTravelling])
        (by simp [hpos])
    · exact expiry_reports hrun hx hd hclaim hkind hpos htravel
    · exact verify_reports hsend hx hd hclaim hstate hpl howner hheld harg hy

end Sys2Proof.Machine
end

section
/-!
PLAN_ABORT, PLAN_RETRY and PLAN_RESTORE (O33): the plan takes the state of its orders, the orders or aborts go out to
its valves, and each move's report can only settle the plan once every valve stands at the end. After that no valve of
the list is left to move.
-/

namespace Sys2Proof.Machine

variable {s t : State} {e : Event} {v slot : Nat} {x : Valve} {d : ValveDef} {dir : Direction}

/-! ### What the valves of a list do -/

theorem keepsField_closed (a : Net) : ValveClosed (KeepsField a) where
  plans _ _ h := h
  valves _ _ h := h
  outputs _ _ h := h
  moved n h := h.trans (countChange_engineOnly n).keepsField

theorem moveValve_lookup_other {w : Nat} (hw : w ≠ v) (pos : Position) (k : Nat) (o : Option Ending) :
    lookup w (e.moveValve v pos k o).net.valves = lookup w e.net.valves := by
  cases hx : lookup v e.net.valves with
  | none => simp [Event.moveValve, hx]
  | some x =>
    cases hd : lookup v e.image.valves with
    | none => simp [Event.moveValve, hx, hd]
    | some d => exact (moveValve_takes hx hd pos k o).lookup_other hw

theorem abort_lookup_other {w : Nat} (hw : w ≠ v) : lookup w (e.abort v).net.valves = lookup w e.net.valves := by
  unfold Event.abort
  split
  · split
    · exact moveValve_lookup_other hw _ _ _
    · rfl
  · rfl

theorem order_lookup_other {w : Nat} (hw : w ≠ v) : lookup w (e.order dir v).net.valves = lookup w e.net.valves := by
  cases hx : lookup v e.net.valves with
  | none => simp [Event.order, hx]
  | some x =>
    cases hd : lookup v e.image.valves with
    | none => simp [Event.order, hx, hd]
    | some d => exact (order_leaves hx hd).others w hw

/-- Where an abort leaves a valve that stands at a position (R35). -/
def abortedTo (d : ValveDef) (n : Net) (pos : Position) : Position :=
  if d.kind = .actuated ∧ isTravelling pos = true then (shownBy (limitPair d n)).getD .unknown else pos

theorem shownBy_rests (pair : Bool × Bool) : isTravelling ((shownBy pair).getD .unknown) = false := by
  obtain ⟨c, o⟩ := pair
  cases c <;> cases o <;> rfl

theorem abortedTo_idem (d : ValveDef) (n : Net) (pos : Position) :
    abortedTo d n (abortedTo d n pos) = abortedTo d n pos := by
  by_cases h : d.kind = .actuated ∧ isTravelling pos = true
  · simp [abortedTo, h, shownBy_rests]
  · simp [abortedTo, h]

theorem abort_lookup (hx : lookup v e.net.valves = some x) (hd : lookup v e.image.valves = some d) :
    ∃ y, lookup v (e.abort v).net.valves = some y ∧ y.position = abortedTo d e.net x.position := by
  by_cases h : d.kind = .actuated ∧ isTravelling x.position = true
  · simp only [Event.abort, hx, hd, if_pos h, abortedTo]
    exact ⟨_, (moveValve_takes hx hd _ _ _).lookup_same hx, rfl⟩
  · simp only [Event.abort, hx, hd, if_neg h, abortedTo]
    exact ⟨x, rfl, rfl⟩

theorem aborts_lookup_other {l : List Nat} (hv : v ∉ l) :
    lookup v (Event.aborts l e).net.valves = lookup v e.net.valves := by
  induction l generalizing e with
  | nil => rfl
  | cons w t ih =>
    obtain ⟨hw, ht⟩ := not_or.1 (List.mem_cons.not.1 hv)
    exact (ih ht).trans (abort_lookup_other hw)

theorem limitPair_of_lines {a b : Net} (h : KeepsField a b) : limitPair d b = limitPair d a := by
  simp only [limitPair, lineActive, h.1.2]

theorem aborts_position {m : Image} {l : List Nat} (hm : e.image = m) (hx : lookup v e.net.valves = some x)
    (hd : lookup v m.valves = some d) (hv : v ∈ l) :
    positionAt (Event.aborts l e).net v = some (abortedTo d e.net x.position) := by
  induction l generalizing e x with
  | nil => cases hv
  | cons w t ih =>
    have hm' : (e.abort w).image = m := Event.abort_grows (imageClosed m) w e hm
    have hlines : limitPair d (e.abort w).net = limitPair d e.net :=
      limitPair_of_lines (Event.abort_keeps (keepsField_closed e.net) w e (.refl _))
    have hsame (pos : Position) : abortedTo d (e.abort w).net pos = abortedTo d e.net pos := by
      simp only [abortedTo, hlines]
    by_cases hw : v = w
    · subst hw
      obtain ⟨y, hy, hposition⟩ := abort_lookup hx (hm ▸ hd)
      by_cases ht : v ∈ t
      · refine (ih hm' hy ht).trans ?_
        rw [hsame, hposition, abortedTo_idem]
      · unfold positionAt
        rw [show Event.aborts (v :: t) e = Event.aborts t (e.abort v) from rfl, aborts_lookup_other ht, hy]
        exact congrArg some hposition
    · have ht : v ∈ t := (List.mem_cons.1 hv).resolve_left hw
      exact (ih hm' ((abort_lookup_other hw).trans hx) ht).trans (congrArg some (hsame _))

/-- What an order of a plan makes of a valve: at the end it stays, and otherwise it is there or on its way. -/
structure OrderedTo (dir : Direction) (d : ValveDef) (x y : Valve) : Prop where
  atEnd : x.position = endOf dir → y = x
  goes : y.position = endOf dir ∨ y.position = travelOf dir
  manual : d.kind = .manual → x.position ≠ endOf dir → y.position = travelOf dir

theorem travelOf_ne_endOf (hdir : dir ≠ .unset) : travelOf dir ≠ endOf dir := by
  cases dir with
  | unset => exact absurd rfl hdir
  | closes => decide
  | opens => decide

theorem OrderedTo.trans {y z : Valve} (hdir : dir ≠ .unset) (h : OrderedTo dir d x y) (h' : OrderedTo dir d y z) :
    OrderedTo dir d x z where
  atEnd hx := by
    obtain rfl := h.atEnd hx
    exact h'.atEnd hx
  goes := h'.goes
  manual hkind hx := h'.manual hkind (h.manual hkind hx ▸ travelOf_ne_endOf hdir)

/-- One step of the orders to a list. -/
def orderStep (dir : Direction) (v : Nat) (e : Event) : Event :=
  if positionAt e.net v = some (endOf dir) then e else e.order dir v

theorem orderStep_lookup_other {w : Nat} (hw : w ≠ v) :
    lookup w (orderStep dir v e).net.valves = lookup w e.net.valves := by
  unfold orderStep
  split
  · rfl
  · exact order_lookup_other hw

theorem orderStep_lookup (hx : lookup v e.net.valves = some x) (hd : lookup v e.image.valves = some d) :
    ∃ y, lookup v (orderStep dir v e).net.valves = some y ∧ OrderedTo dir d x y := by
  by_cases hend : x.position = endOf dir
  · refine ⟨x, ?_, fun _ => rfl, .inl hend, fun _ hne => absurd hend hne⟩
    simp [orderStep, positionAt, hx, hend]
  · have hstep : orderStep dir v e = e.order dir v := by simp [orderStep, positionAt, hx, hend]
    rw [hstep]
    cases hkind : d.kind with
    | manual =>
      have h := order_manual (dir := dir) hx hd hkind
      split at h
      · next hstays =>
        have htravel := hstays.resolve_left hend
        exact ⟨_, h.lookup hx, fun hx => absurd hx hend, .inr htravel, fun _ _ => htravel⟩
      · exact ⟨_, h.lookup hx, fun hx => absurd hx hend, .inr rfl, fun _ _ => rfl⟩
    | actuated =>
      have hmanual {y : Valve} : d.kind = .manual → x.position ≠ endOf dir → y.position = travelOf dir := by
        simp [hkind]
      have h := order_actuated (dir := dir) hx hd hkind
      split at h
      · exact ⟨_, h.lookup hx, fun hx => absurd hx hend, .inl rfl, hmanual⟩
      · split at h
        · next htravel => exact ⟨_, h.lookup hx, fun hx => absurd hx hend, .inr htravel, hmanual⟩
        · exact ⟨_, h.lookup hx, fun hx => absurd hx hend, .inr rfl, hmanual⟩

theorem orderPending_lookup_other {l : List Nat} (hv : v ∉ l) :
    lookup v (Event.orderPending dir l e).net.valves = lookup v e.net.valves := by
  induction l generalizing e with
  | nil => rfl
  | cons w t ih =>
    obtain ⟨hw, ht⟩ := not_or.1 (List.mem_cons.not.1 hv)
    exact (ih (e := orderStep dir w e) ht).trans (orderStep_lookup_other hw)

theorem orderStep_image {m : Image} (hm : e.image = m) : (orderStep dir v e).image = m := by
  unfold orderStep
  split
  · exact hm
  · exact Event.order_grows (imageClosed m) dir v e hm

theorem orderPending_lookup {m : Image} {l : List Nat} (hdir : dir ≠ .unset) (hm : e.image = m)
    (hx : lookup v e.net.valves = some x) (hd : lookup v m.valves = some d) (hv : v ∈ l) :
    ∃ y, lookup v (Event.orderPending dir l e).net.valves = some y ∧ OrderedTo dir d x y := by
  induction l generalizing e x with
  | nil => cases hv
  | cons w t ih =>
    by_cases hw : v = w
    · subst hw
      obtain ⟨y, hy, hordered⟩ := orderStep_lookup (dir := dir) hx (hm ▸ hd)
      by_cases ht : v ∈ t
      · obtain ⟨z, hz, hagain⟩ := ih (orderStep_image hm) hy ht
        exact ⟨z, hz, hordered.trans hdir hagain⟩
      · exact ⟨y, (orderPending_lookup_other (e := orderStep dir v e) ht).trans hy, hordered⟩
    · exact ih (orderStep_image hm) ((orderStep_lookup_other hw).trans hx) ((List.mem_cons.1 hv).resolve_left hw)

/-! ### What becomes of the plan -/

/-- The plan as its request has it in the present event: its record, and its one mark, whose reason is pinned. -/
structure PlanAs (slot : Nat) (y : Plan) (a : Net) (e : Event) : Prop where
  record : lookup slot e.net.plans = some y
  marks : e.plans.filter (fun m => m.plan == slot) = [markOf slot .requested true a]

theorem PlanAs.congr {y : Plan} {a : Net} {e' : Event} (h : PlanAs slot y a e) (hp : e'.net.plans = e.net.plans)
    (hm : e'.plans = e.plans) : PlanAs slot y a e' := ⟨hp ▸ h.record, hm ▸ h.marks⟩

section
variable {fresh m : PlanMark} {f : PlanMark → PlanMark} (hf : ∀ m, (f m).plan = m.plan)
include hf

/-- A mark of another plan leaves this plan's marks. -/
theorem markIn_filter_other {k : Nat} (hk : k ≠ slot) (hfresh : fresh.plan = k) (l : List PlanMark) :
    (markIn k fresh f l).filter (fun m => m.plan == slot) = l.filter (fun m => m.plan == slot) := by
  induction l with
  | nil => simp [markIn, hf, hfresh, hk]
  | cons m t ih =>
    unfold markIn
    split
    · next hm => simp [hf, hm.1, hk]
    · simp [List.filter_cons, ih]

/-- A plan's one mark takes what is noted. -/
theorem markIn_filter_same {l : List PlanMark} (hm : m.plan = slot) (hreleased : m.released = none)
    (h : l.filter (fun m => m.plan == slot) = [m]) :
    (markIn slot fresh f l).filter (fun m => m.plan == slot) = [f m] := by
  induction l with
  | nil => cases h
  | cons n t ih =>
    by_cases hn : n.plan = slot
    · obtain ⟨rfl, ht⟩ : n = m ∧ t.filter (fun m => m.plan == slot) = [] := by
        simpa [List.filter_cons, hn] using h
      simp [markIn, hn, hreleased, hf, ht]
    · have ht : t.filter (fun m => m.plan == slot) = [m] := by simpa [List.filter_cons, hn] using h
      simpa [markIn, hn, List.filter_cons] using ih ht

end

/-- What a change of the plan notes in its mark (R58). -/
def noted (r : Reason) (pin : Bool) (m : PlanMark) : PlanMark :=
  { m with reason := if m.pinned then m.reason else r, pinned := m.pinned || pin, also := m.also ++ [] }

theorem plan_plans (k : Nat) (r : Reason) (pin : Bool) (f : Plan → Plan) (e : Event) :
    (e.plan k r pin f).plans = markIn k { markOf k r false e.net with pinned := false } (noted r pin) e.plans := rfl

/-- A turn for another reason leaves the pinned reason. -/
theorem PlanAs.plan {y : Plan} {a : Net} (h : PlanAs slot y a e) (r : Reason) (f : Plan → Plan) :
    PlanAs slot (f y) a (e.plan slot r false f) where
  record := by simp [Event.plan, h.record]
  marks := by
    rw [plan_plans, markIn_filter_same (slot := slot) (f := noted r false) (fun _ => rfl) rfl rfl h.marks]
    simp [noted, markOf]

theorem PlanAs.planOther {y : Plan} {a : Net} {k : Nat} (hk : k ≠ slot) (h : PlanAs slot y a e) (r : Reason)
    (pin : Bool) (f : Plan → Plan) : PlanAs slot y a (e.plan k r pin f) where
  record := (lookup_adjust_other hk.symm _ _).trans h.record
  marks := by rw [plan_plans, markIn_filter_other (f := noted r pin) (fun _ => rfl) hk rfl, h.marks]

theorem PlanAs.reportOther {y : Plan} {a : Net} {k : Nat} {moved : Option Position} {outcome : Option Ending}
    (hk : k ≠ slot) (h : PlanAs slot y a e) : PlanAs slot y a (e.planReport k moved outcome) := by
  rcases planReport_cases k moved outcome e with hsame | ⟨r, f, hturn⟩
  · rw [hsame]
    exact h
  · rw [hturn]
    exact h.planOther hk r false f

/-- A plan whose orders or aborts are going out: as its request has it, or settled with every valve at the end. -/
def OnItsWay (slot : Nat) (x : Plan) (dir : Direction) (other : PlanState) (a : Net) (e : Event) : Prop :=
  PlanAs slot { x with state := other, direction := dir } a e
    ∨ (PlanAs slot { x with state := settledState dir, direction := dir } a e
      ∧ allAt e.net (endOf dir) x.valves = true)

/-- The state that a plan has while valves of its list are left to move. -/
def IsOther (dir : Direction) (other : PlanState) : Prop := dir ≠ .unset ∧ (other = .held ∨ other = movingState dir)

section
variable {x : Plan} {other : PlanState} {a : Net} {moved : Option Position} {outcome : Option Ending}

/-- A report about a valve at the end or on its way there can only settle the plan. -/
theorem onItsWay_report (hother : IsOther dir other) (hfails : other ≠ .held → isFailure dir moved outcome = false)
    (h : PlanAs slot { x with state := other, direction := dir } a e) :
    OnItsWay slot x dir other a (e.planReport slot moved outcome) := by
  obtain ⟨hdir, hstate⟩ := hother
  have hsettles (r : Reason) (hall : allAt e.net (endOf dir) x.valves = true) :
      OnItsWay slot x dir other a (e.plan slot r false fun q => { q with state := settledState dir }) :=
    .inr ⟨h.plan r fun q => { q with state := settledState dir }, hall⟩
  by_cases hheld : other = .held
  · subst hheld
    have hreport : e.planReport slot moved outcome = e.heldReport slot { x with state := .held, direction := dir } := by
      simp [Event.planReport, h.record]
    rw [hreport]
    unfold Event.heldReport
    split
    · next hall => exact hsettles _ hall.2
    · exact .inl h
  · obtain rfl := hstate.resolve_left hheld
    have hreport : e.planReport slot moved outcome
        = e.movingReport slot { x with state := movingState dir, direction := dir } dir moved outcome := by
      cases dir with
      | unset => exact absurd rfl hdir
      | closes => simp [Event.planReport, h.record, movingState]
      | opens => simp [Event.planReport, h.record, movingState]
    rw [hreport]
    unfold Event.movingReport
    rw [if_neg (by simp [hfails hheld])]
    split
    · next hall => exact hsettles _ hall
    · exact .inl h

theorem onItsWay_claim (hother : IsOther dir other) (hfails : other ≠ .held → isFailure dir moved outcome = false)
    {claim : Option Nat} (h : PlanAs slot { x with state := other, direction := dir } a e) :
    OnItsWay slot x dir other a (e.claimReport claim moved outcome) := by
  cases claim with
  | none => exact .inl h
  | some k =>
    by_cases hk : k = slot
    · subst hk
      exact onItsWay_report hother hfails h
    · exact .inl (h.reportOther hk)

theorem onItsWay_move {pos : Position} {k : Nat} (hother : IsOther dir other)
    (hfails : other ≠ .held → isFailure dir (some pos) outcome = false ∧ isFailure dir none outcome = false)
    (h : PlanAs slot { x with state := other, direction := dir } a e) :
    OnItsWay slot x dir other a (e.moveValve v pos k outcome) := by
  unfold Event.moveValve
  split
  · dsimp only
    split
    · split
      · exact .inl (h.congr rfl rfl)
      · exact onItsWay_claim hother (fun hheld => (hfails hheld).2) (h.congr rfl rfl)
    · refine onItsWay_claim hother (fun hheld => (hfails hheld).1) (h.congr ?_ ?_)
      · refine (countChange_engineOnly _).plans.trans ?_
        rw [stuckFollows_net]
        rfl
      · exact stuckFollows_plans v pos _
  · exact .inl h

end

end Sys2Proof.Machine
end

section
/-!
The whole event of PLAN_ABORT, PLAN_RETRY and PLAN_RESTORE (O33): the list's valves one after another keep the plan on
its way, and the end of the event settles it where every valve stands at the end.
-/

namespace Sys2Proof.Machine

variable {s t : State} {e : Event} {v slot : Nat} {x : Plan} {dir : Direction} {other : PlanState} {a : Net}

/-! ### One valve after another -/

theorem allAt_iff {n : Net} {pos : Position} {l : List Nat} :
    allAt n pos l = true ↔ ∀ v ∈ l, positionAt n v = some pos := by simp [allAt]

theorem positionAt_congr {m n : Net} (h : m.valves = n.valves) (v : Nat) : positionAt m v = positionAt n v := by
  rw [positionAt, h]
  rfl

theorem allAt_congr {m n : Net} (h : m.valves = n.valves) (pos : Position) (l : List Nat) :
    allAt m pos l = allAt n pos l := by simp only [allAt, positionAt_congr h]

theorem endOf_rests (dir : Direction) : isTravelling (endOf dir) = false := by cases dir <;> rfl

/-- An abort finds nothing to do at a valve that stands at an end. -/
theorem abort_atEnd (h : positionAt e.net v = some (endOf dir)) : e.abort v = e := by
  cases hx : lookup v e.net.valves with
  | none => simp [Event.abort, hx]
  | some y =>
    have hy : y.position = endOf dir := by simpa [positionAt, hx] using h
    cases hd : lookup v e.image.valves with
    | none => simp [Event.abort, hx, hd]
    | some d => simp [Event.abort, hx, hd, hy, endOf_rests]

theorem PlanAs.clears {y : Plan} (h : PlanAs slot y a e) (v : Nat) (b : Bool) :
    PlanAs slot y a (e.setUncommanded v b) :=
  h.congr (by rw [setUncommanded_net]) (setUncommanded_plans v b e)

theorem abort_onItsWay (hdir : dir ≠ .unset) (hv : v ∈ x.valves) (h : OnItsWay slot x dir .held a e) :
    OnItsWay slot x dir .held a (e.abort v) := by
  rcases h with h | ⟨h, hall⟩
  · unfold Event.abort
    split
    · split
      · exact onItsWay_move ⟨hdir, .inl rfl⟩ (fun hne => absurd rfl hne) h
      · exact .inl h
    · exact .inl h
  · rw [abort_atEnd (allAt_iff.1 hall v hv)]
    exact .inr ⟨h, hall⟩

theorem done_succeeds (dir : Direction) : isFailure dir none (some .done) = false := rfl

theorem goes_succeeds {pos : Position} {o : Option Ending} (ho : o ≠ some .failed)
    (hpos : pos = endOf dir ∨ pos = travelOf dir) :
    isFailure dir (some pos) o = false ∧ isFailure dir none o = false := by
  have hend : ¬ isFailure dir (some pos) o = true := by
    rw [isFailure_iff]
    rintro (h | ⟨y, hy, hne⟩)
    · exact ho h
    · cases hy
      rcases hpos with rfl | rfl <;> simp at hne
  have hrest : ¬ isFailure dir none o = true := by
    rw [isFailure_iff]
    rintro (h | ⟨y, hy, _⟩)
    · exact ho h
    · cases hy
  exact ⟨Bool.eq_false_of_not_eq_true hend, Bool.eq_false_of_not_eq_true hrest⟩

theorem orderStep_onItsWay (hother : IsOther dir other) (hv : v ∈ x.valves) (h : OnItsWay slot x dir other a e) :
    OnItsWay slot x dir other a (orderStep dir v e) := by
  unfold orderStep
  split
  · exact h
  · next hpos =>
    rcases h with h | ⟨_, hall⟩
    · have hcleared := h.clears v false
      have hmoves {pos : Position} {k : Nat} {o : Option Ending} (ho : o ≠ some .failed)
          (hgoes : pos = endOf dir ∨ pos = travelOf dir) :
          OnItsWay slot x dir other a ((e.setUncommanded v false).moveValve v pos k o) :=
        onItsWay_move hother (fun _ => goes_succeeds ho hgoes) hcleared
      unfold Event.order
      split
      · split
        · unfold Event.orderManual
          split
          · exact onItsWay_claim hother (fun _ => done_succeeds dir) hcleared
          · split
            · exact .inl hcleared
            · exact hmoves nofun (.inr rfl)
        · unfold Event.orderActuated
          split
          · exact hmoves nofun (.inl rfl)
          · split
            · exact .inl hcleared
            · exact hmoves nofun (.inr rfl)
      · exact .inl h
    · exact absurd (allAt_iff.1 hall v hv) hpos

theorem aborts_onItsWay (hdir : dir ≠ .unset) {l : List Nat} (hl : ∀ v ∈ l, v ∈ x.valves)
    (h : OnItsWay slot x dir .held a e) : OnItsWay slot x dir .held a (Event.aborts l e) := by
  induction l generalizing e with
  | nil => exact h
  | cons v t ih =>
    exact ih (fun w hw => hl w (List.mem_cons_of_mem _ hw)) (abort_onItsWay hdir (hl v (List.mem_cons_self ..)) h)

theorem orderPending_onItsWay (hother : IsOther dir other) {l : List Nat} (hl : ∀ v ∈ l, v ∈ x.valves)
    (h : OnItsWay slot x dir other a e) : OnItsWay slot x dir other a (Event.orderPending dir l e) := by
  induction l generalizing e with
  | nil => exact h
  | cons v t ih =>
    exact ih (fun w hw => hl w (List.mem_cons_of_mem _ hw))
      (orderStep_onItsWay (e := e) hother (hl v (List.mem_cons_self ..)) h)

/-! ### The end of the event -/

/-- What the plan's state is once its orders or aborts are out. -/
def stateOut (n : Net) (x : Plan) (dir : Direction) (other : PlanState) : PlanState :=
  if allAt n (endOf dir) x.valves then settledState dir else other

theorem settleIfAll_valves (slot : Nat) (r : Reason) (e : Event) :
    (e.settleIfAll slot r).net.valves = e.net.valves := by
  unfold Event.settleIfAll
  split
  · rfl
  · split <;> rfl

theorem settleIfAll_planAs (hother : IsOther dir other) (h : OnItsWay slot x dir other a e) :
    PlanAs slot { x with state := stateOut e.net x dir other, direction := dir } a (e.settleIfAll slot .requested) := by
  obtain ⟨hdir, hstate⟩ := hother
  rcases h with h | ⟨h, hall⟩
  · have hout : other = .executing ∨ other = .restoring ∨ other = .held := by
      rcases hstate with rfl | rfl
      · exact .inr (.inr rfl)
      · cases dir with
        | unset => exact absurd rfl hdir
        | closes => exact .inl rfl
        | opens => exact .inr (.inl rfl)
    simp only [Event.settleIfAll, h.record, stateOut]
    by_cases hall : allAt e.net (endOf dir) x.valves = true
    · rw [if_pos hall, if_pos ⟨hout, hdir, hall⟩]
      exact h.plan .requested fun q => { q with state := settledState dir }
    · rw [if_neg hall, if_neg fun hcond => hall hcond.2.2]
      exact h
  · have hsettled : ¬ (settledState dir = .executing ∨ settledState dir = .restoring ∨ settledState dir = .held) := by
      cases dir with
      | unset => exact absurd rfl hdir
      | closes => decide
      | opens => decide
    simp only [Event.settleIfAll, h.record, stateOut, if_pos hall]
    rw [if_neg fun hcond => hsettled hcond.1]
    exact h

/-- A mark of another plan leaves the record. -/
theorem writeReason_other {m : PlanMark} (hm : m.plan ≠ slot) (n : Net) :
    lookup slot
      (if m.posts n then { n with plans := adjust m.plan (fun q => { q with lastReason := m.reason }) n.plans }
       else n).plans = lookup slot n.plans := by
  split
  · exact lookup_adjust_other hm.symm _ _
  · rfl

theorem writeReasons_unmarked {l : List PlanMark} {n : Net} (h : l.filter (fun m => m.plan == slot) = []) :
    lookup slot (writeReasons l n).plans = lookup slot n.plans :=  by
  induction l generalizing n with
  | nil => rfl
  | cons m t ih =>
    have hm : m.plan ≠ slot := by
      intro hm
      simp [hm] at h
    exact (ih (by simpa [List.filter_cons, hm] using h)).trans (writeReason_other hm n)

/-- The one mark of a plan that differs from before writes its reason. -/
theorem writeReasons_marked {l : List PlanMark} {n : Net} {m : PlanMark} {y : Plan} (hm : m.plan = slot)
    (hl : l.filter (fun m => m.plan == slot) = [m]) (hy : lookup slot n.plans = some y)
    (hdiffers : some (y.state, y.owner, y.outage) ≠ m.before) :
    lookup slot (writeReasons l n).plans = some { y with lastReason := m.reason } := by
  induction l generalizing n with
  | nil => cases hl
  | cons k t ih =>
    by_cases hk : k.plan = slot
    · obtain ⟨rfl, ht⟩ : k = m ∧ t.filter (fun m => m.plan == slot) = [] := by
        simpa [List.filter_cons, hk] using hl
      have hposts : k.posts n = true := by simp [PlanMark.posts, hm, hy, hdiffers]
      simp only [writeReasons, hposts, if_true]
      rw [writeReasons_unmarked ht, hm, lookup_adjust_same, hy]
      rfl
    · exact ih (by simpa [List.filter_cons, hk] using hl) ((writeReason_other hk n).trans hy)

/-- A plan whose state the event changed ends with the reason of its request. -/
theorem event_planAs {F : Event → Event} {y : Plan} (h : PlanAs slot y s.net (F (Event.start s)))
    (hx : lookup slot s.net.plans = some x) (hstate : y.state ≠ x.state) :
    lookup slot (event F s).net.plans = some { y with lastReason := .requested } := by
  refine writeReasons_marked (m := markOf slot .requested true s.net) rfl h.marks h.record ?_
  simp [markOf, hx, hstate]

theorem event_valves (F : Event → Event) (s : State) : (event F s).net.valves = (F (Event.start s)).net.valves := by
  obtain ⟨l, hl⟩ := event_net F s
  rw [hl]

/-! ### The three requests -/

/-- The event of a request that sets its plan to work on its valves. -/
def plansWork (slot : Nat) (f : Plan → Plan) (work : Event → Event) (e : Event) : Event :=
  (work (e.plan slot .requested true f)).settleIfAll slot .requested

/-- The event once the plan has taken its state, before its valves are worked on. -/
def workFrom (slot : Nat) (f : Plan → Plan) (s : State) : Event := (Event.start s).plan slot .requested true f

theorem workFrom_planAs {f : Plan → Plan} (hx : lookup slot s.net.plans = some x) :
    PlanAs slot (f x) s.net (workFrom slot f s) where
  record := by simp [workFrom, Event.plan, Event.start, hx]
  marks := by rw [workFrom, plan_marks rfl]; simp [markOf, Event.start]

theorem plansWork_valves (slot : Nat) (f : Plan → Plan) (work : Event → Event) (s : State) :
    (event (plansWork slot f work) s).net.valves = (work (workFrom slot f s)).net.valves :=
  (event_valves _ s).trans (settleIfAll_valves _ _ _)

/-- What the three requests have in common: the plan's record, the valves outside its list, and the field. -/
structure PlanWorks (p : PortId) (tag slot : Byte) (x : Plan) (dir : Direction) (other : PlanState) (s t : State) :
    Prop where
  answered : Answered p tag .ok [] t
  rest : KeepsRest (some p) s t
  field : KeepsField s.net t.net
  record : lookup slot.toNat t.net.plans =
    some { x with state := stateOut t.net x dir other, direction := dir, lastReason := .requested }

theorem planWorks_of {p : PortId} {tag slot : Byte} {f : Plan → Plan} {work : Event → Event}
    (htaken : TakesEvent p tag .ok [] (plansWork slot.toNat f work) s t) (hother : IsOther dir other)
    (hx : lookup slot.toNat s.net.plans = some x) (hleaves : x.state ≠ other ∧ x.state ≠ settledState dir)
    (hfield : KeepsField s.net (plansWork slot.toNat f work (Event.start s)).net)
    (hway : OnItsWay slot.toNat x dir other s.net (work (workFrom slot.toNat f s))) :
    PlanWorks p tag slot x dir other s t where
  answered := htaken.answered
  rest := htaken.rest
  field := by
    obtain ⟨l, hl⟩ := event_net (plansWork slot.toNat f work) s
    rw [htaken.net, hl]
    exact hfield
  record := by
    have hallAt : stateOut t.net x dir other = stateOut (work (workFrom slot.toNat f s)).net x dir other := by
      rw [stateOut, allAt_congr (htaken.net ▸ plansWork_valves slot.toNat f work s)]
      rfl
    rw [hallAt, htaken.net]
    refine event_planAs (F := plansWork slot.toNat f work) (settleIfAll_planAs hother hway) hx ?_
    unfold stateOut
    split
    · exact hleaves.2.symm
    · exact hleaves.1.symm

section
variable {p : PortId} {tag slot : Byte}

theorem abort_works (howns : OwnsPlan p slot x s) (hstate : x.state = .executing ∨ x.state = .restoring)
    (hdir : x.direction ≠ .unset) :
    ∃ t, exec (.planAbort p tag slot) s = .next t ∧ PlanWorks p tag slot x x.direction .held s t
      ∧ t.net.valves = (Event.aborts (ascending x.valves)
          (workFrom slot.toNat (fun q => { q with state := .held }) s)).net.valves := by
  have hmoving : isMoving x.state = true := by rcases hstate with h | h <;> rw [h] <;> rfl
  obtain ⟨t, ht, htaken⟩ := plan_takesEvent (tag := tag) (st := .ok) (body := [])
    (i := .planAbort p tag slot) (takes := isMoving) (act := fun x => planTaken fun e => e.abortPlan slot.toNat x)
    (f := plansWork slot.toNat (fun q => { q with state := .held }) (Event.aborts (ascending x.valves)))
    howns hmoving rfl rfl
  have hx := howns.2.2.1
  have hleaves : x.state ≠ .held ∧ x.state ≠ settledState x.direction := by
    rcases hstate with h | h <;> rw [h] <;> cases x.direction <;> decide
  refine ⟨t, ht, planWorks_of htaken ⟨hdir, .inl rfl⟩ hx hleaves ?_ ?_,
    htaken.net ▸ plansWork_valves slot.toNat _ _ s⟩
  · exact Event.abortPlan_keeps (keepsField_closed s.net) slot.toNat x (Event.start s) (.refl _)
  · exact aborts_onItsWay hdir (fun v => (sortBy_perm _ _).mem_iff.1)
      (.inl (workFrom_planAs (f := fun q => { q with state := .held }) hx))

theorem setOut_works {i : Instr} {takes : PlanState → Bool} {act : Plan → State → Answer}
    (howns : OwnsPlan p slot x s) (htakes : takes x.state = true) (hdir : dir ≠ .unset)
    (hi : exec i s = .next (request .plan p tag (actPlan p slot.toNat takes act) s))
    (hact : act x = planTaken fun e => e.setOut slot.toNat x dir)
    (hleaves : x.state ≠ movingState dir ∧ x.state ≠ settledState dir) :
    ∃ t, exec i s = .next t ∧ PlanWorks p tag slot x dir (movingState dir) s t
      ∧ t.net.valves = (Event.orderPending dir x.valves
          (workFrom slot.toNat (fun q => { q with state := movingState dir, direction := dir }) s)).net.valves := by
  obtain ⟨t, ht, htaken⟩ := plan_takesEvent (tag := tag) (st := .ok) (body := [])
    (f := plansWork slot.toNat (fun q => { q with state := movingState dir, direction := dir })
      (Event.orderPending dir x.valves)) howns htakes hi (congrFun hact _)
  have hx := howns.2.2.1
  refine ⟨t, ht, planWorks_of htaken ⟨hdir, .inr rfl⟩ hx hleaves ?_ ?_, htaken.net ▸ plansWork_valves slot.toNat _ _ s⟩
  · exact Event.setOut_keeps (keepsField_closed s.net) slot.toNat x dir (Event.start s) (.refl _)
  · exact orderPending_onItsWay ⟨hdir, .inr rfl⟩ (fun _ hv => hv)
      (.inl (workFrom_planAs (f := fun q => { q with state := movingState dir, direction := dir }) hx))

/-- The valves of the list after an abort (R35). -/
theorem aborted_position {f : Plan → Plan} {l : List Nat} {y : Valve} {d : ValveDef}
    (ht : t.net.valves = (Event.aborts l (workFrom slot.toNat f s)).net.valves) (hv : v ∈ l)
    (hy : lookup v s.net.valves = some y) (hd : lookup v s.cfu.image.valves = some d) :
    positionAt t.net v = some (abortedTo d s.net y.position) :=
  (positionAt_congr ht v).trans (aborts_position (m := s.cfu.image) rfl hy hd hv)

/-- The valves of the list after the orders (R76, R77). -/
theorem setOut_valve {f : Plan → Plan} {l : List Nat} {y : Valve} {d : ValveDef} (hdir : dir ≠ .unset)
    (ht : t.net.valves = (Event.orderPending dir l (workFrom slot.toNat f s)).net.valves) (hv : v ∈ l)
    (hy : lookup v s.net.valves = some y) (hd : lookup v s.cfu.image.valves = some d) :
    ∃ z, lookup v t.net.valves = some z ∧ OrderedTo dir d y z := by
  rw [ht]
  exact orderPending_lookup (m := s.cfu.image) hdir rfl hy hd hv

theorem OrderedTo.positions {y z : Valve} {d : ValveDef} (h : OrderedTo dir d y z)
    (hz : lookup v t.net.valves = some z) :
    (y.position = endOf dir → lookup v t.net.valves = some y)
      ∧ (positionAt t.net v = some (endOf dir) ∨ positionAt t.net v = some (travelOf dir))
      ∧ (d.kind = .manual → y.position ≠ endOf dir → positionAt t.net v = some (travelOf dir)) := by
  have hposition : positionAt t.net v = some z.position := by simp [positionAt, hz]
  refine ⟨fun hend => ?_, ?_, fun hkind hend => ?_⟩
  · rw [hz, h.atEnd hend]
  · rcases h.goes with hgoes | hgoes
    · exact .inl (hposition.trans (congrArg some hgoes))
    · exact .inr (hposition.trans (congrArg some hgoes))
  · exact hposition.trans (congrArg some (h.manual hkind hend))

end

/-- Settles O33: the plan's record from its mark and the reports about its valves, the valves one by one, and the
refusals by state. -/
theorem planMovesItsValves : Obligations.PlanMovesItsValves := by
  intro s p tag slot x howns ends
  refine ⟨fun hstate hdir => ?_, fun hstate hdir => ?_, fun hstate => ?_, fun hexecuting hrestoring => ?_,
    fun hheld => ?_,
    fun hisolated hheld => ?_⟩
  · obtain ⟨t, ht, hworks, hvalves⟩ := abort_works (tag := tag) howns hstate hdir
    refine ⟨t, ht, hworks.answered, hworks.rest, hworks.field, hworks.record, fun v hv => ?_, fun v hv y d hy hd => ?_⟩
    · rw [hvalves]
      exact aborts_lookup_other fun hmem => hv ((sortBy_perm _ _).mem_iff.1 hmem)
    · have hposition := aborted_position hvalves ((sortBy_perm _ _).mem_iff.2 hv) hy hd
      exact ⟨fun htravels => hposition.trans (by rw [abortedTo, if_pos htravels]),
        fun hrests => hposition.trans (by rw [abortedTo, if_neg hrests])⟩
  · obtain ⟨t, ht, hworks, hvalves⟩ := setOut_works (i := .planRetry p tag slot) (tag := tag) howns
      (by simp [hstate]) hdir rfl rfl
      (by rw [hstate]; cases hd : x.direction <;> simp_all [movingState, settledState])
    refine ⟨t, ht, hworks.answered, hworks.rest, hworks.field, hworks.record, fun v hv => ?_, fun v hv y d hy hd => ?_⟩
    · rw [hvalves]
      exact orderPending_lookup_other hv
    · obtain ⟨z, hz, hordered⟩ := setOut_valve hdir hvalves hv hy hd
      exact hordered.positions hz
  · obtain ⟨t, ht, hworks, hvalves⟩ := setOut_works (i := .planRestore p tag slot) (tag := tag) (dir := .opens) howns
      (by rcases hstate with h | h <;> rw [h] <;> rfl) (by decide) rfl rfl
      (by rcases hstate with h | h <;> rw [h] <;> decide)
    refine ⟨t, ht, hworks.answered, hworks.rest, hworks.field, hworks.record, fun v hv => ?_, fun v hv y d hy hd => ?_⟩
    · rw [hvalves]
      exact orderPending_lookup_other hv
    · obtain ⟨z, hz, hordered⟩ := setOut_valve (by decide) hvalves hv hy hd
      exact hordered.positions hz
  · exact plan_wrongState howns (takes := isMoving) (by cases hx : x.state <;> simp_all [isMoving]) rfl
  · exact plan_wrongState howns (takes := fun y => y == .held) (by simpa using hheld) rfl
  · exact plan_wrongState howns (takes := restorable) (by cases hx : x.state <;> simp_all [restorable]) rfl

end Sys2Proof.Machine
end

section
/-!
The Alarm List Unit seen from one condition (R153 to R157): a report about another condition leaves it as it stands, a
raise leaves it standing, a clear leaves it cleared. So the one report that an event makes about a condition decides how
the condition stands after the event.
-/

namespace Sys2Proof.Machine

variable {c d : CondId} {a b : Alu} {w : AluWork} {x y : Entry} {now up : Word} {m : Image} {r : Report}

/-! ### What the list needs -/

/-- One entry or one withheld record for a condition, distinct numbers, and no more than 96 entries. -/
structure Alu.Apart (a : Alu) : Prop where
  length : a.entries.length ≤ 96
  conditions : (a.entries.map Entry.cond ++ a.withheld.map Withheld.cond).Nodup
  numbers : (a.entries.map Entry.number).Nodup

theorem Alu.Sound.apart (h : a.Sound) : a.Apart := ⟨h.length, h.conditions, h.numbers⟩

/-- A change of the list that another condition does not notice. -/
structure Leaves (c : CondId) (a b : Alu) : Prop where
  raised : StandsRaised c a → StandsRaised c b
  cleared : StandsCleared c a → StandsCleared c b

theorem Leaves.refl (c : CondId) (a : Alu) : Leaves c a a := ⟨id, id⟩

theorem Leaves.trans {e : Alu} (h : Leaves c a b) (h' : Leaves c b e) : Leaves c a e :=
  ⟨fun hr => h'.raised (h.raised hr), fun hc => h'.cleared (h.cleared hc)⟩

/-- How a condition stands is a matter of entries and withheld records alone. -/
theorem leaves_of_lists (he : b.entries = a.entries) (hw : b.withheld = a.withheld) : Leaves c a b := by
  refine ⟨fun h => ?_, fun h => ?_⟩
  · unfold StandsRaised
    rw [he, hw]
    exact h
  · unfold StandsCleared
    rw [he, hw]
    exact h

theorem Alu.Apart.of_lists (h : a.Apart) (he : b.entries = a.entries) (hw : b.withheld = a.withheld) : b.Apart where
  length := he ▸ h.length
  conditions := by rw [he, hw]; exact h.conditions
  numbers := he ▸ h.numbers

namespace Alu.Apart

theorem eq_of_number (h : a.Apart) (hx : x ∈ a.entries) (hy : y ∈ a.entries) (hn : y.number = x.number) : y = x :=
  List.inj_on_of_nodup_map h.numbers hy hx hn

theorem eq_of_cond (h : a.Apart) (hx : x ∈ a.entries) (hy : y ∈ a.entries) (hc : y.cond = x.cond) : y = x :=
  List.inj_on_of_nodup_map (List.nodup_append.1 h.conditions).1 hy hx hc

theorem not_withheld (h : a.Apart) (hx : x ∈ a.entries) {z : Withheld} (hz : z ∈ a.withheld) : z.cond ≠ x.cond :=
  fun hc => (List.nodup_append.1 h.conditions).2.2 _ (List.mem_map_of_mem hx) _ (List.mem_map_of_mem hz) hc.symm

end Alu.Apart

/-! ### A condition is listed -/

theorem nextAlarm_notMem (h : a.entries.length < 96) : nextAlarm a ∉ a.entries.map Entry.number := by
  have hfresh := nextNumber_notMem (held := a.entries.map Entry.number) a.lastNumber (by simp; omega)
  simpa [nextAlarm] using hfresh

theorem appendEntry_apart {k n : Nat} {first : Word} (h : w.alu.Apart) (hroom : w.alu.entries.length < 96)
    (hnew : d ∉ w.alu.entries.map Entry.cond ++ w.alu.withheld.map Withheld.cond) :
    (appendEntry now d k first n w).alu.Apart where
  length := by simp only [appendEntry, List.length_append, List.length_singleton]; omega
  conditions := by
    have hcons : (d :: (w.alu.entries.map Entry.cond ++ w.alu.withheld.map Withheld.cond)).Nodup :=
      List.nodup_cons.2 ⟨hnew, h.conditions⟩
    simpa [appendEntry] using (List.perm_middle.nodup_iff).2 hcons
  numbers := by
    have hfresh := nextAlarm_notMem hroom
    simp only [appendEntry, List.map_append, List.map_cons, List.map_nil]
    exact List.nodup_append.2 ⟨h.numbers, List.nodup_singleton _, fun i hi j hj => by
      rw [List.mem_singleton.1 hj]
      exact fun hij => hfresh (hij ▸ hi)⟩

theorem appendEntry_raised {k n : Nat} {first : Word} : StandsRaised d (appendEntry now d k first n w).alu :=
  .inl ⟨_, List.mem_append_right _ (List.mem_singleton.2 rfl), rfl, rfl⟩

theorem appendEntry_leaves {k n : Nat} {first : Word} (hd : d ≠ c) :
    Leaves c w.alu (appendEntry now d k first n w).alu where
  raised := by
    rintro (⟨y, hy, hstands⟩ | hheld)
    · exact .inl ⟨y, List.mem_append_left _ hy, hstands⟩
    · exact .inr hheld
  cleared h := by
    refine ⟨fun y hy hc => ?_, h.2⟩
    rcases List.mem_append.1 hy with hold | hnew
    · exact h.1 y hold hc
    · rw [List.mem_singleton.1 hnew] at hc
      exact absurd hc hd

/-! ### A withheld condition takes a freed place (R156) -/

/-- The list without the withheld record of a condition. -/
def unhold (d : CondId) (w : AluWork) : AluWork :=
  { w with alu := { w.alu with withheld := w.alu.withheld.filter (fun y => y.cond != d) } }

theorem unhold_apart (d : CondId) (h : w.alu.Apart) : (unhold d w).alu.Apart where
  length := h.length
  conditions := ((List.Sublist.refl _).append (List.filter_sublist.map _)).nodup h.conditions
  numbers := h.numbers

theorem unhold_leaves (hd : d ≠ c) : Leaves c w.alu (unhold d w).alu where
  raised := by
    rintro (hlisted | ⟨y, hy, rfl⟩)
    · exact .inl hlisted
    · exact .inr ⟨y, List.mem_filter.2 ⟨hy, by simpa using Ne.symm hd⟩, rfl⟩
  cleared h := ⟨h.1, fun y hy => h.2 y (List.mem_filter.1 hy).1⟩

theorem mem_ranked {l : List Withheld} {z : Withheld} : z ∈ ranked l ↔ z ∈ l := (sortBy_perm _ l).mem_iff

theorem listWithheld_cases (now : Word) (w : AluWork) : listWithheld now w = w
    ∨ ∃ z ∈ w.alu.withheld,
        listWithheld now w = appendEntry now z.cond z.priority z.raisedClock z.repeats (unhold z.cond w) := by
  unfold listWithheld
  split
  · exact .inl rfl
  · next z t hz => exact .inr ⟨z, mem_ranked.1 (hz ▸ List.mem_cons_self ..), rfl⟩

theorem listWithheld_apart (h : w.alu.Apart) (hroom : w.alu.entries.length < 96) : (listWithheld now w).alu.Apart := by
  rcases listWithheld_cases now w with hsame | ⟨z, hz, hlists⟩
  · rw [hsame]
    exact h
  · have hfree : z.cond ∉ w.alu.entries.map Entry.cond := fun hmem => by
      obtain ⟨y, hy, hc⟩ := List.mem_map.1 hmem
      exact h.not_withheld hy hz hc.symm
    rw [hlists]
    refine appendEntry_apart (unhold_apart z.cond h) hroom ?_
    simpa [unhold] using hfree

/-- A withheld condition that is listed stands raised as before. -/
theorem listWithheld_leaves : Leaves c w.alu (listWithheld now w).alu := by
  rcases listWithheld_cases now w with hsame | ⟨z, hz, hlists⟩
  · rw [hsame]
    exact .refl c _
  · rw [hlists]
    by_cases hc : z.cond = c
    · subst hc
      exact ⟨fun _ => appendEntry_raised, fun h => absurd rfl (h.2 z hz)⟩
    · exact (unhold_leaves hc).trans (appendEntry_leaves hc)

/-! ### An entry changes, or is removed -/

theorem mem_putEntry {l : List Entry} (h : y ∈ putEntry x l) : y = x ∨ (y ∈ l ∧ y.number ≠ x.number) := by
  obtain ⟨z, hz, rfl⟩ := List.mem_map.1 h
  split
  · exact .inl rfl
  · next hn => exact .inr ⟨hz, hn⟩

theorem putEntry_self {l : List Entry} (hy : y ∈ l) (hn : y.number = x.number) : x ∈ putEntry x l :=
  List.mem_map.2 ⟨y, hy, if_pos hn⟩

theorem putEntry_other {l : List Entry} (hy : y ∈ l) (hn : y.number ≠ x.number) : y ∈ putEntry x l :=
  List.mem_map.2 ⟨y, hy, if_neg hn⟩

/-- An entry and what replaces it have one number and one condition. -/
structure Replaces (x y : Entry) : Prop where
  number : x.number = y.number
  cond : x.cond = y.cond

theorem putEntry_map {β : Type} {f : Entry → β} (h : a.Apart) (hy : y ∈ a.entries) (hr : Replaces x y)
    (hf : f x = f y) :
    (putEntry x a.entries).map f = a.entries.map f := by
  refine (List.map_map ..).trans (List.map_congr_left fun z hz => ?_)
  simp only [Function.comp]
  split
  · next hn => rw [h.eq_of_number hy hz (hn.trans hr.number), hf]
  · rfl

variable {code : ChangeCode}

theorem changeEntry_apart (h : w.alu.Apart) (hy : y ∈ w.alu.entries) (hr : Replaces x y) :
    (changeEntry x code w).alu.Apart where
  length := by simpa [changeEntry, putEntry] using h.length
  conditions := by
    simp only [changeEntry]
    rw [putEntry_map h hy hr hr.cond]
    exact h.conditions
  numbers := by
    simp only [changeEntry]
    rw [putEntry_map h hy hr hr.number]
    exact h.numbers

theorem changeEntry_leaves (h : w.alu.Apart) (hy : y ∈ w.alu.entries) (hr : Replaces x y) (hc : y.cond ≠ c) :
    Leaves c w.alu (changeEntry x code w).alu where
  raised := by
    rintro (⟨z, hz, hcond, hstate⟩ | hheld)
    · refine .inl ⟨z, putEntry_other hz fun hn => ?_, hcond, hstate⟩
      exact hc (h.eq_of_number hy hz (hn.trans hr.number) ▸ hcond)
    · exact .inr hheld
  cleared hcleared := by
    refine ⟨fun z hz hcond => ?_, hcleared.2⟩
    rcases mem_putEntry hz with rfl | ⟨hold, _⟩
    · exact absurd (hr.cond.symm.trans hcond) hc
    · exact hcleared.1 z hold hcond

/-- The list once the entry has gone, before the freed place is taken. -/
def dropEntry (x : Entry) (w : AluWork) : AluWork :=
  { alu := { w.alu with entries := w.alu.entries.filter (fun y => y.number != x.number) },
    touches := touchIn x.number x.cond .removed w.touches }

theorem dropEntry_length (hx : x ∈ w.alu.entries) (h : w.alu.Apart) : (dropEntry x w).alu.entries.length < 96 := by
  have hfewer : (w.alu.entries.filter (fun y => y.number != x.number)).length < w.alu.entries.length :=
    List.length_filter_lt_length_iff_exists.2 ⟨x, hx, by simp⟩
  exact Nat.lt_of_lt_of_le hfewer h.length

theorem dropEntry_apart (h : w.alu.Apart) : (dropEntry x w).alu.Apart where
  length := Nat.le_trans (List.length_filter_le ..) h.length
  conditions := ((List.filter_sublist.map _).append_right _).nodup h.conditions
  numbers := (List.filter_sublist.map _).nodup h.numbers

theorem dropEntry_leaves (h : w.alu.Apart) (hx : x ∈ w.alu.entries) (hc : x.cond ≠ c) :
    Leaves c w.alu (dropEntry x w).alu where
  raised := by
    rintro (⟨z, hz, hcond, hstate⟩ | hheld)
    · refine .inl ⟨z, List.mem_filter.2 ⟨hz, ?_⟩, hcond, hstate⟩
      simpa using fun hn => hc (h.eq_of_number hx hz hn ▸ hcond)
    · exact .inr hheld
  cleared hcleared := ⟨fun z hz => hcleared.1 z (List.mem_filter.1 hz).1, hcleared.2⟩

theorem removeEntry_apart (h : w.alu.Apart) (hx : x ∈ w.alu.entries) : (removeEntry now x w).alu.Apart :=
  listWithheld_apart (w := dropEntry x w) (dropEntry_apart h) (dropEntry_length hx h)

theorem removeEntry_leaves (h : w.alu.Apart) (hx : x ∈ w.alu.entries) (hc : x.cond ≠ c) :
    Leaves c w.alu (removeEntry now x w).alu := (dropEntry_leaves h hx hc).trans listWithheld_leaves

theorem removeEntry_cleared (h : w.alu.Apart) (hx : x ∈ w.alu.entries) :
    StandsCleared x.cond (removeEntry now x w).alu := by
  have hdropped : StandsCleared x.cond (dropEntry x w).alu := by
    refine ⟨fun y hy hc => ?_, fun z hz => h.not_withheld hx hz⟩
    obtain ⟨hy, hn⟩ := List.mem_filter.1 hy
    rw [h.eq_of_cond hx hy hc] at hn
    simp at hn
  exact listWithheld_leaves.cleared hdropped

/-! ### One report (R153 to R155) -/

theorem entryOf_some {l : List Entry} (h : entryOf c l = some x) : x ∈ l ∧ x.cond = c :=
  ⟨List.mem_of_find?_eq_some h, by simpa using List.find?_some h⟩

theorem entryOf_none {l : List Entry} (h : entryOf c l = none) : ∀ x ∈ l, x.cond ≠ c := fun x hx => by
  simpa using List.find?_eq_none.1 h x hx

theorem isWithheld_iff : isWithheld c a = true ↔ ∃ z ∈ a.withheld, z.cond = c := by simp [isWithheld]

/-- The list once the withheld record of a condition counts a repeat (R157). -/
def repeatWithheld (d : CondId) (w : AluWork) : AluWork :=
  { w with
    alu := { w.alu with
      withheld := w.alu.withheld.map (fun y => if y.cond = d then { y with repeats := addRepeat y.repeats } else y) } }

theorem repeatWithheld_conditions (d : CondId) (w : AluWork) :
    (repeatWithheld d w).alu.withheld.map Withheld.cond = w.alu.withheld.map Withheld.cond := by
  refine (List.map_map ..).trans (List.map_congr_left fun z _ => ?_)
  simp only [Function.comp]
  split <;> rfl

theorem repeatWithheld_holds (d c : CondId) (w : AluWork) :
    (∃ z ∈ (repeatWithheld d w).alu.withheld, z.cond = c) ↔ ∃ z ∈ w.alu.withheld, z.cond = c := by
  rw [← List.mem_map, repeatWithheld_conditions, List.mem_map]

theorem repeatWithheld_apart (d : CondId) (h : w.alu.Apart) : (repeatWithheld d w).alu.Apart where
  length := h.length
  conditions := by rw [repeatWithheld_conditions]; exact h.conditions
  numbers := h.numbers

theorem repeatWithheld_leaves : Leaves c w.alu (repeatWithheld d w).alu where
  raised := Or.imp_right (repeatWithheld_holds d c w).2
  cleared h := ⟨h.1, fun z hz hc => by
    obtain ⟨y, hy, hyc⟩ := (repeatWithheld_holds d c w).1 ⟨z, hz, hc⟩
    exact h.2 y hy hyc⟩

/-- A raise of a condition that is neither listed nor withheld. -/
structure RaisesFresh (d : CondId) (a b : Alu) : Prop where
  apart : b.Apart
  raised : StandsRaised d b
  leaves : ∀ c, d ≠ c → Leaves c a b

theorem raiseFresh_raises (m : Image) (up now : Word) (h : w.alu.Apart)
    (hnew : d ∉ w.alu.entries.map Entry.cond ++ w.alu.withheld.map Withheld.cond) :
    RaisesFresh d w.alu (raiseFresh m up now d w).alu := by
  unfold raiseFresh
  split
  · next hroom => exact ⟨appendEntry_apart h hroom hnew, appendEntry_raised, fun c hc => appendEntry_leaves hc⟩
  · refine ⟨⟨h.length, ?_, h.numbers⟩, .inr ⟨_, List.mem_append_right _ (List.mem_singleton.2 rfl), rfl⟩, fun c hc =>
      ⟨?_, fun hcleared => ⟨hcleared.1, fun z hz => ?_⟩⟩⟩
    · have hcons := List.nodup_cons.2 ⟨hnew, h.conditions⟩
      simpa [← List.append_assoc] using (List.perm_append_singleton d _).nodup_iff.2 hcons
    · exact Or.imp_right fun ⟨z, hz, hc⟩ => ⟨z, List.mem_append_left _ hz, hc⟩
    · rcases List.mem_append.1 hz with hold | hnew
      · exact hcleared.2 z hold
      · rwa [List.mem_singleton.1 hnew]

/-- What one report does to the list. -/
structure Takes (r : Report) (a b : Alu) : Prop where
  apart : b.Apart
  raised : r.kind ≠ .clear → StandsRaised r.cond b
  cleared : r.kind = .clear → StandsCleared r.cond b
  leaves : ∀ c, r.cond ≠ c → Leaves c a b

theorem takes_clear (h : w.alu.Apart) (hx : x ∈ w.alu.entries) (hc : x.cond = r.cond) (hr : r.kind = .clear) :
    Takes r w.alu (clearEntry now x w).alu := by
  have htakes {b : Alu} (hapart : b.Apart) (hcleared : StandsCleared x.cond b)
      (hleaves : ∀ c, x.cond ≠ c → Leaves c w.alu b) : Takes r w.alu b :=
    ⟨hapart, fun hne => absurd hr hne, fun _ => hc ▸ hcleared, hc ▸ hleaves⟩
  unfold clearEntry
  split
  · refine htakes (changeEntry_apart h hx ⟨rfl, rfl⟩) ⟨fun y hy hyc => ?_, fun z => h.not_withheld hx⟩
      fun c => changeEntry_leaves h hx ⟨rfl, rfl⟩
    rcases mem_putEntry hy with rfl | ⟨hold, hn⟩
    · rfl
    · rw [h.eq_of_cond hx hold hyc] at hn
      exact absurd rfl hn
  · exact htakes (removeEntry_apart h hx) (removeEntry_cleared h hx) fun c => removeEntry_leaves h hx
  · next hstate =>
    refine htakes h ⟨fun y hy hyc => ?_, fun z => h.not_withheld hx⟩ fun c _ => .refl c _
    rw [h.eq_of_cond hx hy hyc, hstate]

theorem takes_reraise (h : w.alu.Apart) (hx : x ∈ w.alu.entries) (hc : x.cond = r.cond) (hr : r.kind ≠ .clear) :
    Takes r w.alu (reraiseEntry now x w).alu where
  apart := changeEntry_apart (h.of_lists rfl rfl) hx ⟨rfl, rfl⟩
  raised _ := .inl ⟨_, putEntry_self hx rfl, hc, rfl⟩
  cleared hclear := absurd hclear hr
  leaves c hne := by
    refine Leaves.trans (b := { w.alu with seq := w.alu.seq + 1 }) (leaves_of_lists rfl rfl) ?_
    exact changeEntry_leaves (w := { w with alu := { w.alu with seq := w.alu.seq + 1 } }) (h.of_lists rfl rfl) hx
      ⟨rfl, rfl⟩
      (hc ▸ hne)

theorem takes_unhold (h : w.alu.Apart) (hnone : ∀ x ∈ w.alu.entries, x.cond ≠ r.cond) (hr : r.kind = .clear) :
    Takes r w.alu (unhold r.cond w).alu where
  apart := unhold_apart _ h
  raised hne := absurd hr hne
  cleared _ := ⟨fun x hx hc => absurd hc (hnone x hx), fun z hz => by simpa using (List.mem_filter.1 hz).2⟩
  leaves _ hne := unhold_leaves hne

theorem takeReport_takes (m : Image) (up now : Word) (r : Report) (h : w.alu.Apart) :
    Takes r w.alu (takeReport m up now r w).alu := by
  unfold takeReport
  split
  · next x hx hr =>
    obtain ⟨hmem, hc⟩ := entryOf_some hx
    exact takes_clear h hmem hc hr
  · next x hx hr =>
    obtain ⟨hmem, hc⟩ := entryOf_some hx
    exact takes_reraise h hmem hc hr
  · next hx hr => exact takes_unhold h (entryOf_none hx) hr
  · next hx hr =>
    split
    · next hheld =>
      exact ⟨repeatWithheld_apart r.cond h,
        fun _ => .inr ((repeatWithheld_holds r.cond r.cond w).2 (isWithheld_iff.1 hheld)),
          fun hclear => absurd hclear hr,
        fun c _ => repeatWithheld_leaves⟩
    · next hheld =>
      have hnew : r.cond ∉ w.alu.entries.map Entry.cond ++ w.alu.withheld.map Withheld.cond := by
        simp only [List.mem_append, List.mem_map, not_or, not_exists, not_and]
        exact ⟨entryOf_none hx, fun z hz hc => hheld (isWithheld_iff.2 ⟨z, hz, hc⟩)⟩
      obtain ⟨hapart, hraised, hleaves⟩ := raiseFresh_raises m up now h hnew
      exact ⟨hapart, fun _ => hraised, fun hclear => absurd hclear hr, hleaves⟩

/-! ### The reports of an event (R150) -/

/-- Whether a report leaves its condition raised or cleared. -/
def Stands (r : Report) (a : Alu) : Prop := if r.kind = .clear then StandsCleared r.cond a else StandsRaised r.cond a

theorem Takes.stands (h : Takes r a b) : Stands r b := by
  unfold Stands
  split
  · next hclear => exact h.cleared hclear
  · next hraise => exact h.raised hraise

theorem Leaves.stands (h : Leaves r.cond a b) (hs : Stands r a) : Stands r b := by
  unfold Stands at hs ⊢
  split
  · next hclear => exact h.cleared (by simpa [hclear] using hs)
  · next hraise => exact h.raised (by simpa [hraise] using hs)

theorem takeReports_leaves (m : Image) (up now : Word) {l : List Report} (h : w.alu.Apart) (hl : ∀ r ∈ l, r.cond ≠ c) :
    Leaves c w.alu (takeReports m up now l w).alu := by
  induction l generalizing w with
  | nil => exact .refl c _
  | cons r t ih =>
    have htakes := takeReport_takes m up now r h
    exact (htakes.leaves c (hl r (List.mem_cons_self ..))).trans
      (ih htakes.apart fun q hq => hl q (List.mem_cons_of_mem _ hq))

/-- The one report about a condition decides how it stands. -/
theorem takeReports_stands (m : Image) (up now : Word) {l : List Report} (h : w.alu.Apart)
    (hl : l.filter (fun q => q.cond == r.cond) = [r]) : Stands r (takeReports m up now l w).alu := by
  induction l generalizing w with
  | nil => cases hl
  | cons q t ih =>
    have htakes := takeReport_takes m up now q h
    by_cases hq : q.cond = r.cond
    · obtain ⟨rfl, ht⟩ : q = r ∧ t.filter (fun q => q.cond == r.cond) = [] := by
        simpa [List.filter_cons, hq] using hl
      refine (takeReports_leaves m up now htakes.apart fun p hp hc => ?_).stands htakes.stands
      have hmem : p ∈ t.filter (fun p => p.cond == q.cond) := List.mem_filter.2 ⟨hp, by simpa using hc⟩
      rw [ht] at hmem
      cases hmem
    · exact ih htakes.apart (by simpa [List.filter_cons, hq] using hl)

theorem judgeHorn_lists (m : Image) (a : Alu) :
    (judgeHorn m a).entries = a.entries ∧ (judgeHorn m a).withheld = a.withheld := by
  unfold judgeHorn
  split
  · exact ⟨rfl, rfl⟩
  · exact ⟨rfl, rfl⟩
  · split <;> exact ⟨rfl, rfl⟩

/-- How a condition stands after an event that makes one report about it. -/
theorem event_stands {s : State} {f : Event → Event} {b : Block} (hs : AlarmsSound s)
    (h : (f (Event.start s)).reports.filter (fun x => x.2.cond == r.cond) = [(b, r)]) : Stands r (event f s).alu := by
  have hperm : (((merge (reportOrder (f (Event.start s)).reports) (f (Event.start s)).choices).1).filter
      (fun q => q.cond == r.cond)).Perm [r] := by
    have hmerge := (merge_perm (reportOrder (f (Event.start s)).reports) (f (Event.start s)).choices).symm
    have hall := (hmerge.trans ((reportOrder_perm _).map Prod.snd)).filter (fun q => q.cond == r.cond)
    refine hall.trans ?_
    rw [List.filter_map]
    exact (List.Perm.of_eq (congrArg (List.map Prod.snd) h))
  have hone := List.perm_singleton.1 hperm
  have hsome : (merge (reportOrder (f (Event.start s)).reports) (f (Event.start s)).choices).1.isEmpty = false := by
    cases hl : (merge (reportOrder (f (Event.start s)).reports) (f (Event.start s)).choices).1 with
    | nil => rw [hl] at hone; cases hone
    | cons q t => rfl
  obtain ⟨hentries, hwithheld⟩ := judgeHorn_lists s.cfu.image (takeReports s.cfu.image s.tbu.uptime s.tbu.clock
    (merge (reportOrder (f (Event.start s)).reports) (f (Event.start s)).choices).1 { alu := s.alu, touches := [] }).alu
  refine (leaves_of_lists (b := (event f s).alu) ?_ ?_).stands
    (takeReports_stands s.cfu.image s.tbu.uptime s.tbu.clock (w := { alu := s.alu, touches := [] }) hs.apart hone)
  · simp only [event, finish, finishAsMade, finishWith, takeAll, hsome, Bool.false_eq_true, if_false, hentries]
  · simp only [event, finish, finishAsMade, finishWith, takeAll, hsome, Bool.false_eq_true, if_false, hwithheld]

end Sys2Proof.Machine
end

section
/-!
What the blocks do with lines that changed (R17, R18): limit reports to valves, trip levels to sources, and the routes
of GENERAL lines. Each valve, each source and each line is served once, and no block touches what another serves, so the
order of the blocks does not matter.
-/

namespace Sys2Proof.Machine

variable {a e : Event} {c : CondId} {v k : Nat} {R : Event → Prop}

/-! ### The reports of an event about one condition -/

/-- The reports so far about a condition. -/
def about (c : CondId) (e : Event) : List (Block × Report) := e.reports.filter (fun x => x.2.cond == c)

theorem signal_about_self (b : Block) (active : Bool) (e : Event) :
    about c (e.signal b active c.kind c.index)
      = about c e ++ [(b, { kind := if active then .raise else .clear, cond := c })] := by
  simp [about, Event.signal, Event.report]

theorem signal_about_other {b : Block} {active : Bool} {kind : CondKind} {i : Nat}
    (h : ({ kind := kind, index := i } : CondId) ≠ c) : about c (e.signal b active kind i) = about c e := by
  simp [about, Event.signal, Event.report, h]

theorem about_of_reports (h : e.reports = a.reports) : about c e = about c a := congrArg (List.filter _) h

theorem planReport_reports (slot : Nat) (moved : Option Position) (outcome : Option Ending) (e : Event) :
    (e.planReport slot moved outcome).reports = e.reports := by
  rcases planReport_cases slot moved outcome e with hsame | ⟨r, f, hturn⟩
  · rw [hsame]
  · rw [hturn]
    rfl

theorem claimReport_reports (claim : Option Nat) (moved : Option Position) (outcome : Option Ending) (e : Event) :
    (e.claimReport claim moved outcome).reports = e.reports := by
  cases claim with
  | none => rfl
  | some k => exact planReport_reports k moved outcome e

/-- Is a condition one that the Valve Controller reports (R33, R34)? -/
def ofValve : CondKind → Bool
  | .valveStuck => true
  | .uncommandedMove => true
  | .limitConflict => true
  | _ => false

theorem signal_about_valve {b : Block} {active : Bool} {kind : CondKind} (hkind : ofValve kind = true)
    (hc : ofValve c.kind = false) : about c (e.signal b active kind v) = about c e :=
  signal_about_other fun h => by
    subst h
    exact Bool.false_ne_true (hc.symm.trans hkind)

section
variable (hc : ofValve c.kind = false)
include hc

theorem setStuck_about (b : Bool) : about c (e.setStuck v b) = about c e := by
  unfold Event.setStuck
  split
  · rfl
  · split
    · rfl
    · exact signal_about_valve rfl hc

theorem setUncommanded_about (b : Bool) : about c (e.setUncommanded v b) = about c e := by
  unfold Event.setUncommanded
  split
  · rfl
  · split
    · rfl
    · exact signal_about_valve rfl hc

theorem setConflict_about (b : Bool) : about c (e.setConflict v b) = about c e := by
  unfold Event.setConflict
  split
  · rfl
  · split
    · rfl
    · exact signal_about_valve rfl hc

theorem stuckFollows_about (pos : Position) : about c (e.stuckFollows v pos) = about c e := by
  cases pos
  case stuck => exact setStuck_about hc true
  case opened => exact setStuck_about hc false
  case closed => exact setStuck_about hc false
  all_goals rfl

/-- A valve that takes a position brings no report about other objects. -/
theorem moveValve_about (pos : Position) (n : Nat) (o : Option Ending) :
    about c (e.moveValve v pos n o) = about c e := by
  unfold Event.moveValve
  split
  · dsimp only
    split
    · split
      · rfl
      · exact about_of_reports (claimReport_reports ..)
    · exact (about_of_reports (claimReport_reports ..)).trans (stuckFollows_about hc pos)
  · rfl

end

/-! ### Limit reports -/

/-- What the steps of a limit report about a valve keep. -/
structure LimitClosed (v : Nat) (R : Event → Prop) : Prop where
  move : ∀ pos n o e, R e → R (e.moveValve v pos n o)
  conflict : ∀ b e, R e → R (e.setConflict v b)
  uncommanded : ∀ b e, R e → R (e.setUncommanded v b)

namespace LimitClosed

theorem restReport {x : Valve} {shown : Option Position} (hc : LimitClosed v R) (h : R e) :
    R (e.restReport v x shown) := by
  unfold Event.restReport
  split
  · exact hc.move _ _ _ _ (hc.uncommanded _ _ h)
  · exact hc.move _ _ _ _ (hc.uncommanded _ _ h)
  · exact hc.move _ _ _ _ (hc.uncommanded _ _ h)
  · exact hc.move _ _ _ _ (hc.uncommanded _ _ h)
  · exact hc.move _ _ _ _ h
  · exact hc.move _ _ _ _ h
  · exact h

theorem limitReport (hc : LimitClosed v R) (h : R e) : R (e.limitReport v) := by
  unfold Event.limitReport
  split
  · dsimp only
    split
    · exact hc.move _ _ _ _ (hc.conflict _ _ h)
    · split
      · exact hc.move _ _ _ _ (hc.conflict _ _ h)
      · split
        · split
          · exact hc.move _ _ _ _ h
          · exact h
        · split
          · exact hc.move _ _ _ _ h
          · exact h
        all_goals exact hc.restReport h
  · exact h

end LimitClosed

theorem limitReport_about (hc : ofValve c.kind = false) : about c (e.limitReport v) = about c e :=
  LimitClosed.limitReport (R := fun b => about c b = about c e)
    ⟨fun pos n o _ h => (moveValve_about hc pos n o).trans h, fun b _ h => (setConflict_about hc b).trans h,
      fun b _ h => (setUncommanded_about hc b).trans h⟩ rfl

theorem setConflict_lookup_other {w : Nat} (b : Bool) (hw : w ≠ v) :
    lookup w (e.setConflict v b).net.valves = lookup w e.net.valves := by
  rw [setConflict_net]
  exact lookup_adjust_other hw _ _

theorem limitReport_lookup_other {w : Nat} (hw : w ≠ v) :
    lookup w (e.limitReport v).net.valves = lookup w e.net.valves :=
  LimitClosed.limitReport (R := fun b => lookup w b.net.valves = lookup w e.net.valves)
    ⟨fun pos n o _ h => (moveValve_lookup_other hw pos n o).trans h,
      fun b _ h => (setConflict_lookup_other b hw).trans h,
      fun b _ h => (cleared_lookup_other b hw).trans h⟩ rfl

theorem limitReport_image : (e.limitReport v).image = e.image := Event.limitReport_grows (imageClosed e.image) v e rfl

theorem limitReport_field : KeepsField e.net (e.limitReport v).net :=
  Event.limitReport_keeps (keepsField_closed e.net) v e (.refl _)

/-- Two events agree on what a limit report about a valve reads of it. -/
structure SameValve (v : Nat) (a b : Event) : Prop where
  image : a.image = b.image
  lines : a.net.lines = b.net.lines
  valve : lookup v a.net.valves = lookup v b.net.valves

namespace SameValve

variable {b : Event}

theorem conflict (h : SameValve v a b) (q : Bool) : SameValve v (a.setConflict v q) (b.setConflict v q) where
  image := by simpa using h.image
  lines := by simpa only [setConflict_net] using h.lines
  valve := by simp only [setConflict_net, lookup_adjust_same, h.valve]

theorem uncommanded (h : SameValve v a b) (q : Bool) : SameValve v (a.setUncommanded v q) (b.setUncommanded v q) where
  image := by simpa using h.image
  lines := by simpa only [setUncommanded_net] using h.lines
  valve := by simp only [setUncommanded_net, lookup_adjust_same, h.valve]

theorem moveValve {pos : Position} {n : Nat} {o : Option Ending} (h : SameValve v a b) :
    lookup v (a.moveValve v pos n o).net.valves = lookup v (b.moveValve v pos n o).net.valves := by
  cases hx : lookup v b.net.valves with
  | none => simp [Event.moveValve, hx, h.valve]
  | some x =>
    cases hd : lookup v b.image.valves with
    | none => simp [Event.moveValve, hx, hd, h.valve, h.image]
    | some d =>
      have hx' := h.valve.trans hx
      have hd' : lookup v a.image.valves = some d := by rw [h.image, hd]
      rw [(moveValve_takes hx hd pos n o).lookup_same hx, (moveValve_takes hx' hd' pos n o).lookup_same hx']

theorem restReport {x : Valve} {shown : Option Position} (h : SameValve v a b) :
    lookup v (a.restReport v x shown).net.valves = lookup v (b.restReport v x shown).net.valves := by
  unfold Event.restReport
  split
  · exact (h.uncommanded true).moveValve
  · exact (h.uncommanded true).moveValve
  · exact (h.uncommanded true).moveValve
  · exact (h.uncommanded true).moveValve
  · exact h.moveValve
  · exact h.moveValve
  · exact h.valve

theorem limitReport (h : SameValve v a b) :
    lookup v (a.limitReport v).net.valves = lookup v (b.limitReport v).net.valves := by
  have hpair (d : ValveDef) : limitPair d a.net = limitPair d b.net := by simp only [limitPair, lineActive, h.lines]
  cases hx : lookup v b.net.valves with
  | none => simp [Event.limitReport, hx, h.valve]
  | some x =>
    cases hd : lookup v b.image.valves with
    | none => simp [Event.limitReport, hx, hd, h.valve, h.image]
    | some d =>
      simp only [Event.limitReport, h.valve, h.image, hx, hd, hpair]
      split
      · exact (h.conflict true).moveValve
      · split
        · exact (h.conflict false).moveValve
        · cases x.position with
          | closing =>
            dsimp only
            split
            · exact h.moveValve
            · exact h.valve
          | opening =>
            dsimp only
            split
            · exact h.moveValve
            · exact h.valve
          | _ => exact h.restReport

end SameValve

section
variable {l : List Nat}

theorem limitReports_image : (Event.limitReports l e).image = e.image :=
  Event.limitReports_grows (imageClosed e.image) l e rfl

theorem limitReports_field : KeepsField e.net (Event.limitReports l e).net :=
  Event.limitReports_keeps (keepsField_closed e.net) l e (.refl _)

theorem limitReports_about (hc : ofValve c.kind = false) : about c (Event.limitReports l e) = about c e := by
  induction l generalizing e with
  | nil => rfl
  | cons w t ih => exact ih.trans (limitReport_about hc)

theorem limitReports_lookup_other (hv : v ∉ l) :
    lookup v (Event.limitReports l e).net.valves = lookup v e.net.valves := by
  induction l generalizing e with
  | nil => rfl
  | cons w t ih =>
    obtain ⟨hw, ht⟩ := not_or.1 (List.mem_cons.not.1 hv)
    exact (ih ht).trans (limitReport_lookup_other hw)

theorem limitReport_sameValve {w : Nat} (hw : v ≠ w) : SameValve v (e.limitReport w) e :=
  ⟨limitReport_image, limitReport_field.1.2, limitReport_lookup_other hw⟩

/-- A valve of the list takes its one limit report. -/
theorem limitReports_lookup (hl : l.Nodup) (hv : v ∈ l) :
    lookup v (Event.limitReports l e).net.valves = lookup v (e.limitReport v).net.valves := by
  induction l generalizing e with
  | nil => cases hv
  | cons w t ih =>
    obtain ⟨hwt, ht⟩ := List.nodup_cons.1 hl
    by_cases hw : v = w
    · subst hw
      exact limitReports_lookup_other hwt
    · exact (ih ht ((List.mem_cons.1 hv).resolve_left hw)).trans (limitReport_sameValve hw).limitReport

end

/-! ### Trip levels (R38) -/

/-- A source once its trip line has a level. -/
def Source.tripTo (active : Bool) (z : Source) : Source :=
  if z.tripped = active then z else { z with tripped := active, live := !active && !z.outletLow && !z.out }

theorem source_lookup (k : Nat) (f : Source → Source) (e : Event) :
    lookup k (e.source k f).net.sources = (lookup k e.net.sources).map fun z =>
      { f z with live := liveness (f z) } := by
  unfold Event.source
  split
  · next hnone => rw [hnone]; rfl
  · next z hz =>
    dsimp only
    split
    · simp [Event.setNet, hz]
    · refine (congrArg (lookup k) (congrArg Net.sources (countChange_engineOnly _) :)).trans ?_
      simp [Event.setNet, hz]

theorem source_lookup_other {j : Nat} (hj : j ≠ k) (f : Source → Source) :
    lookup j (e.source k f).net.sources = lookup j e.net.sources := by
  unfold Event.source
  split
  · rfl
  · dsimp only
    split
    · exact lookup_put_other hj _ _
    · refine (congrArg (lookup j) (congrArg Net.sources (countChange_engineOnly _) :)).trans ?_
      exact lookup_put_other hj _ _

end Sys2Proof.Machine
end

section
/-!
Trip levels, GENERAL lines, and the line changes of one event (R16 to R18): O14.
-/

namespace Sys2Proof.Machine

variable {a b e : Event} {c : CondId} {v k n : Nat} {l due : List Nat} {active : Bool}

/-! ### Trip levels (R38) -/

/-- What a block leaves that does not work on the valves or the lines. -/
structure LeavesValves (a b : Event) : Prop where
  image : b.image = a.image
  pins : b.net.pins = a.net.pins
  lines : b.net.lines = a.net.lines
  valves : b.net.valves = a.net.valves

theorem LeavesValves.refl (e : Event) : LeavesValves e e := ⟨rfl, rfl, rfl, rfl⟩

theorem LeavesValves.trans {d : Event} (h : LeavesValves a b) (h' : LeavesValves b d) : LeavesValves a d :=
  ⟨h'.image.trans h.image, h'.pins.trans h.pins, h'.lines.trans h.lines, h'.valves.trans h.valves⟩

theorem LeavesValves.changed (h : LeavesValves a b) : LeavesValves a b.changed :=
  h.trans ⟨rfl, (congrArg Net.pins (countChange_engineOnly _) :), (congrArg Net.lines (countChange_engineOnly _) :),
    (countChange_engineOnly _).valves⟩

theorem source_leavesValves (k : Nat) (f : Source → Source) (e : Event) : LeavesValves e (e.source k f) := by
  unfold Event.source
  split
  · exact .refl e
  · dsimp only
    split
    · exact ⟨rfl, rfl, rfl, rfl⟩
    · exact LeavesValves.changed ⟨rfl, rfl, rfl, rfl⟩

theorem source_reports (k : Nat) (f : Source → Source) (e : Event) : (e.source k f).reports = e.reports := by
  unfold Event.source
  split
  · rfl
  · dsimp only
    split <;> rfl

theorem trip_leavesValves (k : Nat) (active : Bool) (e : Event) : LeavesValves e (e.trip k active) := by
  unfold Event.trip
  split
  · exact .refl e
  · split
    · exact .refl e
    · exact (source_leavesValves k _ e).trans ⟨rfl, rfl, rfl, rfl⟩

theorem trip_lookup (k : Nat) (active : Bool) (e : Event) :
    lookup k (e.trip k active).net.sources = (lookup k e.net.sources).map (Source.tripTo active) := by
  unfold Event.trip
  split
  · next hnone => rw [hnone]; rfl
  · next z hz =>
    by_cases hsame : z.tripped = active
    · simp [hsame, hz, Source.tripTo]
    · simp only [if_neg hsame]
      refine (source_lookup k _ e).trans ?_
      simp [hz, Source.tripTo, hsame, liveness]

theorem trip_lookup_other {j : Nat} (hj : j ≠ k) : lookup j (e.trip k active).net.sources = lookup j e.net.sources := by
  unfold Event.trip
  split
  · rfl
  · split
    · rfl
    · exact source_lookup_other hj _

theorem trip_about_other (h : ({ kind := .sourceTrip, index := k } : CondId) ≠ c) :
    about c (e.trip k active) = about c e := by
  unfold Event.trip
  split
  · rfl
  · split
    · rfl
    · exact (signal_about_other h).trans (about_of_reports (source_reports ..))

/-- What the trip level of a source adds to the reports about its SOURCE_TRIP. -/
def tripReports (k : Nat) (active : Bool) (z : Option Source) : List (Block × Report) :=
  match z with
  | none => []
  | some z =>
    if z.tripped = active then []
    else [(.srm, { kind := if active then .raise else .clear, cond := { kind := .sourceTrip, index := k } })]

theorem trip_about (k : Nat) (active : Bool) (e : Event) :
    about { kind := .sourceTrip, index := k } (e.trip k active)
      = about { kind := .sourceTrip, index := k } e ++ tripReports k active (lookup k e.net.sources) := by
  unfold Event.trip tripReports
  cases lookup k e.net.sources with
  | none => simp
  | some z =>
    by_cases hsame : z.tripped = active
    · simp [hsame]
    · simp only [if_neg hsame]
      exact (signal_about_self (c := { kind := .sourceTrip, index := k }) .srm active _).trans
        (congrArg (· ++ _) (about_of_reports (source_reports ..)))

/-- The level of a source's trip line. -/
def tripLevel (m : Image) (lines : List LineScan) (k : Nat) : Bool :=
  (((lookup k m.sources).bind SourceDef.tripLine).bind fun n => (lines[n]?).map LineScan.active).getD false

theorem lineActive_tripLine (e : Event) (k : Nat) :
    lineActive e.net ((lookup k e.image.sources).bind SourceDef.tripLine) = tripLevel e.image e.net.lines k := by
  unfold lineActive tripLevel
  cases (lookup k e.image.sources).bind SourceDef.tripLine <;> rfl

theorem trips_cons (w : Nat) (t : List Nat) (e : Event) :
    Event.trips (w :: t) e = Event.trips t (e.trip w (tripLevel e.image e.net.lines w)) := by
  rw [← lineActive_tripLine]
  rfl

theorem trips_leavesValves (l : List Nat) (e : Event) : LeavesValves e (Event.trips l e) := by
  induction l generalizing e with
  | nil => exact .refl e
  | cons w t ih => exact (trip_leavesValves w _ e).trans (ih _)

theorem trips_about_other (h : ∀ k, ({ kind := .sourceTrip, index := k } : CondId) ≠ c) :
    about c (Event.trips l e) = about c e := by
  induction l generalizing e with
  | nil => rfl
  | cons w t ih => exact ih.trans (trip_about_other (h w))

/-- What an event has of a source: its record, and the reports about its trip. -/
def sourceOf (k : Nat) (e : Event) : Option Source × List (Block × Report) :=
  (lookup k e.net.sources, about { kind := .sourceTrip, index := k } e)

theorem trip_sourceOf_other {j : Nat} (hj : j ≠ k) : sourceOf j (e.trip k active) = sourceOf j e :=
  Prod.ext (trip_lookup_other hj) (trip_about_other (by simpa using hj.symm))

theorem trips_sourceOf_other (hk : k ∉ l) : sourceOf k (Event.trips l e) = sourceOf k e := by
  induction l generalizing e with
  | nil => rfl
  | cons w t ih =>
    obtain ⟨hw, ht⟩ := not_or.1 (List.mem_cons.not.1 hk)
    exact (ih ht).trans (trip_sourceOf_other hw)

/-- What a trip level makes of a source. -/
def tripOf (k : Nat) (active : Bool) (x : Option Source × List (Block × Report)) :
    Option Source × List (Block × Report) :=
  (x.1.map (Source.tripTo active), x.2 ++ tripReports k active x.1)

theorem trip_sourceOf (k : Nat) (active : Bool) (e : Event) :
    sourceOf k (e.trip k active) = tripOf k active (sourceOf k e) :=
  Prod.ext (trip_lookup k active e) (trip_about k active e)

/-- A source of the list takes its one trip level. -/
theorem trips_sourceOf (hl : l.Nodup) (hk : k ∈ l) :
    sourceOf k (Event.trips l e) = tripOf k (tripLevel e.image e.net.lines k) (sourceOf k e) := by
  induction l generalizing e with
  | nil => cases hk
  | cons w t ih =>
    obtain ⟨hwt, ht⟩ := List.nodup_cons.1 hl
    rw [trips_cons]
    by_cases hw : k = w
    · subst hw
      exact (trips_sourceOf_other hwt).trans (trip_sourceOf ..)
    · have hleaves := trip_leavesValves w (tripLevel e.image e.net.lines w) e
      rw [ih ht ((List.mem_cons.1 hk).resolve_left hw), hleaves.image, hleaves.lines, trip_sourceOf_other hw]

/-! ### GENERAL lines (R18) -/

theorem generalLine_net (n : Nat) (e : Event) : (e.generalLine n).net = e.net ∧ (e.generalLine n).image = e.image := by
  unfold Event.generalLine
  split
  · split <;> exact ⟨rfl, rfl⟩
  · exact ⟨rfl, rfl⟩

theorem generalLines_net (l : List Nat) (e : Event) :
    (Event.generalLines l e).net = e.net ∧ (Event.generalLines l e).image = e.image := by
  induction l generalizing e with
  | nil => exact ⟨rfl, rfl⟩
  | cons w t ih =>
    obtain ⟨hnet, himage⟩ := generalLine_net w e
    exact ⟨(ih _).1.trans hnet, (ih _).2.trans himage⟩

theorem generalLine_uptime (n : Nat) (e : Event) : (e.generalLine n).uptime = e.uptime := by
  unfold Event.generalLine
  split
  · split <;> rfl
  · rfl

theorem generalLine_about_other (h : ({ kind := .lineActive, index := n } : CondId) ≠ c) :
    about c (e.generalLine n) = about c e := by
  unfold Event.generalLine
  split
  · split
    · exact signal_about_other h
    · rfl
    · rfl
  · rfl

theorem generalLines_about_other (h : ∀ n ∈ l, ({ kind := .lineActive, index := n } : CondId) ≠ c) :
    about c (Event.generalLines l e) = about c e := by
  induction l generalizing e with
  | nil => rfl
  | cons w t ih =>
    exact (ih fun n hn => h n (List.mem_cons_of_mem _ hn)).trans (generalLine_about_other (h w (List.mem_cons_self ..)))

/-- The report that a line routed ALARM brings. -/
def lineReport (n : Nat) (active : Bool) : Block × Report :=
  (.lsc, { kind := if active then .raise else .clear, cond := { kind := .lineActive, index := n } })

/-- A line of the list that is routed ALARM brings its one report. -/
theorem generalLines_about (hl : l.Nodup) (hn : n ∈ l) (hrole : (lineOf e.image n).role = .general)
    (hroute : (lineOf e.image n).route = some .alarm) :
    about { kind := .lineActive, index := n } (Event.generalLines l e)
      = about { kind := .lineActive, index := n } e ++ [lineReport n (lineActive e.net (some n))] := by
  induction l generalizing e with
  | nil => cases hn
  | cons w t ih =>
    obtain ⟨hwt, ht⟩ := List.nodup_cons.1 hl
    obtain ⟨hnet, himage⟩ := generalLine_net w e
    by_cases hw : n = w
    · subst hw
      have hother : ∀ k ∈ t, ({ kind := .lineActive, index := k } : CondId) ≠ { kind := .lineActive, index := n } :=
        fun k hk heq => by cases heq; exact hwt hk
      refine (generalLines_about_other hother).trans ?_
      rw [Event.generalLine, if_pos hrole, hroute]
      exact signal_about_self (c := { kind := .lineActive, index := n }) ..
    · refine (ih ht ((List.mem_cons.1 hn).resolve_left hw) (himage ▸ hrole) (himage ▸ hroute)).trans ?_
      rw [hnet, generalLine_about_other (by simpa using Ne.symm hw)]

/-- A line of the list that is routed NOTICE is announced. -/
theorem generalLines_posts (hn : n ∈ l) (hrole : (lineOf e.image n).role = .general)
    (hroute : (lineOf e.image n).route = some .notice) :
    (Block.lsc, { body := .lineChange n (lineActive e.net (some n)) e.uptime, also := [] })
      ∈ (Event.generalLines l e).posts := by
  induction l generalizing e with
  | nil => cases hn
  | cons w t ih =>
    obtain ⟨hnet, himage⟩ := generalLine_net w e
    by_cases hw : n = w
    · subst hw
      refine Event.generalLines_grows (postsClosed _) t _ ?_
      rw [Event.generalLine, if_pos hrole, hroute]
      exact List.mem_append_right _ (List.mem_singleton.2 rfl)
    · have htail := ih (e := e.generalLine w) ((List.mem_cons.1 hn).resolve_left hw) (himage ▸ hrole) (himage ▸ hroute)
      rw [hnet, generalLine_uptime] at htail
      exact htail

/-! ### Blocks in any order (assumption 4) -/

section
variable {f : Block → Event → Event} {bs : List Block} {u : Block} {P Q : Event → Prop}

theorem inOrder_keeps_of_mem (h : ∀ w ∈ bs, ∀ e, P e → P (f w e)) (he : P e) : P (Event.inOrder f bs e) := by
  induction bs generalizing e with
  | nil => exact he
  | cons w t ih =>
    exact ih (fun x hx => h x (List.mem_cons_of_mem _ hx)) (h w (List.mem_cons_self ..) e he)

/-- One block turns `P` into `Q`, and the others keep both. -/
theorem inOrder_turn (hu : u ∈ bs) (hbs : bs.Nodup) (hbefore : ∀ w ∈ bs, w ≠ u → ∀ e, P e → P (f w e))
    (hturn : ∀ e, P e → Q (f u e)) (hafter : ∀ w ∈ bs, w ≠ u → ∀ e, Q e → Q (f w e)) (he : P e) :
    Q (Event.inOrder f bs e) := by
  induction bs generalizing e with
  | nil => cases hu
  | cons w t ih =>
    obtain ⟨hwt, ht⟩ := List.nodup_cons.1 hbs
    by_cases hw : w = u
    · subst hw
      exact inOrder_keeps_of_mem (bs := t) (fun x hx => hafter x (List.mem_cons_of_mem _ hx) fun heq => hwt (heq ▸ hx))
        (hturn e he)
    · exact ih ((List.mem_cons.1 hu).resolve_left (Ne.symm hw)) ht
        (fun x hx => hbefore x (List.mem_cons_of_mem _ hx)) (fun x hx => hafter x (List.mem_cons_of_mem _ hx))
        (hbefore w (List.mem_cons_self ..) hw e he)

theorem anyOrder_perm (bs : List Block) (cs : Nat) : bs.Perm (merge (bs.map fun w => (w, w)) cs).1 := by
  have h := merge_perm (bs.map fun w => (w, w)) cs
  rw [List.map_map] at h
  simpa [Function.comp_def] using h

theorem inAnyOrder_keeps_of_mem (hchoices : ∀ e k, P e → P { e with choices := k })
    (h : ∀ w ∈ bs, ∀ e, P e → P (f w e)) (he : P e) : P (e.inAnyOrder bs f) :=
  inOrder_keeps_of_mem (fun w hw => h w ((anyOrder_perm bs _).mem_iff.2 hw)) (hchoices e _ he)

theorem inAnyOrder_turn (hchoices : ∀ e k, P e → P { e with choices := k }) (hu : u ∈ bs) (hbs : bs.Nodup)
    (hbefore : ∀ w ∈ bs, w ≠ u → ∀ e, P e → P (f w e)) (hturn : ∀ e, P e → Q (f u e))
    (hafter : ∀ w ∈ bs, w ≠ u → ∀ e, Q e → Q (f w e)) (he : P e) : Q (e.inAnyOrder bs f) :=
  have hperm := anyOrder_perm bs e.choices
  inOrder_turn (hperm.mem_iff.1 hu) (hperm.nodup_iff.1 hbs) (fun w hw => hbefore w (hperm.mem_iff.2 hw)) hturn
    (fun w hw => hafter w (hperm.mem_iff.2 hw)) (hchoices e _ he)

end

end Sys2Proof.Machine
end

section
/-!
The line changes of one event (R16 to R18), and LINE_CHANGE (O14).
-/

namespace Sys2Proof.Machine

variable {e : Event} {s : State} {v k n : Nat} {due : List Nat}

/-! ### The debounced levels -/

theorem mapFrom_getElem? {α β : Type} (f : Nat → α → β) (l : List α) (i n : Nat) :
    (mapFrom f i l)[n]? = (l[n]?).map (f (i + n)) := by
  induction l generalizing i n with
  | nil => rfl
  | cons x t ih =>
    cases n with
    | zero => rfl
    | succ n =>
      refine (ih (i + 1) n).trans ?_
      rw [Nat.add_right_comm]
      rfl

theorem settleLines_getElem? (due : List Nat) (l : List LineScan) (n : Nat) :
    (settleLines due l)[n]? = (l[n]?).map fun x => if n ∈ due then settleLine x else x := by
  refine (mapFrom_getElem? _ l 0 n).trans ?_
  rw [Nat.zero_add]

theorem mem_dueLines {m : Image} {l : List LineScan} :
    n ∈ dueLines m l ↔ ∃ x, n < 64 ∧ l[n]? = some x ∧ (lineOf m n).debounce ≤ x.count := by
  simp only [dueLines, List.mem_filter, List.mem_range, Config.inputLines]
  cases l[n]? with
  | none => simp
  | some x => simp [lineDue]

theorem dueLines_nodup (m : Image) (l : List LineScan) : (dueLines m l).Nodup := List.nodup_range.filter _

/-! ### The objects that lines bear on -/

section
variable {m : Image}

theorem keys_nodup {α : Type} {t : Table α} (h : t.wf = true) : (keys t).Nodup :=
  ((keysRising_iff_pairwise _).1 h).imp fun hlt => Nat.ne_of_lt hlt

theorem mem_keys_filter {α : Type} {t : Table α} {p : Nat × α → Bool} (h : t.wf = true) :
    k ∈ keys (t.filter p) ↔ ∃ x, lookup k t = some x ∧ p (k, x) = true := by
  rw [keys_eq_map, List.mem_map]
  constructor
  · rintro ⟨⟨j, x⟩, hmem, rfl⟩
    obtain ⟨hmem, hp⟩ := List.mem_filter.1 hmem
    exact ⟨x, lookup_of_mem h hmem, hp⟩
  · rintro ⟨x, hx, hp⟩
    exact ⟨(k, x), List.mem_filter.2 ⟨mem_of_lookup hx, hp⟩, rfl⟩

/-- A line of the list is a limit of the valve. -/
def turnsValve (due : List Nat) (d : ValveDef) : Prop :=
  d.kind = .actuated ∧ ∃ n ∈ due, d.closedLimit = some n ∨ d.openLimit = some n

theorem mem_valvesOn {d : ValveDef} (h : m.valves.wf = true) (hd : lookup v m.valves = some d) :
    v ∈ valvesOn m due ↔ turnsValve due d := by
  simp [valvesOn, mem_keys_filter h, hd, turnsValve, namesLimit]

theorem mem_sourcesOn {d : SourceDef} (h : m.sources.wf = true) (hd : lookup k m.sources = some d) :
    k ∈ sourcesOn m due ↔ ∃ n ∈ due, d.tripLine = some n := by
  simp [sourcesOn, mem_keys_filter h, hd]

theorem valvesOn_nodup (h : m.valves.wf = true) : (valvesOn m due).Nodup := keys_nodup (Table.wf_filter _ h)

theorem sourcesOn_nodup (h : m.sources.wf = true) : (sourcesOn m due).Nodup := keys_nodup (Table.wf_filter _ h)

/-! ### The blocks that lines reach -/

theorem mem_lineUsers_vlc (h : v ∈ valvesOn m due) : Block.vlc ∈ lineUsers m due := by
  simp [lineUsers, List.ne_nil_of_mem h]

theorem mem_lineUsers_srm (h : k ∈ sourcesOn m due) : Block.srm ∈ lineUsers m due := by
  simp [lineUsers, List.ne_nil_of_mem h]

theorem mem_lineUsers_lsc (h : n ∈ due) (hrole : (lineOf m n).role = .general) : Block.lsc ∈ lineUsers m due := by
  have hany : due.any (fun n => (lineOf m n).role == .general) = true := List.any_eq_true.2 ⟨n, h, by simp [hrole]⟩
  simp [lineUsers, hany]

theorem lineUsers_nodup (m : Image) (due : List Nat) : (lineUsers m due).Nodup := by
  unfold lineUsers
  split <;> split <;> split <;> decide

end

/-! ### What each block leaves -/

/-- The image and the lines stand while the changes are delivered. -/
structure Delivers (m : Image) (p : BitVec 64) (l : List LineScan) (e : Event) : Prop where
  image : e.image = m
  pins : e.net.pins = p
  lines : e.net.lines = l

section
variable {m : Image} {p : BitVec 64} {l : List LineScan}

theorem Delivers.leaves {b : Event} (h : Delivers m p l e) (hb : LeavesValves e b) : Delivers m p l b :=
  ⟨hb.image.trans h.image, hb.pins.trans h.pins, hb.lines.trans h.lines⟩

theorem lineUser_lsc_net (due : List Nat) (e : Event) :
    (Event.lineUser due .lsc e).net = e.net ∧ (Event.lineUser due .lsc e).image = e.image := generalLines_net due e

theorem lineUser_delivers (u : Block) (h : Delivers m p l e) : Delivers m p l (Event.lineUser due u e) := by
  cases u with
  | vlc =>
    obtain ⟨⟨hpins, hlines⟩, _⟩ := limitReports_field (e := e) (l := valvesOn e.image due)
    exact ⟨limitReports_image.trans h.image, hpins.trans h.pins, hlines.trans h.lines⟩
  | srm => exact h.leaves (trips_leavesValves _ e)
  | lsc =>
    obtain ⟨hnet, himage⟩ := lineUser_lsc_net due e
    exact ⟨himage.trans h.image, hnet ▸ h.pins, hnet ▸ h.lines⟩
  | _ => exact h

/-- The event once the lines have taken their new levels. -/
def Event.settled (due : List Nat) (e : Event) : Event :=
  e.setNet { e.net with lines := settleLines due e.net.lines }

theorem lineChanges_delivers (due : List Nat) (e : Event) :
    Delivers e.image e.net.pins (settleLines due e.net.lines) (e.lineChanges due) :=
  inAnyOrder_keeps_of_mem (P := Delivers e.image e.net.pins (settleLines due e.net.lines))
    (fun _ _ h => ⟨h.image, h.pins, h.lines⟩) (fun u _ _ h => lineUser_delivers u h)
      (e := e.settled due) ⟨rfl, rfl, rfl⟩

end

/-- A block other than the Valve Controller leaves the valves. -/
theorem lineUser_valves {u : Block} (hu : u ≠ .vlc) (e : Event) : LeavesValves e (Event.lineUser due u e) := by
  cases u with
  | vlc => exact absurd rfl hu
  | srm => exact trips_leavesValves _ e
  | lsc =>
    obtain ⟨hnet, himage⟩ := lineUser_lsc_net due e
    exact ⟨himage, congrArg Net.pins hnet, congrArg Net.lines hnet, congrArg Net.valves hnet⟩
  | _ => exact .refl e

theorem LeavesValves.sameValve {a b d : Event} (h : LeavesValves a b) (hd : SameValve v a d) : SameValve v b d :=
  ⟨h.image.trans hd.image, h.lines.trans hd.lines, (congrArg (lookup v) h.valves).trans hd.valve⟩

/-- A valve that lines of the list bear on takes one limit report over the new levels. -/
theorem lineChanges_valve (hl : (valvesOn e.image due).Nodup) (hv : v ∈ valvesOn e.image due) :
    lookup v (e.lineChanges due).net.valves = lookup v ((e.settled due).limitReport v).net.valves := by
  refine inAnyOrder_turn (u := .vlc) (e := e.settled due) (P := fun x => SameValve v x (e.settled due))
    (Q := fun x => lookup v x.net.valves = lookup v ((e.settled due).limitReport v).net.valves)
    (fun _ _ h => ⟨h.image, h.lines, h.valve⟩) (mem_lineUsers_vlc hv) (lineUsers_nodup _ _)
    (fun u _ hu x h => (lineUser_valves hu x).sameValve h) (fun x h => ?_)
    (fun u _ hu x h => (congrArg (lookup v) (lineUser_valves hu x).valves).trans h) ⟨rfl, rfl, rfl⟩
  have himage : x.image = e.image := h.image
  refine (limitReports_lookup ?_ ?_).trans h.limitReport
  · rwa [himage]
  · rwa [himage]

theorem lineChanges_valve_other (hv : v ∉ valvesOn e.image due) :
    lookup v (e.lineChanges due).net.valves = lookup v e.net.valves := by
  refine (inAnyOrder_keeps_of_mem (e := e.settled due) (P := fun x => SameValve v x (e.settled due))
    (fun _ _ h => ⟨h.image, h.lines, h.valve⟩) (fun u _ x h => ?_) ⟨rfl, rfl, rfl⟩).valve
  by_cases hu : u = .vlc
  · subst hu
    have himage : x.image = e.image := h.image
    refine ⟨limitReports_image.trans h.image, limitReports_field.1.2.trans h.lines, ?_⟩
    exact (limitReports_lookup_other (himage ▸ hv)).trans h.valve
  · exact (lineUser_valves hu x).sameValve h

/-! ### Sources -/

/-- What the trip level of a source depends on, and what it works on. -/
structure SameSource (k : Nat) (a b : Event) : Prop where
  image : a.image = b.image
  lines : a.net.lines = b.net.lines
  source : sourceOf k a = sourceOf k b

/-- A block other than the Source Monitor leaves the sources and makes no report about their trips. -/
theorem lineUser_sourceOf {u : Block} (hu : u ≠ .srm) (e : Event) :
    sourceOf k (Event.lineUser due u e) = sourceOf k e := by
  cases u with
  | vlc => exact Prod.ext (congrArg (lookup k) limitReports_field.2.1) (limitReports_about rfl)
  | srm => exact absurd rfl hu
  | lsc =>
    refine Prod.ext (congrArg (fun m : Net => lookup k m.sources) (lineUser_lsc_net due e).1) ?_
    exact generalLines_about_other fun _ _ => by simp
  | _ => rfl

theorem lineUser_sameSource {u : Block} {b : Event} (hu : u ≠ .srm) (h : SameSource k e b) :
    SameSource k (Event.lineUser due u e) b := by
  have hdelivers := lineUser_delivers (due := due) u (e := e) ⟨rfl, rfl, rfl⟩
  exact ⟨hdelivers.image.trans h.image, hdelivers.lines.trans h.lines, (lineUser_sourceOf hu e).trans h.source⟩

/-- A source whose trip line is in the list takes its new level. -/
theorem lineChanges_source (hl : (sourcesOn e.image due).Nodup) (hk : k ∈ sourcesOn e.image due) :
    sourceOf k (e.lineChanges due)
      = tripOf k (tripLevel e.image (settleLines due e.net.lines) k) (sourceOf k e) := by
  refine inAnyOrder_turn (u := .srm) (e := e.settled due) (P := fun x => SameSource k x (e.settled due))
    (Q := fun x => sourceOf k x = tripOf k (tripLevel e.image (settleLines due e.net.lines) k) (sourceOf k e))
    (fun _ _ h => ⟨h.image, h.lines, h.source⟩) (mem_lineUsers_srm hk) (lineUsers_nodup _ _)
    (fun u _ hu x h => lineUser_sameSource hu h) (fun x h => ?_)
    (fun u _ hu x h => (lineUser_sourceOf hu x).trans h) ⟨rfl, rfl, rfl⟩
  have himage : x.image = e.image := h.image
  refine (trips_sourceOf (himage ▸ hl) (himage ▸ hk)).trans ?_
  rw [h.image, h.lines, h.source]
  rfl

theorem lineChanges_source_other (hk : k ∉ sourcesOn e.image due) : sourceOf k (e.lineChanges due) = sourceOf k e := by
  refine (inAnyOrder_keeps_of_mem (e := e.settled due) (P := fun x => SameSource k x (e.settled due))
    (fun _ _ h => ⟨h.image, h.lines, h.source⟩) (fun u _ x h => ?_) ⟨rfl, rfl, rfl⟩).source
  by_cases hu : u = .srm
  · subst hu
    have himage : x.image = e.image := h.image
    have hleaves := trips_leavesValves (sourcesOn x.image due) x
    refine ⟨hleaves.image.trans h.image, hleaves.lines.trans h.lines, ?_⟩
    exact (trips_sourceOf_other (himage ▸ hk)).trans h.source
  · exact lineUser_sameSource hu h

/-! ### GENERAL lines -/

/-- What the event has of a GENERAL line: the level, and the reports about it. -/
structure SameLine (n : Nat) (a b : Event) : Prop where
  image : a.image = b.image
  lines : a.net.lines = b.net.lines
  uptime : a.uptime = b.uptime
  reports : about { kind := .lineActive, index := n } a = about { kind := .lineActive, index := n } b

theorem uptimeClosed (up : Word) : EventClosed (fun e => e.uptime = up) where
  setNet _ _ h := h
  choices _ _ h := h
  report _ _ _ _ _ h := h
  post _ _ _ _ h := h
  markPlan _ _ _ _ _ _ h := h
  markReleased _ _ _ h := h
  markOutage n e h := by unfold Event.markOutage; split <;> exact h
  markClosed _ _ _ h := h
  markCall n e h := by unfold Event.markCall; split <;> exact h
  markFreed _ _ _ h := h

theorem lineUser_lineReports {u : Block} (hu : u ≠ .lsc) (e : Event) :
    about { kind := .lineActive, index := n } (Event.lineUser due u e) =
      about { kind := .lineActive, index := n } e := by
  cases u with
  | vlc => exact limitReports_about rfl
  | srm => exact trips_about_other fun _ => by simp
  | lsc => exact absurd rfl hu
  | _ => rfl

theorem lineUser_sameLine {u : Block} {b : Event} (hu : u ≠ .lsc) (h : SameLine n e b) :
    SameLine n (Event.lineUser due u e) b := by
  have hdelivers := lineUser_delivers (due := due) u (e := e) ⟨rfl, rfl, rfl⟩
  exact ⟨hdelivers.image.trans h.image, hdelivers.lines.trans h.lines,
    (Event.lineUser_grows (uptimeClosed e.uptime) due u e rfl).trans h.uptime,
      (lineUser_lineReports hu e).trans h.reports⟩

theorem lineActive_of_lines {a b : Net} (h : a.lines = b.lines) (n : Option Nat) : lineActive a n = lineActive b n := by
  simp only [lineActive, h]

/-- A changed line that is routed ALARM brings its one report. -/
theorem lineChanges_report (hl : due.Nodup) (hn : n ∈ due) (hrole : (lineOf e.image n).role = .general)
    (hroute : (lineOf e.image n).route = some .alarm) :
    about { kind := .lineActive, index := n } (e.lineChanges due)
      = about { kind := .lineActive, index := n } e ++ [lineReport n (lineActive (e.settled due).net (some n))] := by
  refine inAnyOrder_turn (u := .lsc) (e := e.settled due) (P := fun x => SameLine n x (e.settled due))
    (Q := fun x => about { kind := .lineActive, index := n } x
      = about { kind := .lineActive, index := n } e ++ [lineReport n (lineActive (e.settled due).net (some n))])
    (fun _ _ h => ⟨h.image, h.lines, h.uptime, h.reports⟩) (mem_lineUsers_lsc hn hrole) (lineUsers_nodup _ _)
    (fun u _ hu x h => lineUser_sameLine hu h) (fun x h => ?_) (fun u _ hu x h => (lineUser_lineReports hu x).trans h)
    ⟨rfl, rfl, rfl, rfl⟩
  have himage : x.image = e.image := h.image
  refine (generalLines_about hl hn (himage ▸ hrole) (himage ▸ hroute)).trans ?_
  rw [h.reports, lineActive_of_lines h.lines]
  rfl

/-- A changed line that is routed NOTICE is announced. -/
theorem lineChanges_posts (hn : n ∈ due) (hrole : (lineOf e.image n).role = .general)
    (hroute : (lineOf e.image n).route = some .notice) :
    (Block.lsc, { body := .lineChange n (lineActive (e.settled due).net (some n)) e.uptime, also := [] })
      ∈ (e.lineChanges due).posts := by
  refine inAnyOrder_turn (u := .lsc) (e := e.settled due) (P := fun x => SameLine n x (e.settled due))
    (Q := fun x => (Block.lsc, { body := .lineChange n (lineActive (e.settled due).net (some n)) e.uptime, also := [] })
      ∈ x.posts)
    (fun _ _ h => ⟨h.image, h.lines, h.uptime, h.reports⟩) (mem_lineUsers_lsc hn hrole) (lineUsers_nodup _ _)
    (fun u _ hu x h => lineUser_sameLine hu h) (fun x h => ?_) (fun u _ _ x h => ?_) ⟨rfl, rfl, rfl, rfl⟩
  case refine_2 => exact Event.lineUser_grows (postsClosed _) due u x h
  have himage : x.image = e.image := h.image
  have hposts := generalLines_posts hn (himage ▸ hrole) (himage ▸ hroute)
  rw [lineActive_of_lines h.lines, h.uptime] at hposts
  exact hposts

end Sys2Proof.Machine
end

section
/-!
An event that delivers line changes (R16 to R18), as its state shows it: LINE_CHANGE (O14).
-/

namespace Sys2Proof.Machine

variable {s t : State} {e : Event} {v k n line : Nat} {due : List Nat} {f : Event → Event} {x : LineScan}
  {active : Bool}

/-! ### The end of an event that delivers line changes -/

/-- A report of a raise or a clear, by the level. -/
def levelReport (active : Bool) (c : CondId) : Report := { kind := if active then .raise else .clear, cond := c }

theorem stands_level {c : CondId} {a : Alu} (h : Stands (levelReport (!active) c) a) :
    (active = false → StandsRaised c a) ∧ (active = true → StandsCleared c a) := by
  refine ⟨fun hoff => ?_, fun hon => ?_⟩
  · subst hoff
    exact h
  · subst hon
    exact h

theorem settled_level (hx : e.net.lines[n]? = some x) (hn : n ∈ due) :
    lineActive (e.settled due).net (some n) = !x.active := by
  simp [lineActive, Event.settled, Event.setNet, settleLines_getElem?, hx, hn, settleLine]

theorem settled_tripLevel {m : Image} {d : SourceDef} (hd : lookup k m.sources = some d) (hline : d.tripLine = some n)
    (hx : e.net.lines[n]? = some x) (hn : n ∈ due) : tripLevel m (settleLines due e.net.lines) k = !x.active := by
  simp [tripLevel, hd, hline, settleLines_getElem?, hx, hn, settleLine]

/-- The event of a state delivers the changes of a list of lines, as its first act. -/
structure DeliversChanges (f : Event → Event) (due : List Nat) (e : Event) (s : State) : Prop where
  event : f (Event.start s) = e.lineChanges due
  nodup : due.Nodup
  image : e.image = s.cfu.image
  uptime : e.uptime = s.tbu.uptime
  reports : e.reports = []

theorem about_of_none (h : e.reports = []) (c : CondId) : about c e = [] := by
  unfold about
  rw [h]
  rfl

namespace DeliversChanges

variable (h : DeliversChanges f due e s)
include h

theorem net : ∃ l, (Machine.event f s).net = { (e.lineChanges due).net with plans := l } := by
  obtain ⟨l, hl⟩ := event_net f s
  exact ⟨l, by rw [hl, h.event]⟩

theorem lines : (Machine.event f s).net.lines = settleLines due e.net.lines := by
  obtain ⟨l, hl⟩ := h.net
  rw [hl]
  exact (lineChanges_delivers due e).lines

theorem pins : (Machine.event f s).net.pins = e.net.pins := by
  obtain ⟨l, hl⟩ := h.net
  rw [hl]
  exact (lineChanges_delivers due e).pins

theorem notified (hn : n ∈ due) (hx : e.net.lines[n]? = some x) (hrole : (lineOf s.cfu.image n).role = .general)
    (hroute : (lineOf s.cfu.image n).route = some .notice) :
    Notified .line (.lineChange n (!x.active) s.tbu.uptime) s (Machine.event f s) := by
  refine finish_notified (f (Event.start s)) s .lsc _ [] .line rfl ?_
  have hposts := lineChanges_posts hn (h.image ▸ hrole) (h.image ▸ hroute)
  rwa [settled_level hx hn, h.uptime, ← h.event] at hposts

theorem alarmed (hs : AlarmsSound s) (hn : n ∈ due) (hx : e.net.lines[n]? = some x)
    (hrole : (lineOf s.cfu.image n).role = .general) (hroute : (lineOf s.cfu.image n).route = some .alarm) :
    (x.active = false → StandsRaised { kind := .lineActive, index := n } (Machine.event f s).alu)
      ∧ (x.active = true → StandsCleared { kind := .lineActive, index := n } (Machine.event f s).alu) := by
  refine stands_level (event_stands (b := .lsc) hs ?_)
  have hreport := lineChanges_report h.nodup hn (h.image ▸ hrole) (h.image ▸ hroute)
  rw [about_of_none h.reports, settled_level hx hn, ← h.event] at hreport
  exact hreport

section
variable (hs : TablesSound s)
include hs

/-- A valve that a changed line bears on takes one limit report over the new levels. -/
theorem valve {d : ValveDef} (hd : lookup v s.cfu.image.valves = some d) (hturns : turnsValve due d) :
    lookup v (Machine.event f s).net.valves = lookup v ((e.settled due).limitReport v).net.valves := by
  obtain ⟨l, hl⟩ := h.net
  have hwf : e.image.valves.wf = true := h.image ▸ hs.valves.1
  rw [hl]
  exact lineChanges_valve (valvesOn_nodup hwf) ((mem_valvesOn hwf (h.image ▸ hd)).2 hturns)

theorem valve_other {d : ValveDef} (hd : lookup v s.cfu.image.valves = some d) (hturns : ¬ turnsValve due d) :
    lookup v (Machine.event f s).net.valves = lookup v e.net.valves := by
  obtain ⟨l, hl⟩ := h.net
  have hwf : e.image.valves.wf = true := h.image ▸ hs.valves.1
  rw [hl]
  exact lineChanges_valve_other (mt (mem_valvesOn hwf (h.image ▸ hd)).1 hturns)

variable {d : SourceDef} (hd : lookup k s.cfu.image.sources = some d)
include hd

theorem source_other (hline : ∀ n, d.tripLine = some n → n ∉ due) :
    lookup k (Machine.event f s).net.sources = lookup k e.net.sources := by
  obtain ⟨l, hl⟩ := h.net
  have hwf : e.image.sources.wf = true := h.image ▸ hs.sources.1
  have hk : k ∉ sourcesOn e.image due := fun hk => by
    obtain ⟨n, hn, hd⟩ := (mem_sourcesOn hwf (h.image ▸ hd)).1 hk
    exact hline n hd hn
  rw [hl]
  exact congrArg Prod.fst (lineChanges_source_other hk)

variable {z : Source} (hz : lookup k e.net.sources = some z) (hline : d.tripLine = some n) (hn : n ∈ due)
  (hx : e.net.lines[n]? = some x)
include hz hline hn hx

theorem sourceOf_delivered :
    sourceOf k (f (Event.start s)) = tripOf k (!x.active) (some z, []) := by
  have hwf : e.image.sources.wf = true := h.image ▸ hs.sources.1
  have hsource := lineChanges_source (sourcesOn_nodup hwf) ((mem_sourcesOn hwf (h.image ▸ hd)).2 ⟨n, hn, hline⟩)
  have hbefore : sourceOf k e = (some z, []) := Prod.ext hz (about_of_none h.reports _)
  rw [h.event, hsource, settled_tripLevel (h.image ▸ hd) hline hx hn, hbefore]

theorem source : lookup k (Machine.event f s).net.sources = some (z.tripTo (!x.active)) := by
  obtain ⟨l, hl⟩ := event_net f s
  rw [hl]
  exact congrArg Prod.fst (h.sourceOf_delivered hs hd hz hline hn hx)

theorem source_stays (hsame : z.tripped = !x.active) : lookup k (Machine.event f s).net.sources = some z := by
  rw [h.source hs hd hz hline hn hx, Source.tripTo, if_pos hsame]

theorem source_trips (hdiffers : z.tripped = x.active) :
    lookup k (Machine.event f s).net.sources =
      some { z with tripped := !x.active, live := x.active && !z.outletLow && !z.out } := by
  rw [h.source hs hd hz hline hn hx, Source.tripTo, if_neg (by simp [hdiffers])]
  simp

theorem source_alarmed (hsound : AlarmsSound s) (hdiffers : z.tripped = x.active) :
    (x.active = false → StandsRaised { kind := .sourceTrip, index := k } (Machine.event f s).alu)
      ∧ (x.active = true → StandsCleared { kind := .sourceTrip, index := k } (Machine.event f s).alu) := by
  refine stands_level (event_stands (b := .srm) hsound ?_)
  have hreports := congrArg Prod.snd (h.sourceOf_delivered hs hd hz hline hn hx)
  simp only [tripOf, tripReports, hdiffers, Bool.eq_not_self, if_false, List.nil_append] at hreports
  exact hreports

end

end DeliversChanges

/-! ### LINE_CHANGE (R16, R17) -/

/-- The lines that LINE_CHANGE of a line delivers. -/
def dueTogether (s : State) (line : Nat) : List Nat :=
  (dueLines s.cfu.image s.net.lines).filter (fun n => (together s.cfu.image line).contains n)

theorem mem_together (m : Image) (line : Nat) : line ∈ together m line := by
  unfold together
  split
  · exact List.mem_singleton.2 rfl
  · next y hy =>
    have hmem := List.mem_of_head? hy
    have hnames : y.2.kind = .actuated ∧ (y.2.closedLimit = some line ∨ y.2.openLimit = some line) := by
      simpa [namesLimit] using (List.mem_filter.1 hmem).2
    rcases hnames.2 with hclosed | hopen
    · simp [hclosed]
    · simp [hopen]

theorem lineChange_delivers (hdue : line ∈ dueLines s.cfu.image s.net.lines) :
    DeliversChanges (fun e => e.lineChangeIfDue line) (dueTogether s line) (Event.start s) s where
  event := if_pos hdue
  nodup := (dueLines_nodup _ _).filter _
  image := rfl
  uptime := rfl
  reports := rfl

/-- Settles O14: the line is among the lines delivered, and each of its users takes the change. -/
theorem lineChangeTurnsTheLevel : Obligations.LineChangeTurnsTheLevel := by
  intro s line x hrun hline hx hcount
  have hdue : line ∈ dueLines s.cfu.image s.net.lines := mem_dueLines.2 ⟨x, hline, hx, hcount⟩
  have hn : line ∈ dueTogether s line := List.mem_filter.2 ⟨hdue, by simpa using mem_together _ line⟩
  have h := lineChange_delivers hdue
  refine ⟨_, congrArg Host.Outcome.next (whenRunning_running hrun), event_rest _ s, h.pins, ?_, fun hrole hroute => ?_,
    fun hrole hroute => ⟨fun hoff hs => ?_, fun hon hs => ?_⟩, fun hs v d hd hkind hlimit => ?_,
    fun hs k d z hd htrip hz => ⟨fun hsame => ?_, fun hdiffers => ⟨?_, fun hoff hsound => ?_, fun hon hsound => ?_⟩⟩⟩
  · rw [h.lines, settleLines_getElem?, show (Event.start s).net.lines[line]? = some x from hx]
    simp [hn, settleLine]
  · exact h.notified hn hx hrole hroute
  · exact (h.alarmed hs hn hx hrole hroute).1 hoff
  · exact (h.alarmed hs hn hx hrole hroute).2 hon
  · rw [h.valve hs hd ⟨hkind, line, hn, hlimit⟩, h.lines]
    rfl
  · exact h.source_stays hs hd hz htrip hn hx hsame
  · exact h.source_trips hs hd hz htrip hn hx hdiffers
  · exact (h.source_alarmed hs hd hz htrip hn hx hsound hdiffers).1 hoff
  · exact (h.source_alarmed hs hd hz htrip hn hx hsound hdiffers).2 hon

end Sys2Proof.Machine
end

section
/-!
SCAN_TICK (O13): the counters go first, then every line is sampled, and the lines that are due are delivered as in O14.
-/

namespace Sys2Proof.Machine

variable {s t : State} {e : Event} {n : Nat} {pins : BitVec 64} {m : Image} {x : LineScan}

/-! ### The step divider -/

/-- A step tick works on the horn alone. -/
theorem stepHorn_horn (m : Image) (a : Alu) : ∃ h o, stepHorn m a = { a with horn := h, hornOut := o } := by
  unfold stepHorn
  split
  · exact ⟨a.horn, a.hornOut, rfl⟩
  · unfold endPart
    dsimp only
    split
    · exact ⟨_, _, rfl⟩
    · exact ⟨_, _, rfl⟩

theorem divide_eq (m : Image) (a : Alu) : divide m a =
    if a.divider + 1 = 10 then stepHorn m { a with divider := 0 } else { a with divider := a.divider + 1 } := rfl

theorem divide_divider (m : Image) (a : Alu) :
    (divide m a).divider = if a.divider + 1 = 10 then 0 else a.divider + 1 := by
  rw [divide_eq]
  split
  · obtain ⟨h, o, hstep⟩ := stepHorn_horn m { a with divider := 0 }
    rw [hstep]
  · rfl

theorem divide_sound (m : Image) {a : Alu} (hs : a.Sound) : (divide m a).Sound := by
  rw [divide_eq]
  split
  · obtain ⟨h, o, hstep⟩ := stepHorn_horn m { a with divider := 0 }
    rw [hstep]
    exact { hs with }
  · exact { hs with }

section
variable {w : AluWork} {r : Report} {up now : Word} {y : Entry}

theorem listWithheld_divider : (listWithheld now w).alu.divider = w.alu.divider := by
  rcases listWithheld_cases now w with h | ⟨z, _, h⟩
  · rw [h]
  · rw [h]
    rfl

theorem clearEntry_divider : (clearEntry now y w).alu.divider = w.alu.divider := by
  unfold clearEntry
  split
  · rfl
  · exact listWithheld_divider
  · rfl

theorem takeReport_divider : (takeReport m up now r w).alu.divider = w.alu.divider := by
  unfold takeReport
  split
  · exact clearEntry_divider
  · rfl
  · rfl
  · split
    · rfl
    · unfold raiseFresh
      split <;> rfl

theorem takeReports_divider {l : List Report} : (takeReports m up now l w).alu.divider = w.alu.divider := by
  induction l generalizing w with
  | nil => rfl
  | cons r t ih => exact ih.trans takeReport_divider

theorem judgeHorn_divider (m : Image) (a : Alu) : (judgeHorn m a).divider = a.divider := by
  unfold judgeHorn
  split
  · rfl
  · rfl
  · split <;> rfl

theorem takeAll_divider (s : State) (l : List Report) : (takeAll s l w).alu.divider = w.alu.divider := by
  unfold takeAll
  split
  · rfl
  · exact (judgeHorn_divider ..).trans takeReports_divider

end

theorem event_divider (f : Event → Event) (s : State) : (event f s).alu.divider = s.alu.divider := takeAll_divider s _

/-! ### Samples (R15, R16) -/

/-- The lines as sampled at a scan. -/
def sampledLines (m : Image) (pins : BitVec 64) (l : List LineScan) : List LineScan := mapFrom (sampleLine m pins) 0 l

theorem sampled_getElem? (l : List LineScan) (n : Nat) :
    (sampledLines m pins l)[n]? = (l[n]?).map (sampleLine m pins n) := by
  refine (mapFrom_getElem? _ l 0 n).trans ?_
  rw [Nat.zero_add]

/-- The event of a scan once the lines are sampled. -/
def Event.sampledAt (pins : BitVec 64) (e : Event) : Event :=
  e.setNet { e.net with lines := sampledLines e.image pins e.net.lines }

theorem settleLines_nil (l : List LineScan) : settleLines [] l = l := by
  refine List.ext_getElem? fun n => ?_
  rw [settleLines_getElem?]
  simp

theorem lineChanges_nil (e : Event) : e.lineChanges [] = e := by
  have hvalves : valvesOn e.image [] = [] := by simp [valvesOn, keys]
  have hsources : sourcesOn e.image [] = [] := by simp [sourcesOn, keys]
  have husers : lineUsers e.image [] = [] := by simp [lineUsers, hvalves, hsources]
  unfold Event.lineChanges
  rw [husers, settleLines_nil]
  rfl

theorem scan_eq (pins : BitVec 64) (e : Event) :
    e.scan pins = (e.sampledAt pins).lineChanges (dueLines e.image (sampledLines e.image pins e.net.lines)) := by
  unfold Event.scan
  dsimp only
  split
  · next hnone =>
    rw [show dueLines e.image (sampledLines e.image pins e.net.lines) = [] from hnone, lineChanges_nil]
    rfl
  · rfl

/-- The lines that change at a scan. -/
def scanDue (s : State) (pins : BitVec 64) : List Nat :=
  dueLines s.cfu.image (sampledLines s.cfu.image pins s.net.lines)

/-- A line disagrees with its debounced level, and has done so for long enough. -/
def DueAt (s : State) (pins : BitVec 64) (n : Nat) (x : LineScan) : Prop :=
  logical (lineOf s.cfu.image n) (pins.getLsbD n) ≠ x.active ∧ (lineOf s.cfu.image n).debounce ≤ x.count + 1

theorem mem_scanDue (hx : s.net.lines[n]? = some x) (hdebounce : 1 ≤ (lineOf s.cfu.image n).debounce) :
    n ∈ scanDue s pins ↔ n < 64 ∧ DueAt s pins n x := by
  rw [scanDue, mem_dueLines]
  simp only [sampled_getElem?, hx, Option.map_some, Option.some.injEq, exists_eq_left', DueAt, sampleLine,
    exists_and_left]
  split
  · next hsame =>
    simp only [hsame, ne_eq, not_true_eq_false, false_and, and_false, iff_false, not_and]
    omega
  · next hdiffers => simp [hdiffers]

/-! ### SCAN_TICK (R15, R16, R191) -/

/-- The state once the scan tick has counted, before any line is sampled. -/
def counted (pins : BitVec 64) (s : State) : State := scanCounters (setPins pins s)

theorem scanTick_running (h : Running s) (pins : BitVec 64) :
    exec (.scanTick pins) s = .next (event (fun e => e.scan pins) (counted pins s)) :=
  congrArg Host.Outcome.next (whenRunning_running (s := setPins pins s) h)

theorem counted_tables (pins : BitVec 64) (h : TablesSound s) : TablesSound (counted pins s) :=
  (setPins_tables pins h).congr (t := counted pins s) rfl rfl

theorem counted_alarms (pins : BitVec 64) (h : AlarmsSound s) : AlarmsSound (counted pins s) := divide_sound _ h

theorem scan_delivers (s : State) (pins : BitVec 64) :
    DeliversChanges (fun e => e.scan pins) (scanDue s pins) ((Event.start (counted pins s)).sampledAt pins)
      (counted pins s) where
  event := scan_eq pins (Event.start (counted pins s))
  nodup := dueLines_nodup _ _
  image := rfl
  uptime := rfl
  reports := rfl

/-- The state after a scan of a part in RUNNING. -/
def scannedAt (pins : BitVec 64) (s : State) : State := event (fun e => e.scan pins) (counted pins s)

theorem scannedAt_lines (s : State) (pins : BitVec 64) (hx : s.net.lines[n]? = some x) :
    (scannedAt pins s).net.lines[n]?
      = some (if n ∈ scanDue s pins then settleLine (sampleLine s.cfu.image pins n x)
          else sampleLine s.cfu.image pins n x) := by
  refine (congrArg (·[n]?) (scan_delivers s pins).lines).trans ?_
  rw [settleLines_getElem?, show ((Event.start (counted pins s)).sampledAt pins).net.lines[n]?
    = (sampledLines s.cfu.image pins s.net.lines)[n]? from rfl, sampled_getElem?, hx]
  rfl

/-- The new line record of a scan, by the level seen and the count. -/
theorem scannedAt_line (hn : n < 64) (hx : s.net.lines[n]? = some x) (hdebounce : 1 ≤ (lineOf s.cfu.image n).debounce) :
    ∃ y, (scannedAt pins s).net.lines[n]? = some y ∧ y.rawHigh = pins.getLsbD n
      ∧ (logical (lineOf s.cfu.image n) (pins.getLsbD n) = x.active → y.active = x.active ∧ y.count = 0)
      ∧ (logical (lineOf s.cfu.image n) (pins.getLsbD n) ≠ x.active →
          x.count + 1 < (lineOf s.cfu.image n).debounce → y.active = x.active ∧ y.count = x.count + 1)
      ∧ (logical (lineOf s.cfu.image n) (pins.getLsbD n) ≠ x.active →
          (lineOf s.cfu.image n).debounce ≤ x.count + 1 → y.active = !x.active ∧ y.count = 0) := by
  have hdue := mem_scanDue (pins := pins) hx hdebounce
  refine ⟨_, scannedAt_lines s pins hx, ?_, fun hsame => ?_, fun hdiffers hcount => ?_, fun hdiffers hcount => ?_⟩
  · split <;> rfl
  · rw [if_neg fun h => (hdue.1 h).2.1 hsame]
    simp [sampleLine, hsame]
  · rw [if_neg fun h => absurd (hdue.1 h).2.2 (Nat.not_le.2 hcount)]
    simp [sampleLine, hdiffers]
  · rw [if_pos (hdue.2 ⟨hn, hdiffers, hcount⟩)]
    exact ⟨rfl, rfl⟩

/-- An event that makes no report and posts nothing changes the network blocks alone. -/
theorem event_quiet {F : Event → Event} {a : Net} (hF : F (Event.start s) = (Event.start s).setNet a) :
    event F s = { s with net := a } := (congrArg (finish · s) hF).trans rfl

theorem scannedAt_quiet (h : scanDue s pins = []) :
    scannedAt pins s = { counted pins s with
      net := { s.net with pins := pins, lines := sampledLines s.cfu.image pins s.net.lines } } := by
  refine event_quiet ?_
  have hevent := (scan_delivers s pins).event
  rw [h, lineChanges_nil] at hevent
  exact hevent

/-- The cadence at a scan tick that is a step tick (R162, R163). -/
theorem divide_silent {a : Alu} (hdue : a.divider + 1 = 10) (h : a.horn = .silent) :
    divide m a = { a with divider := 0 } := by
  simp [divide_eq, hdue, stepHorn, h]

theorem divide_sounding {a : Alu} {p pulse steps : Nat} {on : Bool} (hdue : a.divider + 1 = 10)
    (h : a.horn = .sounding p pulse on steps) :
    divide m a = endPart m { a with divider := 0, horn := .sounding p pulse on (steps - 1) } :=
  stepIfDue_sounding (a := { a with divider := a.divider + 1 }) h hdue

/-- A line is due at a scan. -/
def IsDue (s : State) (pins : BitVec 64) (n : Nat) : Prop :=
  ∃ x, n < 64 ∧ s.net.lines[n]? = some x ∧ DueAt s pins n x

theorem isDue_iff (hdebounce : ∀ n, n < 64 → 1 ≤ (lineOf s.cfu.image n).debounce) :
    n ∈ scanDue s pins ↔ IsDue s pins n := by
  constructor
  · intro hn
    obtain ⟨x, hlt, hx, _⟩ := mem_dueLines.1 hn
    obtain ⟨y, hy, _⟩ := Option.map_eq_some_iff.1 ((sampled_getElem? s.net.lines n).symm.trans hx)
    obtain ⟨_, hdue⟩ := (mem_scanDue hy (hdebounce n hlt)).1 hn
    exact ⟨y, hlt, hy, hdue⟩
  · rintro ⟨x, hlt, hx, hdue⟩
    exact (mem_scanDue hx (hdebounce n hlt)).2 ⟨hlt, hdue⟩

/-- A scan at which no line is due: the levels, and the step of a sounding horn at every tenth scan tick. -/
theorem scannedAt_atRest (hnone : scanDue s pins = []) :
    (scannedAt pins s).net = { s.net with pins := pins, lines := (scannedAt pins s).net.lines }
      ∧ (scannedAt pins s).ports = s.ports
      ∧ (s.alu.divider + 1 ≠ 10 → (scannedAt pins s).alu = { s.alu with divider := s.alu.divider + 1 })
      ∧ (s.alu.divider + 1 = 10 →
        (s.alu.horn = .silent → (scannedAt pins s).alu = { s.alu with divider := 0 })
        ∧ (∀ p pulse on steps, s.alu.horn = .sounding p pulse on steps → 1 ≤ pulse → pulse ≤ 4 →
          let next := if pulse = 4 then 1 else pulse + 1
          let d := cadenceOf s.cfu.image p
          let nextHorn : Horn :=
            if on then .sounding p pulse false d.offSteps
            else .sounding p next true (d.onSteps + (d.extension.getLsbD (next - 1)).toNat)
          (2 ≤ steps →
              (scannedAt pins s).alu = { s.alu with divider := 0, horn := .sounding p pulse on (steps - 1) })
          ∧ (steps = 1 → (scannedAt pins s).alu = { s.alu with divider := 0, horn := nextHorn, hornOut := !on }))) := by
  have hquiet := scannedAt_quiet hnone
  have halu : (scannedAt pins s).alu = divide s.cfu.image s.alu := by rw [hquiet]; rfl
  refine ⟨by rw [hquiet], by rw [hquiet]; rfl, fun hstep => ?_, fun hstep => ⟨fun hhorn => ?_,
    fun p pulse on steps hhorn _ hpulse => ?_⟩⟩
  · rw [halu, divide_eq, if_neg hstep]
  · rw [halu, divide_silent hstep hhorn]
  · intro next d nextHorn
    have hnext : nextPart s.cfu.image p pulse on = nextHorn := nextPart_eq _ p pulse on hpulse
    refine ⟨fun hsteps => ?_, fun hsteps => ?_⟩
    · rw [halu, divide_sounding hstep hhorn, endPart_stays rfl (by omega)]
    · subst hsteps
      rw [halu, divide_sounding hstep hhorn, endPart_ends rfl, hnext]

/-- Settles O13: the counters and the samples, then the deliveries of O14 for the lines that are due. -/
theorem scanTickDebouncesLines : Obligations.ScanTickDebouncesLines := by
  intro s pins
  refine ⟨fun hrun => ?_, fun hrun hdebounce => ?_, fun hrun => ?_⟩
  · refine ⟨scannedAt pins s, scanTick_running hrun pins, (scan_delivers s pins).pins, rfl, rfl, ?_, rfl,
      fun n x hn hx hdebounce => scannedAt_line hn hx hdebounce⟩
    exact (event_divider _ _).trans (divide_divider _ _)
  · intro due
    have h := scan_delivers s pins
    have hdue (n : Nat) : due n ↔ n ∈ scanDue s pins := (isDue_iff hdebounce).symm
    have hsample {n : Nat} {x : LineScan} (hx : s.net.lines[n]? = some x) :
        ((Event.start (counted pins s)).sampledAt pins).net.lines[n]? = some (sampleLine s.cfu.image pins n x) :=
      (sampled_getElem? s.net.lines n).trans (by rw [hx]; rfl)
    refine ⟨scannedAt pins s, scanTick_running hrun pins,
      fun n x hn hx hrole => ⟨fun hroute => ?_, fun hroute hs => ?_⟩,
      fun hs v d hd hkind => ⟨fun hturned => ?_, fun hturned => ?_⟩,
      fun hs k d z hd hz => ⟨fun hline => ?_, fun n x hline hn hx =>
        ⟨fun hsame => ?_, fun hdiffers => ⟨?_, fun hsound => ?_⟩⟩⟩,
      fun hnone => ?_⟩
    · exact h.notified (x := sampleLine s.cfu.image pins n x) ((hdue n).1 hn) (hsample hx) hrole hroute
    · exact h.alarmed (x := sampleLine s.cfu.image pins n x) (counted_alarms pins hs) ((hdue n).1 hn)
        (hsample hx) hrole hroute
    · obtain ⟨n, hn, hlimit⟩ := hturned
      refine (h.valve (counted_tables pins hs) hd ⟨hkind, n, (hdue n).1 hn, hlimit⟩).trans ?_
      exact SameValve.limitReport ⟨rfl, h.lines.symm, rfl⟩
    · refine h.valve_other (counted_tables pins hs) hd fun hturns => hturned ?_
      obtain ⟨_, n, hn, hlimit⟩ := hturns
      exact ⟨n, (hdue n).2 hn, hlimit⟩
    · exact (h.source_other (counted_tables pins hs) hd fun n hd hn => hline n hd ((hdue n).2 hn)).trans hz
    · exact h.source_stays (x := sampleLine s.cfu.image pins n x) (counted_tables pins hs) hd hz hline ((hdue n).1 hn)
        (hsample hx) hsame
    · exact h.source_trips (x := sampleLine s.cfu.image pins n x) (counted_tables pins hs) hd hz hline ((hdue n).1 hn)
        (hsample hx) hdiffers
    · exact h.source_alarmed (x := sampleLine s.cfu.image pins n x)
        (counted_tables pins hs) hd hz hline ((hdue n).1 hn) (hsample hx) (counted_alarms pins hsound)
        hdiffers
    · exact scannedAt_atRest (List.eq_nil_iff_forall_not_mem.2 fun n hn => hnone n ((hdue n).2 hn))
  · have hidle : isRunning (setPins pins s) = false := by
      refine Bool.eq_false_of_not_eq_true fun h => hrun ?_
      simpa [isRunning, setPins, Running] using h
    exact congrArg Host.Outcome.next (if_neg (by simp [hidle]))

end Sys2Proof.Machine
end

section
/-!
The order of an event's reports about one condition (R150): where one block makes all of them, they reach the Alarm List
Unit in the order made, and the last of them decides how the condition stands.
-/

namespace Sys2Proof.Machine

variable {α : Type} {b k : Block} {p : α → Bool} {l : List (Block × α)} {c : CondId} {r : Report} {x : α}

/-! ### A merge keeps the order of a block's items -/

/-- The items that meet a test are all of one block. -/
def OfBlock (b : Block) (p : α → Bool) (l : List (Block × α)) : Prop := ∀ x ∈ l, p x.2 = true → x.1 = b

theorem pullFirst_mem (h : (pullFirst k l).1 = some x) : (k, x) ∈ l := by
  induction l with
  | nil => cases h
  | cons y t ih =>
    simp only [pullFirst] at h
    split at h
    · next hk =>
      obtain rfl := Option.some.inj h
      exact hk ▸ List.mem_cons_self ..
    · exact List.mem_cons_of_mem _ (ih h)

theorem pullFirst_subset (k : Block) (l : List (Block × α)) : ∀ y ∈ (pullFirst k l).2, y ∈ l := by
  induction l with
  | nil => exact fun _ h => h
  | cons z t ih =>
    intro y hy
    simp only [pullFirst] at hy
    split at hy
    · exact List.mem_cons_of_mem _ hy
    · rcases List.mem_cons.1 hy with rfl | hy
      · exact List.mem_cons_self ..
      · exact List.mem_cons_of_mem _ (ih y hy)

/-- What is pulled goes before the others, and before no item of another block that meets the test. -/
theorem pullFirst_filter (hl : OfBlock b p l) (hx : (pullFirst k l).1 = some x) :
    (x :: (pullFirst k l).2.map Prod.snd).filter p = (l.map Prod.snd).filter p := by
  induction l with
  | nil => cases hx
  | cons y t ih =>
    obtain ⟨j, v⟩ := y
    simp only [pullFirst] at hx ⊢
    split at hx
    · next hj =>
      obtain rfl := Option.some.inj hx
      simp [hj]
    · next hj =>
      have ht := ih (fun z hz => hl z (List.mem_cons_of_mem _ hz)) hx
      rw [if_neg hj]
      cases hv : p v with
      | false => simpa [List.filter_cons, hv] using ht
      | true =>
        have hx' : p x = false := by
          refine Bool.eq_false_of_not_eq_true fun hpx => hj ?_
          have hjb : j = b := hl (j, v) (List.mem_cons_self ..) hv
          have hkb : k = b := hl (k, x) (List.mem_cons_of_mem _ (pullFirst_mem hx)) hpx
          exact hjb.trans hkb.symm
        simpa [List.filter_cons, hv, hx'] using ht

theorem mergePicks_filter (n : Nat) (cs : Nat) (hl : OfBlock b p l) (hn : l.length ≤ n) :
    (mergePicks n l cs).1.filter p = (l.map Prod.snd).filter p := by
  induction n generalizing l cs with
  | zero => simp [List.length_eq_zero_iff.1 (Nat.le_zero.1 hn), mergePicks]
  | succ n ih =>
    cases l with
    | nil => rfl
    | cons y t =>
      have hperm := mergePicks_perm (n + 1) (y :: t) cs hn
      obtain ⟨b0, x0⟩ := y
      simp only [mergePicks] at hperm ⊢
      split at hperm
      · next x rest heq =>
        have hpull := pullFirst_filter hl (congrArg Prod.fst heq)
        have hrest : OfBlock b p rest := fun z hz =>
          hl z (pullFirst_subset _ _ z (by rw [heq]; exact hz))
        have hlength : rest.length ≤ n := by
          have h := (pullFirst_perm (congrArg Prod.fst heq)).length_eq
          rw [heq] at h
          simp only [List.length_map, List.length_cons] at h hn
          omega
        rw [heq] at hpull
        rw [← hpull]
        simp only [List.filter_cons]
        rw [ih _ hrest hlength]
      · cases hperm.length_eq

theorem merge_filter (cs : Nat) (hl : OfBlock b p l) : (merge l cs).1.filter p = (l.map Prod.snd).filter p :=
  mergePicks_filter _ cs hl (Nat.le_refl _)

/-! ### The last report about a condition decides -/

/-- The reports about a condition after one that another decides. -/
theorem takeReports_last (m : Image) (up now : Word) {w : AluWork} {l : List Report} (h : w.alu.Apart)
    (hr : r.cond = c) (hl : (l.filter (fun q => q.cond == c)).getLast? = some r) :
    Stands r (takeReports m up now l w).alu := by
  induction l generalizing w with
  | nil => cases hl
  | cons q t ih =>
    have htakes := takeReport_takes m up now q h
    by_cases ht : t.filter (fun q => q.cond == c) = []
    · have hq : q.cond = c ∧ q = r := by
        by_cases hq : q.cond = c
        · simp only [List.filter_cons, hq, beq_self_eq_true, if_true, ht, List.getLast?_singleton] at hl
          exact ⟨hq, Option.some.inj hl⟩
        · simp [hq, ht] at hl
      obtain ⟨_, rfl⟩ := hq
      refine (takeReports_leaves m up now htakes.apart fun p hp hpc => ?_).stands htakes.stands
      have hmem : p ∈ t.filter (fun q => q.cond == c) := List.mem_filter.2 ⟨hp, by simpa [hr] using hpc⟩
      rw [ht] at hmem
      cases hmem
    · refine ih htakes.apart ?_
      by_cases hq : q.cond = c
      · rw [List.filter_cons, if_pos (by simpa using hq)] at hl
        obtain ⟨z, u, hz⟩ := List.exists_cons_of_ne_nil ht
        rw [hz] at hl ⊢
        simpa using hl
      · rwa [List.filter_cons, if_neg (by simpa using hq)] at hl

/-- How a condition stands after an event whose reports about it are all of one block. -/
theorem event_stands_last {s : State} {f : Event → Event} (hs : AlarmsSound s) (hr : r.cond = c)
    (hblock : ∀ x ∈ about c (f (Event.start s)), x.1 = b)
    (hlast : (about c (f (Event.start s))).getLast? = some (b, r)) :
    Stands r (event f s).alu := by
  set e := f (Event.start s)
  have hof : OfBlock b (fun q : Report => q.cond == c) e.reports :=
    fun x hx hc => hblock x (List.mem_filter.2 ⟨hx, hc⟩)
  have hofOrdered : OfBlock b (fun q : Report => q.cond == c) (reportOrder e.reports) :=
    fun x hx => hof x ((reportOrder_perm _).mem_iff.1 hx)
  have hsame (l : List (Block × Report)) (hl : OfBlock b (fun q : Report => q.cond == c) l) :
      l.filter (fun x => x.1 == b && x.2.cond == c) = l.filter (fun x => x.2.cond == c) :=
    List.filter_congr fun x hx => by
      cases hc : x.2.cond == c with
      | false => simp
      | true => simp [hl x hx hc]
  have hfilter : (merge (reportOrder e.reports) e.choices).1.filter (fun q => q.cond == c)
      = (about c e).map Prod.snd := by
    rw [merge_filter _ hofOrdered, List.filter_map]
    refine congrArg (List.map Prod.snd) ?_
    exact (hsame _ hofOrdered).symm.trans ((reportOrder_filter b c e.reports).trans (hsame _ hof))
  have hlastTaken : ((merge (reportOrder e.reports) e.choices).1.filter (fun q => q.cond == c)).getLast? = some r := by
    rw [hfilter, List.getLast?_map, hlast]
    rfl
  have hsome : (merge (reportOrder e.reports) e.choices).1.isEmpty = false := by
    cases hl : (merge (reportOrder e.reports) e.choices).1 with
    | nil => rw [hl] at hlastTaken; cases hlastTaken
    | cons q t => rfl
  obtain ⟨hentries, hwithheld⟩ := judgeHorn_lists s.cfu.image (takeReports s.cfu.image s.tbu.uptime s.tbu.clock
    (merge (reportOrder e.reports) e.choices).1 { alu := s.alu, touches := [] }).alu
  refine (leaves_of_lists (b := (event f s).alu) ?_ ?_).stands
    (takeReports_last s.cfu.image s.tbu.uptime s.tbu.clock
      (w := { alu := s.alu, touches := [] }) hs.apart hr hlastTaken)
  · simp only [event, finish, finishAsMade, finishWith, takeAll, e, hsome, Bool.false_eq_true, if_false, hentries]
  · simp only [event, finish, finishAsMade, finishWith, takeAll, e, hsome, Bool.false_eq_true, if_false, hwithheld]

end Sys2Proof.Machine
end

section
/-!
The Outage Table's work, step by step: what its elementary steps keep, the whole of its work at the 1 s tick and at a
point's report keeps. One lemma per operation, in the order of the model.
-/

namespace Sys2Proof.Machine

variable {ok : Nat → Prop} {R : Event → Prop} {e : Event}

/-- Is a condition one of a point (Table 6-4)? -/
def ofPoint (k : CondKind) : Bool := pointKinds.contains k

/-- Kept by the elementary steps of the Outage Table: changes of the outages whose numbers are `ok`, new outages, the
suppression and listing of points, reports about other objects, notices, marks, and any change of the other tables. -/
structure OutageSteps (ok : Nat → Prop) (R : Event → Prop) : Prop where
  net : ∀ e a, a.outages = e.net.outages → a.points = e.net.points → R e → R (e.setNet a)
  suppressed : ∀ e n b, R e → R (e.point n fun y => { y with suppressed := b })
  relistOne : ∀ e n k, R e → R (e.relistOne n k)
  change : ∀ e n f, (∀ o, (f o).number = o.number) → ok n → R e → R (e.outageQuietly n f)
  create : ∀ e idx o, lowestFree e.net.outages 0 Config.outageRecords = some idx → o.number = nextOutage e.net → R e →
    ok (nextOutage e.net)
      ∧ R (e.setNet { e.net with outages := put idx o e.net.outages, lastOutage := nextOutage e.net })
  drop : ∀ e n, ok n → R e → R (e.dropOutage n)
  report : ∀ e b k c i, ofPoint c = false → R e → R (e.report b k c i)
  post : ∀ e b y l, R e → R (e.post b y l)
  markPlan : ∀ e k p r b l, R e → R (e.markPlan k p r b l)
  markOutage : ∀ e n, ok n → R e → R (e.markOutage n)
  markClosed : ∀ e n k, ok n → R e → R (e.markClosed n k)
  markCall : ∀ e n, R e → R (e.markCall n)
  markFreed : ∀ e c d, R e → R (e.markFreed c d)

theorem outageNumbered_mem {n : Nat} {t : Table Outage} {x : Nat × Outage} (h : outageNumbered n t = some x) :
    x ∈ t ∧ x.2.number = n := by
  induction t with
  | nil => cases h
  | cons y t ih =>
    obtain ⟨i, o⟩ := y
    unfold outageNumbered at h
    split at h
    · next hn =>
      obtain rfl := Option.some.inj h
      exact ⟨List.mem_cons_self .., hn⟩
    · obtain ⟨hmem, hn⟩ := ih h
      exact ⟨List.mem_cons_of_mem _ hmem, hn⟩

theorem outageAt_number {n : Nat} {a : Net} {o : Outage} (h : outageAt n a = some o) : o.number = n := by
  obtain ⟨x, hx, rfl⟩ := Option.map_eq_some_iff.1 h
  exact (outageNumbered_mem hx).2

namespace OutageSteps

variable (hc : OutageSteps ok R)
include hc

/-! ### Calls (R137, R142, R144 to R148) -/

theorem plan {slot : Nat} {r : Reason} {pin : Bool} {f : Plan → Plan} (h : R e) : R (e.plan slot r pin f) :=
  hc.net _ _ rfl rfl (hc.markPlan _ _ _ _ _ _ h)

theorem callQuietly {n : Nat} {f : Call → Call} (h : R e) : R (e.callQuietly n f) := hc.net _ _ rfl rfl h

theorem call {n : Nat} {f : Call → Call} (h : R e) : R (e.call n f) := hc.markCall _ _ (hc.net _ _ rfl rfl h)

theorem sectFields {k : Nat} {f : Sect → Sect} (h : R e) : R (e.sectFields k f) := hc.net _ _ rfl rfl h

theorem signal {b : Block} {a : Bool} {c : CondKind} {i : Nat} (hk : ofPoint c = false) (h : R e) :
    R (e.signal b a c i) := hc.report _ _ _ _ _ hk h

omit hc in
theorem ofPoint_overdueKind (st : Stage) : ofPoint (overdueKind st) = false := by cases st <;> rfl

theorem expire {n : Nat} {st : Stage} (h : R e) : R (e.expire n st) := by
  unfold Event.expire
  split
  · exact h
  · exact hc.post _ _ _ _ (hc.report _ _ _ _ _ (ofPoint_overdueKind st) (hc.callQuietly h))

theorem expireIfDue {n : Nat} (h : R e) : R (e.expireIfDue n) := by
  unfold Event.expireIfDue
  split
  · exact h
  · split
    · exact h
    · split
      · exact hc.expire h
      · exact h

theorem upgrade {g n : Nat} (h : R e) : R (e.upgrade g n) := by
  unfold Event.upgrade
  split
  · exact h
  · split
    · exact hc.expireIfDue (hc.call h)
    · exact h

theorem upgrades {g : Nat} {l : List Nat} (h : R e) : R (Event.upgrades g l e) := by
  induction l generalizing e with
  | nil => exact h
  | cons n t ih => exact ih (hc.upgrade h)

theorem fallOnset {k : Nat} (h : R e) : R (e.fallOnset k) := hc.upgrades h

theorem setCluster {k : Nat} {b : Bool} (h : R e) : R (e.setCluster k b) := by
  unfold Event.setCluster
  split
  · exact h
  · split
    · exact h
    · exact hc.signal rfl (hc.sectFields h)

theorem setSuspected {k : Nat} {b : Bool} (h : R e) : R (e.setSuspected k b) := by
  unfold Event.setSuspected
  split
  · exact h
  · split
    · exact h
    · exact hc.signal rfl (hc.sectFields h)

theorem odourLeaves {k : Nat} (h : R e) : R (e.odourLeaves k) := by
  unfold Event.odourLeaves
  dsimp only
  split
  · exact h
  · split
    · exact hc.setCluster (hc.sectFields h)
    · exact hc.sectFields h

theorem noGasCount {k : Nat} {f : Nat → Nat} (h : R e) : R (e.noGasCount k f) := by
  unfold Event.noGasCount
  split
  · exact h
  · exact hc.setSuspected (hc.sectFields h)

theorem countLink {o : Nat} {f : Nat → Nat} (ho : ok o) (h : R e) : R (e.countLink o f) :=
  hc.change e o (fun x => { x with linked := f x.linked }) (fun _ => rfl) ho h

theorem clearOverdue {c : Call} (h : R e) : R (e.clearOverdue c) := by
  have hattend : R (if c.overdueAttend then e.report .clr .clear .overdueAttend c.number else e) := by
    split
    · exact hc.report _ _ _ _ _ rfl h
    · exact h
  unfold Event.clearOverdue
  dsimp only
  split
  · exact hc.report _ _ _ _ _ rfl hattend
  · exact hattend

theorem link {o n : Nat} {isNew : Bool} (ho : ok o) (h : R e) : R (e.link o isNew n) := by
  unfold Event.link
  dsimp only
  split
  · exact h
  · split
    · exact hc.countLink ho (hc.clearOverdue (hc.call h))
    · exact hc.countLink ho (hc.clearOverdue (hc.noGasCount (hc.call h)))

theorem linkSection {o k : Nat} (ho : ok o) (h : R e) : R (e.linkSection o k) := by
  unfold Event.linkSection
  generalize callsWhere _ _ = l
  induction l generalizing e with
  | nil => exact h
  | cons n t ih => exact ih (hc.link ho h)

theorem unlink {o n : Nat} (ho : ok o) (h : R e) : R (e.unlink o n) := by
  unfold Event.unlink
  split
  · exact h
  · exact hc.expireIfDue (hc.countLink ho (hc.noGasCount (hc.call h)))

theorem unlinkSection {o k : Nat} (ho : ok o) (h : R e) : R (e.unlinkSection o k) := by
  unfold Event.unlinkSection
  generalize callsWhere _ _ = l
  induction l generalizing e with
  | nil => exact h
  | cons n t ih => exact ih (hc.unlink ho h)

theorem forgetCall {n : Nat} (h : R e) : R (e.forgetCall n) := hc.net _ _ rfl rfl h

/-- A call freed at its outage's completion leaves the outages. -/
theorem freeCall {how : CallEnd} {n : Nat} (h : R e) : R (e.freeCall how false n) := by
  unfold Event.freeCall
  split
  · exact h
  · next c _ =>
    have hdropped : R ((e.clearOverdue c).dropCall n) := hc.net _ _ rfl rfl (hc.clearOverdue h)
    refine hc.markFreed _ _ _ (hc.forgetCall ?_)
    split
    · exact hc.odourLeaves hdropped
    · exact hc.noGasCount hdropped
    · exact hdropped

theorem completeCalls {l : List Nat} (h : R e) : R (Event.completeCalls l e) := by
  induction l generalizing e with
  | nil => exact h
  | cons n t ih => exact ih (hc.freeCall h)

/-! ### Points (R110, R122, R123) -/

theorem relistAll {n : Nat} {l : List CondKind} (h : R e) : R (e.relistAll n l) := by
  induction l generalizing e with
  | nil => exact h
  | cons k t ih => exact ih (hc.relistOne _ _ _ h)

theorem suppressPoint {b : Bool} {n : Nat} (h : R e) : R (e.suppressPoint b n) := by
  unfold Event.suppressPoint
  dsimp only
  split
  · split
    · exact h
    · split
      · exact hc.fallOnset (hc.relistAll (hc.suppressed _ _ _ h))
      · exact hc.relistAll (hc.suppressed _ _ _ h)
  · exact h

theorem suppressPoints {b : Bool} {l : List Nat} (h : R e) : R (Event.suppressPoints b l e) := by
  induction l generalizing e with
  | nil => exact h
  | cons n t ih => exact ih (hc.suppressPoint h)

/-! ### Outages (R87 to R106) -/

variable {n k : Nat}

theorem outage {f : Outage → Outage} (hf : ∀ o, (f o).number = o.number) (hn : ok n) (h : R e) : R (e.outage n f) :=
  hc.markOutage _ _ hn (hc.change e n f hf hn h)

theorem setUnrecorded {b : Bool} (h : R e) : R (e.setUnrecorded k b) := by
  unfold Event.setUnrecorded
  split
  · exact h
  · split
    · exact h
    · exact hc.signal rfl (hc.sectFields h)

theorem stopAwaiting (h : R e) : R (e.stopAwaiting k) := by
  unfold Event.stopAwaiting
  split
  · exact h
  · split
    · exact hc.setUnrecorded (hc.sectFields h)
    · exact h

theorem join (hn : ok n) (h : R e) : R (e.join n k) := by
  unfold Event.join
  dsimp only
  split
  · exact h
  · have hjoined := hc.linkSection (k := k) hn (hc.stopAwaiting (k := k)
      (hc.outage (f := joined e.image k) (fun _ => rfl) hn h))
    split
    · exact hc.suppressPoints hjoined
    · exact hjoined

theorem leave (hn : ok n) (h : R e) : R (e.leave n k) := by
  unfold Event.leave
  dsimp only
  split
  · exact h
  · have hleft : R (e.outage n (left e.image k)) := hc.outage (fun _ => rfl) hn h
    have hwaits : R (if supplyAt e.net k = .unsupplied then (e.outage n (left e.image k)).startAwaiting k
        else e.outage n (left e.image k)) := by
      split
      · exact hc.sectFields hleft
      · exact hleft
    split
    · exact hc.suppressPoints (hc.unlinkSection hn hwaits)
    · exact hc.unlinkSection hn hwaits

theorem joins {l : List Nat} (hn : ok n) (h : R e) : R (Event.joins n l e) := by
  induction l generalizing e with
  | nil => exact h
  | cons k t ih => exact ih (hc.join hn h)

theorem leaves {l : List Nat} (hn : ok n) (h : R e) : R (Event.leaves n l e) := by
  induction l generalizing e with
  | nil => exact h
  | cons k t ih => exact ih (hc.leave hn h)

theorem ruleActive (hn : ok n) (h : R e) : R (e.ruleActive n) := by
  unfold Event.ruleActive
  split
  · exact h
  · split
    · exact hc.outage (fun _ => rfl) hn h
    · exact h

theorem setRelapse {b : Bool} (hn : ok n) (h : R e) : R (e.setRelapse n b) := by
  unfold Event.setRelapse
  split
  · exact h
  · split
    · exact h
    · exact hc.signal rfl (hc.change _ _ _ (fun _ => rfl) hn h)

theorem relapse (hn : ok n) (h : R e) : R (e.relapse n) := by
  unfold Event.relapse
  split
  · exact h
  · split
    · exact hc.suppressPoints (hc.setRelapse hn (hc.outage (fun _ => rfl) hn h))
    · exact h

theorem createOutage {idx : Nat} {c : Cause} {st : OutageState} {plan : Option Nat} {l : List Nat}
    (hidx : lowestFree e.net.outages 0 Config.outageRecords = some idx) (h : R e) :
      R (e.createOutage idx c st plan l) := by
  obtain ⟨hok, hnew⟩ := hc.create e idx (newOutage (nextOutage e.net) c st plan e.clock) hidx rfl h
  exact hc.joins hok (hc.markOutage _ _ hok hnew)

theorem gatherGroups {l : List (List Nat)} (h : R e) : R (Event.gatherGroups l e) := by
  induction l generalizing e with
  | nil => exact h
  | cons g t ih =>
    unfold Event.gatherGroups
    split
    · exact h
    · next idx hidx => exact ih (hc.createOutage hidx h)

theorem raiseUnrecorded {l : List Nat} (h : R e) : R (Event.raiseUnrecorded l e) := by
  induction l generalizing e with
  | nil => exact h
  | cons k t ih => exact ih (hc.setUnrecorded h)

theorem gather (h : R e) : R e.gather := hc.raiseUnrecorded (hc.gatherGroups h)

theorem unlinkOutage {o : Outage} (hn : ok o.number) (h : R e) : R (e.unlinkOutage o) := by
  unfold Event.unlinkOutage
  split
  · exact h
  · exact hc.plan (hc.change _ _ _ (fun _ => rfl) hn h)

theorem complete (hn : ok n) (h : R e) : R (e.complete n) := by
  unfold Event.complete
  split
  · exact h
  · next o ho =>
    have hnumber : ok o.number := outageAt_number ho ▸ hn
    exact hc.drop _ _ hn (hc.markClosed _ _ _ hn
      (hc.leaves hn (hc.setRelapse hn (hc.unlinkOutage hnumber (hc.completeCalls h)))))

theorem ruleConfirmed (hn : ok n) (h : R e) : R (e.ruleConfirmed n) := by
  unfold Event.ruleConfirmed
  dsimp only
  split
  · exact h
  · split
    · have hrelit := hc.setRelapse (b := false) hn
        (hc.outage (f := fun x => { x with state := .relighting }) (fun _ => rfl) hn h)
      split
      · exact hc.complete hn (hc.suppressPoints hrelit)
      · exact hc.suppressPoints hrelit
    · exact h

/-! ### Reports of points, holds (R98, R99, R104, R125) -/

theorem pointReport {entered leftLow : Bool} (hall : ∀ n, ok n) (h : R e) : R (e.pointReport k entered leftLow) := by
  unfold Event.pointReport
  split
  · exact h
  · split
    · exact h
    · split
      · exact hc.ruleActive (hall _) h
      · exact h
    · split
      · exact h
      · exact hc.change _ _ _ (fun _ => rfl) (hall _) h
    · split
      · exact hc.relapse (hall _) h
      · exact h

theorem holdTick (hn : ok n) (h : R e) : R (e.holdTick n) := by
  unfold Event.holdTick
  split
  · exact h
  · split
    · exact hc.ruleConfirmed hn (hc.change _ _ _ (fun _ => rfl) hn h)
    · exact h

theorem holdTicks {l : List Nat} (hl : ∀ n ∈ l, ok n) (h : R e) : R (Event.holdTicks l e) := by
  induction l generalizing e with
  | nil => exact h
  | cons n t ih =>
    exact ih (fun m hm => hl m (List.mem_cons_of_mem _ hm)) (hc.holdTick (hl n (List.mem_cons_self ..)) h)

theorem gatherIfFreed {before : Nat} (h : R e) : R (e.gatherIfFreed before) := by
  unfold Event.gatherIfFreed
  split
  · exact hc.gather h
  · exact h

/-- The Outage Table's whole work at the 1 s tick. -/
theorem outageTick (hall : ∀ n, ok n) (h : R e) : R e.outageTick :=
  hc.gatherIfFreed (hc.holdTicks (fun n _ => hall n) h)

end OutageSteps

end Sys2Proof.Machine
end

section
/-!
The 1 s tick (R191): the blocks in any order, and the travel timers (R31).
-/

namespace Sys2Proof.Machine

variable {u : State} {e : Event} {w : Block} {v : Nat} {m : Image} {x : Valve}

/-! ### The event of a tick -/

/-- The network blocks' event at the 1 s tick. -/
def secondEvent (u : State) : Event := (Event.start u).inAnyOrder (secondUsers u.net) Event.secondAt

theorem secondUsers_nodup (n : Net) : (secondUsers n).Nodup := by
  unfold secondUsers
  split <;> split <;> split <;> split <;> decide

/-- An induction over the blocks in the order of the tick: `P` speaks of the blocks still to come. -/
theorem secondEvent_induct {P : List Block → Event → Prop}
    (hstart : ∀ l k, l.Perm (secondUsers u.net) → P l { Event.start u with choices := k })
    (hstep : ∀ w t e, w ∉ t → P (w :: t) e → P t (Event.secondAt w e)) : P [] (secondEvent u) := by
  have hinduct (l : List Block) (hl : l.Nodup) (e : Event) (h : P l e) : P [] (Event.inOrder Event.secondAt l e) := by
    induction l generalizing e with
    | nil => exact h
    | cons w t ih =>
      obtain ⟨hw, ht⟩ := List.nodup_cons.1 hl
      exact ih ht _ (hstep w t e hw h)
  have hperm := anyOrder_perm (secondUsers u.net) u.choices
  exact hinduct _ (hperm.nodup_iff.1 (secondUsers_nodup _)) _ (hstart _ _ hperm.symm)

/-- One block turns `P` into `Q`, and the others keep both. -/
theorem secondEvent_turn {b : Block} {P Q : Event → Prop} (hchoices : ∀ e k, P e → P { e with choices := k })
    (hb : b ∈ secondUsers u.net) (hbefore : ∀ w, w ≠ b → ∀ e, P e → P (Event.secondAt w e))
    (hturn : ∀ e, P e → Q (Event.secondAt b e)) (hafter : ∀ w, w ≠ b → ∀ e, Q e → Q (Event.secondAt w e))
    (h : P (Event.start u)) : Q (secondEvent u) :=
  inAnyOrder_turn hchoices hb (secondUsers_nodup _) (fun w _ hw => hbefore w hw) hturn (fun w _ hw => hafter w hw) h

theorem secondAt_image (w : Block) (e : Event) : (Event.secondAt w e).image = e.image :=
  Event.secondAt_grows (imageClosed e.image) w e rfl

section
variable {P : Net → Prop}

/-- Without the Valve Controller. -/
theorem secondAt_keeps_sample (hc : SampleClosed P) (hw : w ≠ .vlc) (h : P e.net) : P (Event.secondAt w e).net := by
  cases w with
  | vlc => exact absurd rfl hw
  | psv => exact Event.staleTicks_keeps hc _ e h
  | ogt => exact Event.outageTick_keeps hc.outage e h
  | clr => exact Event.callTicks_keeps hc.call _ e h
  | _ => exact h

/-- Without the Pressure Supervisor. -/
theorem secondAt_keeps_flags (hv : ValveClosed P) (hc : OutageClosed P) (hw : w ≠ .psv) (h : P e.net) :
    P (Event.secondAt w e).net := by
  cases w with
  | psv => exact absurd rfl hw
  | vlc => exact Event.travelTicks_keeps hv _ e h
  | ogt => exact Event.outageTick_keeps hc e h
  | clr => exact Event.callTicks_keeps hc.call _ e h
  | _ => exact h

end

/-! ### Travel timers (R31) -/

theorem valves_closed (l : Table Valve) : SampleClosed (fun n => n.valves = l) where
  plans _ _ h := h
  calls _ _ h := h
  lastCall _ _ h := h
  sections _ _ _ _ h := h
  outages _ _ h := h
  flags _ _ _ _ h := h
  lastOutage _ _ h := h
  sources _ _ h := h
  change n h := (countChange_engineOnly n).valves.trans h
  points _ _ h := h

/-- What the tick makes of a valve. -/
structure TravelTicked (m : Image) (v : Nat) (x : Valve) (y : Option Valve) : Prop where
  runs : isDriven m v x = true → 2 ≤ x.travel → y = some { x with travel := x.travel - 1 }
  expires : isDriven m v x = true → x.travel ≤ 1 → y.map Valve.position = some .stuck
  rests : isDriven m v x = false → y = some x

theorem isDriven_def (h : isDriven m v x = true) : ∃ d, lookup v m.valves = some d := by
  cases hd : lookup v m.valves with
  | none => simp [isDriven, hd] at h
  | some d => exact ⟨d, rfl⟩

theorem travelTick_lookup (hx : lookup v e.net.valves = some x) :
    TravelTicked e.image v x (lookup v (e.travelTick v).net.valves) := by
  cases hdriven : isDriven e.image v x with
  | false =>
    have htick : e.travelTick v = e := by simp [Event.travelTick, hx, hdriven]
    rw [htick, hx]
    exact ⟨fun h => absurd (hdriven.symm.trans h) Bool.false_ne_true,
      fun h => absurd (hdriven.symm.trans h) Bool.false_ne_true, fun _ => rfl⟩
  | true =>
    obtain ⟨d, hd⟩ := isDriven_def hdriven
    set e1 := e.setNet { e.net with valves := adjust v (fun y => { y with travel := y.travel - 1 }) e.net.valves }
    have hx1 : lookup v e1.net.valves = some { x with travel := x.travel - 1 } := by
      refine (lookup_adjust_same _ _ _).trans ?_
      rw [hx]
      rfl
    have hdriven1 : isDriven e1.image v { x with travel := x.travel - 1 } = true := hdriven
    have htick : e.travelTick v = e1.travelExpiry v := by simp only [Event.travelTick, hx, hdriven, if_true, e1]
    refine ⟨fun _ htravel => ?_, fun _ htravel => ?_, fun h => absurd (h.symm.trans hdriven) Bool.false_ne_true⟩
    · rw [htick]
      simp only [Event.travelExpiry, hx1, hdriven1, true_and]
      rw [if_neg (by omega), hx1]
    · rw [htick]
      simp only [Event.travelExpiry, hx1, hdriven1, true_and]
      rw [if_pos (by omega), (moveValve_takes hx1 hd .stuck 0 (some .failed)).lookup_same hx1]
      rfl

theorem travelTick_lookup_other {k : Nat} (hk : k ≠ v) :
    lookup k (e.travelTick v).net.valves = lookup k e.net.valves := by
  unfold Event.travelTick
  split
  · rfl
  · split
    · unfold Event.travelExpiry
      have hadjusted : lookup k (adjust v (fun y : Valve => { y with travel := y.travel - 1 }) e.net.valves)
          = lookup k e.net.valves := lookup_adjust_other hk _ _
      split
      · exact hadjusted
      · split
        · exact (moveValve_lookup_other hk _ _ _).trans hadjusted
        · exact hadjusted
    · rfl

theorem travelTick_image (v : Nat) (e : Event) : (e.travelTick v).image = e.image :=
  Event.travelTick_grows (imageClosed e.image) v e rfl

theorem travelTicks_lookup_other {l : List Nat} (hv : v ∉ l) :
    lookup v (Event.travelTicks l e).net.valves = lookup v e.net.valves := by
  induction l generalizing e with
  | nil => rfl
  | cons k t ih =>
    obtain ⟨hk, ht⟩ := not_or.1 (List.mem_cons.not.1 hv)
    exact (ih ht).trans (travelTick_lookup_other hk)

theorem travelTicks_lookup {l : List Nat} (hl : l.Nodup) (hv : v ∈ l) (hx : lookup v e.net.valves = some x) :
    TravelTicked e.image v x (lookup v (Event.travelTicks l e).net.valves) := by
  induction l generalizing e with
  | nil => cases hv
  | cons k t ih =>
    obtain ⟨hkt, ht⟩ := List.nodup_cons.1 hl
    by_cases hk : v = k
    · subst hk
      rw [Event.travelTicks, travelTicks_lookup_other hkt]
      exact travelTick_lookup hx
    · have htail := ih ht ((List.mem_cons.1 hv).resolve_left hk) ((travelTick_lookup_other hk).trans hx)
      rwa [travelTick_image] at htail

theorem mem_keys_of_lookup {α : Type} {k : Nat} {y : α} {t : Table α} (h : lookup k t = some y) : k ∈ keys t :=
  (mem_keys_iff_lookup k t).2 (by rw [h]; rfl)

theorem mem_secondUsers_vlc (hx : lookup v u.net.valves = some x) : Block.vlc ∈ secondUsers u.net := by
  have hne : u.net.valves ≠ [] := fun h => by rw [h] at hx; cases hx
  simp [secondUsers, hne]

/-- A valve at the tick. -/
theorem secondEvent_valve (hwf : u.net.valves.wf = true) (hx : lookup v u.net.valves = some x) :
    TravelTicked u.cfu.image v x (lookup v (secondEvent u).net.valves) := by
  refine secondEvent_turn (b := .vlc) (P := fun e => e.image = u.cfu.image ∧ e.net.valves = u.net.valves)
    (Q := fun e => TravelTicked u.cfu.image v x (lookup v e.net.valves)) (fun _ _ h => h) (mem_secondUsers_vlc hx)
    (fun w hw e h => ⟨(secondAt_image w e).trans h.1, secondAt_keeps_sample (valves_closed _) hw h.2⟩)
    (fun e h => ?_) (fun w hw e h => ?_) ⟨rfl, rfl⟩
  · obtain ⟨himage, hvalves⟩ := h
    have hticked := travelTicks_lookup (e := e) (l := keys e.net.valves) (hvalves ▸ keys_nodup hwf)
      (hvalves ▸ mem_keys_of_lookup hx) (hvalves ▸ hx)
    rwa [himage] at hticked
  · rwa [show (Event.secondAt w e).net.valves = e.net.valves from
      secondAt_keeps_sample (valves_closed e.net.valves) hw rfl]

/-! ### Lines -/

theorem lines_closed (p : BitVec 64) (l : List LineScan) : UserClosed (fun n => n.pins = p ∧ n.lines = l) where
  plans _ _ h := h
  calls _ _ h := h
  lastCall _ _ h := h
  sections _ _ _ _ h := h
  outages _ _ h := h
  flags _ _ _ _ h := h
  lastOutage _ _ h := h
  sources _ _ h := h
  change n h := ⟨(congrArg Net.pins (countChange_engineOnly n) :).trans h.1,
    (congrArg Net.lines (countChange_engineOnly n) :).trans h.2⟩
  points _ _ h := h
  valves _ _ h := h
  outputs _ _ h := h
  moved n h := ⟨(congrArg Net.pins (countChange_engineOnly n) :).trans h.1,
    (congrArg Net.lines (countChange_engineOnly n) :).trans h.2⟩

theorem secondEvent_lines (u : State) :
    (secondEvent u).net.pins = u.net.pins ∧ (secondEvent u).net.lines = u.net.lines :=
  Event.inAnyOrder_keeps (P := fun n => n.pins = u.net.pins ∧ n.lines = u.net.lines)
    (fun b e h => Event.secondAt_keeps (lines_closed _ _) b e h) _ _ ⟨rfl, rfl⟩

end Sys2Proof.Machine
end

section
/-!
Points at the 1 s tick (R117, R122): what a point's record is before and after its timer's turn, with the reports about
its conditions. Between the two only its suppression status and its listed conditions change, and every change of a
listed condition is reported.
-/

namespace Sys2Proof.Machine

variable {e : Event} {i j : Nat} {k c : CondKind} {x y : Point} {Y : Point → Prop} {b : Bool} {m : Image}

/-! ### Listed conditions -/

theorem listed_setListed_same (hk : k ∈ pointKinds) (b : Bool) (y : Point) : listed (setListed b y k) k = b := by
  simp only [pointKinds, List.mem_cons, List.not_mem_nil, or_false] at hk
  rcases hk with rfl | rfl | rfl | rfl | rfl | rfl <;> rfl

theorem listed_setListed_other (hne : c ≠ k) (b : Bool) (y : Point) : listed (setListed b y k) c = listed y c := by
  cases k with
  | lowBand =>
    cases c with
    | lowBand => exact absurd rfl hne
    | _ => rfl
  | lowlowBand =>
    cases c with
    | lowlowBand => exact absurd rfl hne
    | _ => rfl
  | highBand =>
    cases c with
    | highBand => exact absurd rfl hne
    | _ => rfl
  | highhighBand =>
    cases c with
    | highhighBand => exact absurd rfl hne
    | _ => rfl
  | rateOfFall =>
    cases c with
    | rateOfFall => exact absurd rfl hne
    | _ => rfl
  | stale =>
    cases c with
    | stale => exact absurd rfl hne
    | _ => rfl
  | _ => rfl

/-- Which conditions a point wants does not depend on what is listed. -/
theorem wanted_setListed (b : Bool) (y : Point) (k c : CondKind) : wanted (setListed b y k) c = wanted y c := by
  cases k <;> rfl

theorem listed_suppressed (b : Bool) (y : Point) (c : CondKind) : listed { y with suppressed := b } c = listed y c := by
  cases c <;> rfl

/-- Only the six conditions of a point are ever listed or wanted. -/
theorem mem_pointKinds_of_differs (h : listed y k ≠ wanted y k) : k ∈ pointKinds := by
  cases k with
  | lowBand => decide
  | lowlowBand => decide
  | highBand => decide
  | highhighBand => decide
  | rateOfFall => decide
  | stale => decide
  | _ => exact absurd rfl h

theorem relistOne_same (hy : lookup j e.net.points = some y) (h : listed y k = wanted y k) : e.relistOne j k = e := by
  simp [Event.relistOne, hy, h]

theorem relistOne_differs (hy : lookup j e.net.points = some y) (h : listed y k ≠ wanted y k) :
    e.relistOne j k = (e.point j fun y => setListed (wanted y k) y k).signal .psv (wanted y k) k j := by
  have hcongr : e.point j (fun z => setListed (wanted y k) z k) = e.point j fun z => setListed (wanted z k) z k := by
    refine congrArg (fun t => e.setNet { e.net with points := t }) (adjust_congr fun z hz => ?_)
    cases hy.symm.trans hz
    rfl
  simp only [Event.relistOne, hy, if_neg h, hcongr]

theorem point_lookup_same (f : Point → Point) (hy : lookup j e.net.points = some y) :
    lookup j (e.point j f).net.points = some (f y) := by
  refine (lookup_adjust_same _ _ _).trans ?_
  rw [hy]
  rfl

theorem point_lookup_other (f : Point → Point) (hi : j ≠ i) :
    lookup j (e.point i f).net.points = lookup j e.net.points := lookup_adjust_other hi _ _

theorem relistOne_lookup_other (hi : j ≠ i) : lookup j (e.relistOne i k).net.points = lookup j e.net.points := by
  unfold Event.relistOne
  split
  · rfl
  · split
    · rfl
    · exact point_lookup_other _ hi

theorem relistOne_about_other {d : CondId} (h : ({ kind := k, index := i } : CondId) ≠ d) :
    about d (e.relistOne i k) = about d e := by
  unfold Event.relistOne
  split
  · rfl
  · split
    · rfl
    · exact signal_about_other h

/-! ### A point and the reports about it -/

/-- The reports of an event about a condition of a point, listed at first as `a` and now as `b`: every change of the
listed state has been sent, so the last report is about the present one. -/
structure Listing (d : CondId) (a b : Bool) (e : Event) : Prop where
  block : ∀ z ∈ about d e, z.1 = .psv
  last : (about d e = [] ∧ b = a) ∨ (about d e).getLast? = some (.psv, levelReport b d)

theorem Listing.congr {d : CondId} {a b : Bool} {e' : Event} (h : Listing d a b e) (he : about d e' = about d e) :
    Listing d a b e' := ⟨he ▸ h.block, he ▸ h.last⟩

theorem Listing.signal {d : CondId} {a b' : Bool} (h : Listing d a b e) {e' : Event}
    (he : about d e' = about d e ++ [(.psv, levelReport b' d)]) : Listing d a b' e' where
  block z hz := by
    rw [he] at hz
    rcases List.mem_append.1 hz with hz | hz
    · exact h.block z hz
    · rw [List.mem_singleton.1 hz]
  last := .inr (by rw [he, List.getLast?_concat])

/-- The record of a point in an event, and the reports about its conditions since the record `x`. -/
def PointIs (j : Nat) (x : Point) (Y : Point → Prop) (e : Event) : Prop :=
  ∃ y, lookup j e.net.points = some y ∧ Y y
    ∧ ∀ k ∈ pointKinds, Listing { kind := k, index := j } (listed x k) (listed y k) e

theorem PointIs.congr {e' : Event} (h : PointIs j x Y e)
    (hp : lookup j e'.net.points = lookup j e.net.points) (hr : e'.reports = e.reports) : PointIs j x Y e' := by
  obtain ⟨y, hy, hY, hlisting⟩ := h
  exact ⟨y, hp.trans hy, hY, fun k hk => (hlisting k hk).congr (about_of_reports hr)⟩

/-- Kept by suppression and listing. -/
structure FlagClosed (Y : Point → Prop) : Prop where
  suppressed : ∀ y b, Y y → Y { y with suppressed := b }
  setListed : ∀ y k, Y y → listed y k ≠ wanted y k → Y (setListed (wanted y k) y k)

theorem PointIs.suppressed (hc : FlagClosed Y) (n : Nat) (b : Bool) (h : PointIs j x Y e) :
    PointIs j x Y (e.point n fun y => { y with suppressed := b }) := by
  by_cases hn : j = n
  · subst hn
    obtain ⟨y, hy, hY, hlisting⟩ := h
    refine ⟨_, point_lookup_same _ hy, hc.suppressed y b hY, fun k hk => ?_⟩
    rw [listed_suppressed]
    exact (hlisting k hk).congr rfl
  · exact h.congr (point_lookup_other _ hn) rfl

theorem PointIs.relistOne (hc : FlagClosed Y) (n : Nat) (k : CondKind) (h : PointIs j x Y e) :
    PointIs j x Y (e.relistOne n k) := by
  obtain ⟨y, hy, hY, hlisting⟩ := h
  by_cases hn : j = n
  · subst hn
    by_cases hsame : listed y k = wanted y k
    · rw [relistOne_same hy hsame]
      exact ⟨y, hy, hY, hlisting⟩
    · rw [relistOne_differs hy hsame]
      refine ⟨_, point_lookup_same _ hy, hc.setListed y k hY hsame, fun c hmem => ?_⟩
      by_cases hck : c = k
      · subst hck
        rw [listed_setListed_same hmem]
        exact (hlisting c hmem).signal (signal_about_self (c := { kind := c, index := j }) .psv (wanted y c) _)
      · rw [listed_setListed_other hck]
        exact (hlisting c hmem).congr (signal_about_other (by simpa using Ne.symm hck))
  · exact ⟨y, (relistOne_lookup_other hn).trans hy, hY, fun c hmem =>
      (hlisting c hmem).congr (relistOne_about_other (by simp [Ne.symm hn]))⟩

theorem markOutage_same (n : Nat) (e : Event) :
    (e.markOutage n).net = e.net ∧ (e.markOutage n).reports = e.reports := by
  unfold Event.markOutage
  split <;> exact ⟨rfl, rfl⟩

theorem markCall_same (n : Nat) (e : Event) : (e.markCall n).net = e.net ∧ (e.markCall n).reports = e.reports := by
  unfold Event.markCall
  split <;> exact ⟨rfl, rfl⟩

/-- Every step of the Outage Table's work keeps what is said of a point. -/
theorem pointIs_steps (hc : FlagClosed Y) : OutageSteps (fun _ => True) (PointIs j x Y) where
  net e a _ hp h := h.congr (congrArg (lookup j) hp) rfl
  suppressed _ n b h := h.suppressed hc n b
  relistOne _ n k h := h.relistOne hc n k
  change _ _ _ _ _ h := h.congr rfl rfl
  create _ _ _ _ _ h := ⟨trivial, h.congr rfl rfl⟩
  drop _ _ _ h := h.congr rfl rfl
  report e b r k i hk h := by
    obtain ⟨y, hy, hY, hlisting⟩ := h
    refine ⟨y, hy, hY, fun c hmem => (hlisting c hmem).congr ?_⟩
    have hne : ({ kind := k, index := i } : CondId) ≠ { kind := c, index := j } := fun heq => by
      have hkc : k = c := congrArg CondId.kind heq
      simp [ofPoint, hkc, hmem] at hk
    simp [about, Event.report, hne]
  post _ _ _ _ h := h.congr rfl rfl
  markPlan _ _ _ _ _ _ h := h.congr rfl rfl
  markOutage e n _ h := h.congr (by rw [(markOutage_same n e).1]) (markOutage_same n e).2
  markClosed _ _ _ _ h := h.congr rfl rfl
  markCall e n h := h.congr (by rw [(markCall_same n e).1]) (markCall_same n e).2
  markFreed _ _ _ h := h.congr rfl rfl

/-! ### Reports of another point's expiry -/

namespace OutageSteps

variable {ok : Nat → Prop} {R : Event → Prop} (hc : OutageSteps ok R) (hall : ∀ n, ok n)
include hc

theorem source {n : Nat} {f : Source → Source} (h : R e) : R (e.source n f) := by
  unfold Event.source
  split
  · exact h
  · dsimp only
    split
    · exact hc.net _ _ rfl rfl h
    · refine hc.net _ _ ?_ ?_ (hc.net _ _ rfl rfl h)
      · exact (congrArg Net.outages (countChange_engineOnly _) :)
      · exact (congrArg Net.points (countChange_engineOnly _) :)

theorem outlet {n : Nat} (h : R e) : R (e.outlet n b) := by
  unfold Event.outlet
  split
  · exact h
  · exact hc.source h

include hall

theorem pointReports {n : Nat} {d : PointDef} {onset : Bool} (h : R e) : R (e.pointReports n d x y onset) := by
  have hreported : R (if x.band = y.band ∧ x.fresh = y.fresh then e else
      e.pointReport d.sect (isFreshLow y && !isFreshLow x)
        ((isFreshLow x && !isFreshLow y) || (x.fresh && !y.fresh))) := by
    split
    · exact h
    · exact hc.pointReport hall h
  unfold Event.pointReports
  dsimp only
  split
  · split
    · exact hc.fallOnset hreported
    · exact hc.fallOnset (hc.outlet hreported)
  · split
    · exact hreported
    · exact hc.outlet hreported

end OutageSteps

theorem staleTick_pointIs_other (hc : FlagClosed Y) (hi : j ≠ i) (h : PointIs j x Y e) :
    PointIs j x Y (e.staleTick i) := by
  have hsteps := pointIs_steps (j := j) (x := x) hc
  have hcounted : PointIs j x Y (e.point i fun y => { y with timer := y.timer - 1 }) :=
    h.congr (point_lookup_other _ hi) rfl
  unfold Event.staleTick
  dsimp only
  split
  · exact h
  · split
    · exact h
    · split
      · unfold Event.stale
        split
        · refine hsteps.pointReports (fun _ => trivial) (hsteps.relistAll ?_)
          exact hcounted.congr (point_lookup_other _ hi) rfl
        · exact hcounted
      · exact hcounted

/-! ### The point's own tick -/

/-- Every condition of the point is listed as it should be. -/
def AllListed (y : Point) : Prop := ∀ k ∈ pointKinds, listed y k = wanted y k

theorem relistOne_lists (hy : lookup j e.net.points = some y) (k : CondKind) :
    ∃ z, lookup j (e.relistOne j k).net.points = some z ∧ listed z k = wanted z k
      ∧ ∀ c, listed y c = wanted y c → listed z c = wanted z c := by
  by_cases hsame : listed y k = wanted y k
  · rw [relistOne_same hy hsame]
    exact ⟨y, hy, hsame, fun _ h => h⟩
  · rw [relistOne_differs hy hsame]
    refine ⟨_, point_lookup_same _ hy, ?_, fun c hc => ?_⟩
    · rw [wanted_setListed, listed_setListed_same (mem_pointKinds_of_differs hsame)]
    · have hck : c ≠ k := by
        rintro rfl
        exact hsame hc
      rw [wanted_setListed, listed_setListed_other hck, hc]

theorem relistAll_lists (hy : lookup j e.net.points = some y) (l : List CondKind) :
    ∃ z, lookup j (e.relistAll j l).net.points = some z ∧ (∀ k ∈ l, listed z k = wanted z k)
      ∧ ∀ c, listed y c = wanted y c → listed z c = wanted z c := by
  induction l generalizing e y with
  | nil => exact ⟨y, hy, fun _ h => (nomatch h), fun _ h => h⟩
  | cons k t ih =>
    obtain ⟨z, hz, hk, hkeeps⟩ := relistOne_lists hy k
    obtain ⟨q, hq, ht, hkeeps'⟩ := ih hz
    refine ⟨q, hq, fun c hc => ?_, fun c hc => hkeeps' c (hkeeps c hc)⟩
    rcases List.mem_cons.1 hc with rfl | hc
    · exact hkeeps' c hk
    · exact ht c hc

theorem mem_staleKinds (hk : k ∈ pointKinds) : k ∈ staleKinds := by
  simp only [pointKinds, List.mem_cons, List.not_mem_nil, or_false] at hk
  simp only [staleKinds, List.mem_cons, List.not_mem_nil, or_false]
  tauto

theorem PointIs.allListed (hc : FlagClosed Y) (h : PointIs j x Y e) :
    PointIs j x (fun y => Y y ∧ AllListed y) (e.relistAll j staleKinds) := by
  obtain ⟨y, hy, hY, hlisting⟩ := (pointIs_steps hc).relistAll (n := j) (l := staleKinds) h
  obtain ⟨y0, hy0, _⟩ := h
  obtain ⟨z, hz, hlisted, _⟩ := relistAll_lists hy0 staleKinds
  cases hy.symm.trans hz
  exact ⟨y, hy, ⟨hY, fun k hk => hlisted k (mem_staleKinds hk)⟩, hlisting⟩

/-- Does the point go stale at the tick? -/
def goesStale (m : Image) (j : Nat) (x : Point) : Bool := x.timer == 1 && (lookup j m.points).isSome

/-- The record after the tick, but for suppression and listing. -/
def tickedPoint (m : Image) (j : Nat) (x : Point) : Point :=
  if goesStale m j x then staled { x with timer := 0 } else { x with timer := x.timer - 1 }

/-- What is said of a point after its tick. -/
structure PointTicked (m : Image) (j : Nat) (x y : Point) : Prop where
  core : y.core = (tickedPoint m j x).core
  listed : goesStale m j x = true → AllListed y

/-- What the conditions of a stale point are does not depend on suppression. -/
theorem wanted_stale (h : y.core = (staled { x with timer := 0 }).core) (k : CondKind) :
    wanted y k = (k == .stale) := by
  have hband : y.band = .unset := congrArg Point.band h
  have hlatch : y.latch = false := congrArg Point.latch h
  have hfresh : y.fresh = false := congrArg Point.fresh h
  have htimer : y.timer = 0 := congrArg Point.timer h
  cases k with
  | lowBand => simp only [wanted, hband]; rfl
  | lowlowBand => simp only [wanted, hband]; rfl
  | highBand => simp only [wanted, hband]; rfl
  | highhighBand => simp only [wanted, hband]; rfl
  | rateOfFall => simp [wanted, hlatch]
  | stale => simp [wanted, hfresh, htimer]
  | _ => rfl

theorem coreIs_flagClosed (x : Point) : FlagClosed (fun y => y.core = x.core) where
  suppressed _ _ h := h
  setListed y k h _ := (Point.core_setListed _ y k).trans h

theorem pointTicked_flagClosed (m : Image) (j : Nat) (x : Point) : FlagClosed (PointTicked m j x) where
  suppressed y b h := by
    refine ⟨h.core, fun hstale k hk => ?_⟩
    have hcore := h.core
    rw [tickedPoint, if_pos hstale] at hcore
    have hcore' : ({ y with suppressed := b } : Point).core = (staled { x with timer := 0 }).core := hcore
    rw [listed_suppressed, h.listed hstale k hk, wanted_stale hcore, wanted_stale hcore']
  setListed y k h hne := by
    refine ⟨(Point.core_setListed _ y k).trans h.core, fun hstale => ?_⟩
    exact absurd (h.listed hstale k (mem_pointKinds_of_differs hne)) hne

theorem core_timer (h : y.core = x.core) : y.timer = x.timer := (congrArg Point.timer h :)

theorem staled_core (h : y.core = x.core) : (staled { y with timer := 0 }).core = (staled { x with timer := 0 }).core :=
  congrArg (fun z => (staled { z with timer := 0 }).core) h

/-- The turn of a point's own timer. -/
theorem staleTick_pointIs (himage : e.image = m) (h : PointIs j x (fun y => y.core = x.core) e) :
    PointIs j x (PointTicked m j x) (e.staleTick j) := by
  have hcounts := h
  obtain ⟨y, hy, hcore, hlisting⟩ := h
  have htimer := core_timer hcore
  by_cases hzero : y.timer = 0
  · have htick : e.staleTick j = e := by simp [Event.staleTick, hy, hzero]
    have hfresh : goesStale m j x = false := by simp [goesStale, ← htimer, hzero]
    rw [htick]
    refine ⟨y, hy, ⟨hcore.trans ?_, fun hstale => absurd (hfresh.symm.trans hstale) Bool.false_ne_true⟩, hlisting⟩
    rw [tickedPoint, hfresh, ← htimer, hzero, if_neg Bool.false_ne_true]
    exact congrArg (fun n => ({ x with timer := n } : Point).core) (htimer.symm.trans hzero)
  · set e1 := e.point j fun y => { y with timer := y.timer - 1 }
    have hy1 : lookup j e1.net.points = some { y with timer := y.timer - 1 } := point_lookup_same _ hy
    have hcounted (hfresh : goesStale m j x = false) : PointIs j x (PointTicked m j x) e1 := by
      refine ⟨_, hy1, ⟨?_, fun hstale => absurd (hfresh.symm.trans hstale) Bool.false_ne_true⟩, fun k hk => ?_⟩
      · rw [tickedPoint, hfresh, if_neg Bool.false_ne_true, ← htimer]
        exact congrArg (fun z : Point => ({ z with timer := y.timer - 1 } : Point)) hcore
      · have hsame : listed { y with timer := y.timer - 1 } k = listed y k := by cases k <;> rfl
        rw [hsame]
        exact (hlisting k hk).congr rfl
    by_cases hone : y.timer = 1
    · have htick : e.staleTick j = e1.stale j := by simp [Event.staleTick, hy, hone, e1]
      cases hd : lookup j m.points with
      | none =>
        have hstays : e1.stale j = e1 := by simp [Event.stale, hy1, show e1.image = m from himage, hd]
        rw [htick, hstays]
        exact hcounted (by simp [goesStale, hd])
      | some d =>
        have hstale : goesStale m j x = true := by simp [goesStale, hd, ← htimer, hone]
        have hsteps := pointIs_steps (j := j) (x := x) (pointTicked_flagClosed m j x)
        have hstaled : PointIs j x (fun y => y.core = (staled { x with timer := 0 }).core)
            (e1.point j fun _ => staled { y with timer := y.timer - 1 }) := by
          refine ⟨_, point_lookup_same _ hy1, ?_, fun k hk => ?_⟩
          · rw [hone]
            exact staled_core hcore
          · have hsame : listed (staled { y with timer := y.timer - 1 }) k = listed y k := by cases k <;> rfl
            rw [hsame]
            exact (hlisting k hk).congr rfl
        have hexpires : e1.stale j = e1.repoint staleKinds j d { y with timer := y.timer - 1 }
            (staled { y with timer := y.timer - 1 }) := by
          simp only [Event.stale, hy1, show e1.image = m from himage, hd]
        rw [htick, hexpires]
        refine hsteps.pointReports (fun _ => trivial) ?_
        obtain ⟨z, hz, ⟨hzcore, hzlisted⟩, hzlisting⟩ := hstaled.allListed (coreIs_flagClosed _)
        exact ⟨z, hz, ⟨by rw [tickedPoint, if_pos hstale]; exact hzcore, fun _ => hzlisted⟩, hzlisting⟩
    · have htick : e.staleTick j = e1 := by simp [Event.staleTick, hy, hzero, hone, e1]
      rw [htick]
      exact hcounted (by simp [goesStale, ← htimer, hone])

theorem staleTick_image (i : Nat) (e : Event) : (e.staleTick i).image = e.image :=
  Event.staleTick_grows (imageClosed e.image) i e rfl

theorem staleTicks_pointIs_other {l : List Nat} (hc : FlagClosed Y) (hj : j ∉ l) (h : PointIs j x Y e) :
    PointIs j x Y (Event.staleTicks l e) := by
  induction l generalizing e with
  | nil => exact h
  | cons i t ih =>
    obtain ⟨hi, ht⟩ := not_or.1 (List.mem_cons.not.1 hj)
    exact ih ht (staleTick_pointIs_other hc hi h)

theorem staleTicks_pointIs {l : List Nat} (hl : l.Nodup) (hj : j ∈ l) (himage : e.image = m)
    (h : PointIs j x (fun y => y.core = x.core) e) : PointIs j x (PointTicked m j x) (Event.staleTicks l e) := by
  induction l generalizing e with
  | nil => cases hj
  | cons i t ih =>
    obtain ⟨hit, ht⟩ := List.nodup_cons.1 hl
    by_cases hi : j = i
    · subst hi
      exact staleTicks_pointIs_other (l := t) (pointTicked_flagClosed m j x) hit (staleTick_pointIs himage h)
    · exact ih ht ((List.mem_cons.1 hj).resolve_left hi) ((staleTick_image i e).trans himage)
        (staleTick_pointIs_other (coreIs_flagClosed x) hi h)

end Sys2Proof.Machine
end

section
/-!
Points and sources after the 1 s tick (R39, R117, R122, R126).
-/

namespace Sys2Proof.Machine

variable {u : State} {e : Event} {w : Block} {i j k : Nat} {m : Image} {x : Point} {Y : Point → Prop} {z : Source}

/-! ### Points -/

theorem points_closed (l : Table Point) : ValveClosed (fun n => n.points = l) where
  plans _ _ h := h
  valves _ _ h := h
  outputs _ _ h := h
  moved n h := (congrArg Net.points (countChange_engineOnly n) :).trans h

theorem travelTick_about {c : CondId} (hc : ofValve c.kind = false) (v : Nat) (e : Event) :
    about c (e.travelTick v) = about c e := by
  unfold Event.travelTick
  split
  · rfl
  · split
    · unfold Event.travelExpiry
      split
      · rfl
      · split
        · exact moveValve_about hc _ _ _
        · rfl
    · rfl

theorem travelTicks_about {c : CondId} (hc : ofValve c.kind = false) (l : List Nat) (e : Event) :
    about c (Event.travelTicks l e) = about c e := by
  induction l generalizing e with
  | nil => rfl
  | cons v t ih => exact (ih _).trans (travelTick_about hc v e)

theorem ofValve_ofPoint {c : CondKind} (hc : c ∈ pointKinds) : ofValve c = false := by
  simp only [pointKinds, List.mem_cons, List.not_mem_nil, or_false] at hc
  rcases hc with rfl | rfl | rfl | rfl | rfl | rfl <;> rfl

theorem travelTicks_pointIs (l : List Nat) (h : PointIs j x Y e) : PointIs j x Y (Event.travelTicks l e) := by
  obtain ⟨y, hy, hY, hlisting⟩ := h
  have hpoints : (Event.travelTicks l e).net.points = e.net.points :=
    Event.travelTicks_keeps (points_closed e.net.points) l e rfl
  exact ⟨y, hpoints ▸ hy, hY, fun c hc =>
    (hlisting c hc).congr (travelTicks_about (c := { kind := c, index := j }) (ofValve_ofPoint hc) l e)⟩

/-- What the Call Register does at the tick: calls change, and reports about calls are made. -/
theorem callTick_steps {R : Event → Prop} {ok : Nat → Prop} (hc : OutageSteps ok R) (n : Nat) (h : R e) :
    R (e.callTick n) := by
  have hrealarmed {b : Event} (hb : R b) : R (b.realarmIfDue n) := by
    unfold Event.realarmIfDue
    split
    · exact hb
    · split
      · exact hb
      · split
        · unfold Event.realarmed
          split
          · exact hb
          · exact hc.post _ _ _ _ (hc.report _ _ _ _ _ (OutageSteps.ofPoint_overdueKind _) (hc.callQuietly hb))
        · exact hb
  unfold Event.callTick
  split
  · exact h
  · split
    · split
      · exact hrealarmed (hc.callQuietly h)
      · split
        · exact hc.callQuietly h
        · exact hc.expireIfDue (hc.callQuietly h)
    · exact h

theorem callTicks_steps {R : Event → Prop} {ok : Nat → Prop} (hc : OutageSteps ok R) (l : List Nat) (h : R e) :
    R (Event.callTicks l e) := by
  induction l generalizing e with
  | nil => exact h
  | cons n t ih => exact ih (callTick_steps hc n h)

theorem secondAt_pointIs (hc : FlagClosed Y) (hw : w ≠ .psv) (h : PointIs j x Y e) :
    PointIs j x Y (Event.secondAt w e) := by
  have hsteps := pointIs_steps (j := j) (x := x) hc
  cases w with
  | psv => exact absurd rfl hw
  | vlc => exact travelTicks_pointIs _ h
  | ogt => exact hsteps.outageTick (fun _ => trivial) h
  | clr => exact callTicks_steps hsteps _ h
  | _ => exact h

theorem start_pointIs (hx : lookup j u.net.points = some x) :
    PointIs j x (fun y => y.core = x.core) (Event.start u) :=
  ⟨x, hx, rfl, fun _ _ => ⟨fun _ hz => (nomatch hz), .inl ⟨rfl, rfl⟩⟩⟩

theorem mem_secondUsers_psv (hx : lookup j u.net.points = some x) : Block.psv ∈ secondUsers u.net := by
  have hne : u.net.points ≠ [] := fun h => by rw [h] at hx; cases hx
  simp [secondUsers, hne]

/-- The keys of the points stand through an event. -/
theorem keys_closed (l : List Nat) : OutageClosed (fun n => keys n.points = l) where
  plans _ _ h := h
  calls _ _ h := h
  lastCall _ _ h := h
  sections _ _ _ _ h := h
  outages _ _ h := h
  flags n k f _ h := by simpa using h
  lastOutage _ _ h := h

theorem keysValve_closed (l : List Nat) : ValveClosed (fun n => keys n.points = l) where
  plans _ _ h := h
  valves _ _ h := h
  outputs _ _ h := h
  moved n h := (congrArg (fun n : Net => keys n.points) (countChange_engineOnly n) :).trans h

/-- A point after the tick, and the reports about its conditions. -/
theorem secondEvent_point (hwf : u.net.points.wf = true) (hx : lookup j u.net.points = some x) :
    PointIs j x (PointTicked u.cfu.image j x) (secondEvent u) := by
  refine secondEvent_turn (b := .psv)
    (P := fun e => (e.image = u.cfu.image ∧ keys e.net.points = keys u.net.points)
      ∧ PointIs j x (fun y => y.core = x.core) e)
    (Q := PointIs j x (PointTicked u.cfu.image j x)) (fun _ _ h => ⟨h.1, h.2.congr rfl rfl⟩) (mem_secondUsers_psv hx)
    (fun w hw e h => ?_) (fun e h => ?_) (fun w hw e h => secondAt_pointIs (pointTicked_flagClosed _ _ _) hw h)
    ⟨⟨rfl, rfl⟩, start_pointIs hx⟩
  · obtain ⟨⟨himage, hkeys⟩, hpoint⟩ := h
    exact ⟨⟨(secondAt_image w e).trans himage, secondAt_keeps_flags (keysValve_closed _) (keys_closed _) hw hkeys⟩,
      secondAt_pointIs (coreIs_flagClosed x) hw hpoint⟩
  · obtain ⟨⟨himage, hkeys⟩, hpoint⟩ := h
    exact staleTicks_pointIs (hkeys ▸ keys_nodup hwf) (hkeys ▸ mem_keys_of_lookup hx) himage hpoint

/-! ### Sources -/

theorem outletSource_some (hwf : m.sources.wf = true) (h : outletSource m j = some k) :
    ∃ d, lookup k m.sources = some d ∧ d.outlet = some j := by
  obtain ⟨d, hd, hout⟩ := (mem_keys_filter hwf).1 (List.mem_of_head? h)
  exact ⟨d, hd, by simpa using hout⟩

theorem outletSource_inj (hwf : m.sources.wf = true) (hj : outletSource m j = some k) (hi : outletSource m i = some k) :
    i = j := by
  obtain ⟨d, hd, hdj⟩ := outletSource_some hwf hj
  obtain ⟨d', hd', hdi⟩ := outletSource_some hwf hi
  cases hd.symm.trans hd'
  exact Option.some.inj (hdi.symm.trans hdj)

theorem sources_closed (l : Table Source) : OutageClosed (fun n => n.sources = l) where
  plans _ _ h := h
  calls _ _ h := h
  lastCall _ _ h := h
  sections _ _ _ _ h := h
  outages _ _ h := h
  flags _ _ _ _ h := h
  lastOutage _ _ h := h

theorem sourcesValve_closed (l : Table Source) : ValveClosed (fun n => n.sources = l) where
  plans _ _ h := h
  valves _ _ h := h
  outputs _ _ h := h
  moved n h := (congrArg Net.sources (countChange_engineOnly n) :).trans h

/-- What the end of a low outlet makes of a source (R39, R41). -/
def Source.outletEnds (z : Source) : Source := { z with outletLow := false, live := !z.tripped && !z.out }

theorem outlet_source (h : outletSource e.image i = some k) :
    lookup k (e.outlet i false).net.sources = (lookup k e.net.sources).map Source.outletEnds := by
  simp only [Event.outlet, h, source_lookup]
  cases lookup k e.net.sources with
  | none => rfl
  | some z => simp [Source.outletEnds, liveness]

theorem outlet_source_other {b : Bool} (h : outletSource e.image i ≠ some k) :
    lookup k (e.outlet i b).net.sources = lookup k e.net.sources := by
  unfold Event.outlet
  split
  · rfl
  · next n hn =>
    have hk : k ≠ n := by
      rintro rfl
      exact h hn
    exact source_lookup_other hk _

section
variable {d : PointDef} {y : Point} {onset : Bool}

/-- The report of a point to the Outage Table, where its band or freshness changed. -/
def tellOutages (d : PointDef) (x y : Point) (e : Event) : Event :=
  if x.band = y.band ∧ x.fresh = y.fresh then e
  else
    e.pointReport d.sect (isFreshLow y && !isFreshLow x) ((isFreshLow x && !isFreshLow y) || (x.fresh && !y.fresh))

theorem pointReports_eq (n : Nat) : e.pointReports n d x y onset =
    if onset then (if isFreshLow x = isFreshLow y then tellOutages d x y e
        else (tellOutages d x y e).outlet n (isFreshLow y)).fallOnset d.sect
    else if isFreshLow x = isFreshLow y then tellOutages d x y e
      else (tellOutages d x y e).outlet n (isFreshLow y) := rfl

theorem tellOutages_keeps {P : Net → Prop} (hc : PointClosed P) (h : P e.net) : P (tellOutages d x y e).net := by
  unfold tellOutages
  split
  · exact h
  · exact Event.pointReport_keeps hc _ _ _ e h

theorem tellOutages_image : (tellOutages d x y e).image = e.image := by
  unfold tellOutages
  split
  · rfl
  · exact Event.pointReport_grows (imageClosed e.image) _ _ _ e rfl

theorem fallOnset_sources (n : Nat) (e : Event) : (e.fallOnset n).net.sources = e.net.sources :=
  Event.fallOnset_keeps (sources_closed e.net.sources).call n e rfl

theorem tellOutages_sources : (tellOutages d x y e).net.sources = e.net.sources :=
  tellOutages_keeps (sources_closed e.net.sources).point rfl

theorem pointReports_source_other {n : Nat} (h : outletSource e.image n ≠ some k) :
    lookup k (e.pointReports n d x y onset).net.sources = lookup k e.net.sources := by
  have htold : lookup k (if isFreshLow x = isFreshLow y then tellOutages d x y e
      else (tellOutages d x y e).outlet n (isFreshLow y)).net.sources = lookup k e.net.sources := by
    split
    · rw [tellOutages_sources]
    · rw [outlet_source_other (tellOutages_image (e := e) ▸ h), tellOutages_sources]
  rw [pointReports_eq]
  split
  · rw [fallOnset_sources]
    exact htold
  · exact htold

theorem pointReports_source {n : Nat} (h : outletSource e.image n = some k) (hx : isFreshLow x = true)
    (hy : isFreshLow y = false) :
    lookup k (e.pointReports n d x y onset).net.sources = (lookup k e.net.sources).map Source.outletEnds := by
  have htold : lookup k ((tellOutages d x y e).outlet n (isFreshLow y)).net.sources
      = (lookup k e.net.sources).map Source.outletEnds := by
    rw [hy, outlet_source (tellOutages_image (e := e) ▸ h), tellOutages_sources]
  have hdiffers : isFreshLow x ≠ isFreshLow y := by simp [hx, hy]
  rw [pointReports_eq, if_neg hdiffers]
  split
  · rw [fallOnset_sources]
    exact htold
  · exact htold

/-- The conditions of a point relisted: the sources and the image stand. -/
theorem relistAll_sources (n : Nat) (l : List CondKind) (e : Event) :
    (e.relistAll n l).net.sources = e.net.sources ∧ (e.relistAll n l).image = e.image :=
  ⟨Event.relistAll_keeps (sources_closed e.net.sources).point n l e rfl,
    Event.relistAll_grows (imageClosed e.image) n l e rfl⟩

/-- A point's record once its timer has lost a second. -/
def Point.tick (y : Point) : Point := { y with timer := y.timer - 1 }

/-- The event of a staleness timer once the conditions of the point are relisted. -/
def relistedStale (i : Nat) (q : Point) (e : Event) : Event :=
  ((e.point i Point.tick).point i fun _ => staled q).relistAll i staleKinds

theorem relistedStale_image (i : Nat) (q : Point) (e : Event) : (relistedStale i q e).image = e.image :=
  (relistAll_sources i staleKinds _).2

theorem relistedStale_sources (i : Nat) (q : Point) (e : Event) :
    (relistedStale i q e).net.sources = e.net.sources := (relistAll_sources i staleKinds _).1

/-- A staleness timer's turn: the timer counts, and at its end the point's reports go out. -/
theorem staleTick_cases (i : Nat) (e : Event) : e.staleTick i = e ∨ e.staleTick i = e.point i Point.tick
    ∨ ∃ y d, lookup i e.net.points = some y ∧ y.timer = 1 ∧ lookup i e.image.points = some d
      ∧ e.staleTick i = (relistedStale i y.tick e).pointReports i d y.tick (staled y.tick)
          (fallIsListed i (relistedStale i y.tick e).net && !y.fallListed) := by
  cases hy : lookup i e.net.points with
  | none => exact .inl (by simp [Event.staleTick, hy])
  | some y =>
    by_cases hzero : y.timer = 0
    · exact .inl (by simp [Event.staleTick, hy, hzero])
    · by_cases hone : y.timer = 1
      · have htick : e.staleTick i = (e.point i Point.tick).stale i := by
          simp only [Event.staleTick, hy, hone, if_true, if_false, Nat.one_ne_zero]
          rfl
        have hy1 : lookup i (e.point i Point.tick).net.points = some y.tick := point_lookup_same _ hy
        cases hd : lookup i e.image.points with
        | none =>
          have hstays : (e.point i Point.tick).stale i = e.point i Point.tick := by
            simp only [Event.stale, hy1, show (e.point i Point.tick).image = e.image from rfl, hd]
          exact .inr (.inl (htick.trans hstays))
        | some d =>
          refine .inr (.inr ⟨y, d, rfl, hone, rfl, htick.trans ?_⟩)
          simp only [Event.stale, hy1, show (e.point i Point.tick).image = e.image from rfl, hd]
          rfl
      · refine .inr (.inl ?_)
        simp only [Event.staleTick, hy, hzero, hone, if_false]
        rfl

theorem staleTick_source_other (h : outletSource e.image i ≠ some k) :
    lookup k (e.staleTick i).net.sources = lookup k e.net.sources := by
  rcases staleTick_cases i e with htick | htick | ⟨y, d, _, _, _, htick⟩
  · rw [htick]
  · rw [htick]
    rfl
  · have hout : outletSource (relistedStale i y.tick e).image i ≠ some k := by rwa [relistedStale_image]
    rw [htick, pointReports_source_other hout, relistedStale_sources]

/-- A point that goes stale in LOWLOW tells its source that the low outlet has ended. -/
theorem staleTick_source (hd : lookup j e.image.points = some d) (hy : lookup j e.net.points = some y)
    (htimer : y.timer = 1) (hlow : isFreshLow y = true) (h : outletSource e.image j = some k) :
    lookup k (e.staleTick j).net.sources = (lookup k e.net.sources).map Source.outletEnds := by
  have hout : outletSource (relistedStale j y.tick e).image j = some k := by rwa [relistedStale_image]
  have htick : e.staleTick j = (relistedStale j y.tick e).pointReports j d y.tick (staled y.tick)
      (fallIsListed j (relistedStale j y.tick e).net && !y.fallListed) := by
    have hy1 : lookup j (e.point j Point.tick).net.points = some y.tick := point_lookup_same _ hy
    have hone : e.staleTick j = (e.point j Point.tick).stale j := by
      simp only [Event.staleTick, hy, htimer, if_true, if_false, Nat.one_ne_zero]
      rfl
    rw [hone]
    simp only [Event.stale, hy1, show (e.point j Point.tick).image = e.image from rfl, hd]
    rfl
  rw [htick, pointReports_source hout (show isFreshLow y.tick = true from hlow) rfl, relistedStale_sources]

end

/-- A source while the points of a list are at their turns. -/
theorem staleTicks_source_other {l : List Nat} (h : ∀ i ∈ l, outletSource e.image i ≠ some k) :
    lookup k (Event.staleTicks l e).net.sources = lookup k e.net.sources := by
  induction l generalizing e with
  | nil => rfl
  | cons i t ih =>
    have htail := ih (e := e.staleTick i) fun n hn => (staleTick_image i e).symm ▸ h n (List.mem_cons_of_mem _ hn)
    exact htail.trans (staleTick_source_other (h i (List.mem_cons_self ..)))

theorem isFreshLow_core {y : Point} (h : y.core = x.core) : isFreshLow y = isFreshLow x := (congrArg isFreshLow h :)

theorem staleTicks_source {l : List Nat} {d : PointDef} (hl : l.Nodup) (hj : j ∈ l) (himage : e.image = m)
    (hwf : m.sources.wf = true) (hd : lookup j m.points = some d) (htimer : x.timer = 1) (hlow : isFreshLow x = true)
    (hout : outletSource m j = some k) (h : PointIs j x (fun y => y.core = x.core) e) :
    lookup k (Event.staleTicks l e).net.sources = (lookup k e.net.sources).map Source.outletEnds := by
  induction l generalizing e with
  | nil => cases hj
  | cons i t ih =>
    obtain ⟨hit, ht⟩ := List.nodup_cons.1 hl
    have himage' := (staleTick_image i e).trans himage
    have hother {n : Nat} (hn : n ≠ j) : outletSource m n ≠ some k := fun hk => hn (outletSource_inj hwf hout hk)
    by_cases hi : j = i
    · subst hi
      obtain ⟨y, hy, hcore, _⟩ := h
      have hrest : ∀ n ∈ t, outletSource (e.staleTick j).image n ≠ some k := fun n hn => by
        rw [himage']
        exact hother fun hnj => hit (hnj ▸ hn)
      refine (staleTicks_source_other (e := e.staleTick j) hrest).trans ?_
      exact staleTick_source (himage ▸ hd) hy ((core_timer hcore).trans htimer) ((isFreshLow_core hcore).trans hlow)
        (himage ▸ hout)
    · refine (ih ht ((List.mem_cons.1 hj).resolve_left hi) himage'
        (staleTick_pointIs_other (coreIs_flagClosed x) hi h)).trans ?_
      rw [staleTick_source_other (himage ▸ hother (Ne.symm hi))]

/-- The source of a point that goes stale in LOWLOW, after the tick. -/
theorem secondEvent_source {d : PointDef} (hwf : u.net.points.wf = true) (hsources : u.cfu.image.sources.wf = true)
    (hx : lookup j u.net.points = some x) (hd : lookup j u.cfu.image.points = some d) (htimer : x.timer = 1)
    (hlow : isFreshLow x = true) (hout : outletSource u.cfu.image j = some k) :
    lookup k (secondEvent u).net.sources = (lookup k u.net.sources).map Source.outletEnds := by
  have hleaves {w : Block} (hw : w ≠ .psv) (e : Event) : (Event.secondAt w e).net.sources = e.net.sources :=
    secondAt_keeps_flags (P := fun n => n.sources = e.net.sources) (sourcesValve_closed _) (sources_closed _) hw rfl
  refine secondEvent_turn (b := .psv)
    (P := fun e => (e.image = u.cfu.image ∧ keys e.net.points = keys u.net.points ∧ e.net.sources = u.net.sources)
      ∧ PointIs j x (fun y => y.core = x.core) e)
    (Q := fun e => lookup k e.net.sources = (lookup k u.net.sources).map Source.outletEnds)
    (fun _ _ h => ⟨h.1, h.2.congr rfl rfl⟩) (mem_secondUsers_psv hx) (fun w hw e h => ?_) (fun e h => ?_)
    (fun w hw e h => ?_) ⟨⟨rfl, rfl, rfl⟩, start_pointIs hx⟩
  · obtain ⟨⟨himage, hkeys, hsame⟩, hpoint⟩ := h
    exact ⟨⟨(secondAt_image w e).trans himage,
      secondAt_keeps_flags (keysValve_closed _) (keys_closed _) hw hkeys, (hleaves hw e).trans hsame⟩,
      secondAt_pointIs (coreIs_flagClosed x) hw hpoint⟩
  · obtain ⟨⟨himage, hkeys, hsame⟩, hpoint⟩ := h
    refine (staleTicks_source (hkeys ▸ keys_nodup hwf)
      (hkeys ▸ mem_keys_of_lookup hx) himage hsources hd htimer hlow hout
      hpoint).trans ?_
    rw [hsame]
  · rw [hleaves hw e]
    exact h

end Sys2Proof.Machine
end

section
/-!
The recharge holds of one outage (R99, R102): what its own turn at the 1 s tick makes of it, while the work on every
other outage leaves it as it is.
-/

namespace Sys2Proof.Machine

variable {e : Event} {n m k : Nat} {o : Outage} {l : List OutageMark}

/-! ### The outage of a number -/

theorem outageNumbered_mapTable {f : Nat → Outage → Outage} (hf : ∀ i o, (f i o).number = o.number) (t : Table Outage) :
    outageNumbered n (mapTable f t) = (outageNumbered n t).map fun x => (x.1, f x.1 x.2) := by
  induction t with
  | nil => rfl
  | cons x t ih =>
    by_cases hx : x.2.number = n
    · simp [mapTable, outageNumbered, hf, hx]
    · simp [mapTable, outageNumbered, hf, hx, ih]

theorem outageNumbered_none {t : Table Outage} (h : outageNumbered n t = none) : ∀ x ∈ t, x.2.number ≠ n := by
  induction t with
  | nil => exact fun _ hx => (nomatch hx)
  | cons x t ih =>
    by_cases hx : x.2.number = n
    · simp [outageNumbered, hx] at h
    · have htail : outageNumbered n t = none := by simpa [outageNumbered, hx] using h
      exact List.forall_mem_cons.2 ⟨hx, ih htail⟩

theorem outageNumbered_filter (hm : m ≠ n) (t : Table Outage) :
    outageNumbered n (t.filter fun x => x.2.number != m) = outageNumbered n t := by
  induction t with
  | nil => rfl
  | cons x t ih =>
    by_cases hx : x.2.number = m
    · have hxn : x.2.number ≠ n := hx ▸ hm
      simp [outageNumbered, hx, hm, ih]
    · simp [outageNumbered, hx, ih]

/-- A new outage of another number in a free record. -/
theorem outageNumbered_put {t : Table Outage} (ho : o.number ≠ n) (hfree : lookup k t = none) :
    outageNumbered n (put k o t) = outageNumbered n t := by
  induction t with
  | nil => simp [put, outageNumbered, ho]
  | cons x t ih =>
    obtain ⟨i, y⟩ := x
    have hi : i ≠ k := by
      rintro rfl
      simp [lookup] at hfree
    have htail : lookup k t = none := by simpa [lookup, hi] using hfree
    by_cases hlt : k < i
    · simp [put, hlt, outageNumbered, ho]
    · simp [put, hlt, hi, outageNumbered, ih htail]

theorem outageAt_change {f : Outage → Outage} (hf : ∀ o, (f o).number = o.number) (ho : outageAt n e.net = some o) :
    outageAt n (e.outageQuietly n f).net = some (f o) := by
  obtain ⟨x, hx, rfl⟩ := Option.map_eq_some_iff.1 ho
  have hnumber := (outageNumbered_mem hx).2
  refine (congrArg (Option.map Prod.snd) (outageNumbered_mapTable (fun i o => ?_) _)).trans ?_
  · split
    · exact hf o
    · rfl
  · rw [hx]
    simp [hnumber]

theorem outageAt_change_other {f : Outage → Outage} (hf : ∀ o, (f o).number = o.number) (hm : m ≠ n) :
    outageAt n (e.outageQuietly m f).net = outageAt n e.net := by
  have hnumbered := outageNumbered_mapTable (n := n) (f := fun _ o => if o.number = m then f o else o) (fun i o => by
    split
    · exact hf o
    · rfl) e.net.outages
  refine (congrArg (Option.map Prod.snd) hnumbered).trans ?_
  cases hx : outageNumbered n e.net.outages with
  | none => simp [outageAt, hx]
  | some x =>
    have hnumber : x.2.number ≠ m := fun h => hm (h.symm.trans (outageNumbered_mem hx).2)
    simp [outageAt, hx, hnumber]

theorem outage_net (n : Nat) (f : Outage → Outage) (e : Event) : (e.outage n f).net = (e.outageQuietly n f).net :=
  (markOutage_same n _).1

theorem outage_marks (n : Nat) (f : Outage → Outage) (e : Event) :
    { number := n, closed := none } ∈ (e.outage n f).outages := by
  unfold Event.outage Event.markOutage
  split
  · assumption
  · exact List.mem_append_right _ (List.mem_singleton_self _)

/-! ### An outage that an event leaves -/

/-- The record of an outage number within an event, and marks that the event holds. -/
structure OutageIs (n : Nat) (o : Outage) (l : List OutageMark) (e : Event) : Prop where
  within : Table.Within 32 e.net.outages
  record : outageAt n e.net = some o
  marks : ∀ x ∈ l, x ∈ e.outages

theorem OutageIs.congr {e' : Event} (h : OutageIs n o l e) (hn : e'.net.outages = e.net.outages)
    (hm : e'.outages = e.outages) : OutageIs n o l e' where
  within := hn ▸ h.within
  record := (congrArg (fun t => (outageNumbered n t).map Prod.snd) hn).trans h.record
  marks x hx := hm ▸ h.marks x hx

theorem markOutage_keeps_mark {x : OutageMark} (h : x ∈ e.outages) : x ∈ (e.markOutage m).outages := by
  unfold Event.markOutage
  split
  · exact h
  · exact List.mem_append_left _ h

theorem nextOutage_ne (h : Table.Within 32 e.net.outages) (ho : outageAt n e.net = some o) : nextOutage e.net ≠ n := by
  intro hnext
  obtain ⟨x, hx, rfl⟩ := Option.map_eq_some_iff.1 ho
  obtain ⟨hmem, hnumber⟩ := outageNumbered_mem hx
  have hlen := h.length_le
  have hfresh := nextNumber_notMem (held := e.net.outages.map fun x => x.2.number) e.net.lastOutage
    (by rw [List.length_map]; omega)
  rw [List.length_map] at hfresh
  exact hfresh (List.mem_map.2 ⟨x, hmem, hnumber.trans hnext.symm⟩)

/-- The work on other outages, and new outages, leave an outage as it is. -/
theorem outageIs_steps (hl : ∀ x ∈ l, x.number = n) : OutageSteps (fun m => m ≠ n) (OutageIs n o l) where
  net _ _ ho _ h := h.congr ho rfl
  suppressed _ _ _ h := h.congr rfl rfl
  relistOne e i c h := by
    unfold Event.relistOne
    split
    · exact h
    · split
      · exact h
      · exact h.congr rfl rfl
  change e m f hf hm h := ⟨h.within.mapTable, (outageAt_change_other hf hm).trans h.record, h.marks⟩
  create e idx q hidx hq h := by
    have hne := nextOutage_ne h.within h.record
    refine ⟨hne, ⟨h.within.put (lowestFree_lt hidx), ?_, h.marks⟩⟩
    have hput := outageNumbered_put (o := q) (n := n) (hq ▸ hne) (lowestFree_spec hidx).1
    exact (congrArg (Option.map Prod.snd) hput).trans h.record
  drop e m hm h := by
    refine ⟨h.within.filter, ?_, h.marks⟩
    exact (congrArg (Option.map Prod.snd) (outageNumbered_filter hm _)).trans h.record
  report _ _ _ _ _ _ h := h.congr rfl rfl
  post _ _ _ _ h := h.congr rfl rfl
  markPlan _ _ _ _ _ _ h := h.congr rfl rfl
  markOutage e m _ h := by
    obtain ⟨hnet, _⟩ := markOutage_same m e
    exact ⟨hnet ▸ h.within, hnet ▸ h.record, fun x hx => markOutage_keeps_mark (h.marks x hx)⟩
  markClosed e m k hm h := by
    refine ⟨h.within, h.record, fun x hx => List.mem_append_left _ (List.mem_filter.2 ⟨h.marks x hx, ?_⟩)⟩
    simp only [bne_iff_ne, ne_eq]
    rintro rfl
    exact hm (hl _ hx)
  markCall e m h := by
    refine h.congr (by rw [(markCall_same m e).1]) ?_
    unfold Event.markCall
    split <;> rfl
  markFreed _ _ _ h := h.congr rfl rfl

/-- An outage that was closed stays marked so. -/
theorem closedClosed (n k : Nat) : EventClosed (fun e => { number := n, closed := some k } ∈ e.outages) where
  setNet _ _ h := h
  choices _ _ h := h
  report _ _ _ _ _ h := h
  post _ _ _ _ h := h
  markPlan _ _ _ _ _ _ h := h
  markReleased _ _ _ h := h
  markOutage _ _ h := markOutage_keeps_mark h
  markClosed _ _ _ h := List.mem_append_left _ (List.mem_filter.2 ⟨h, by simp⟩)
  markCall n e h := by
    unfold Event.markCall
    split <;> exact h
  markFreed _ _ _ h := h

/-! ### The turn of the outage (R99, R102) -/

/-- An outage whose holds have lost a second. -/
def Outage.ticked (m : Image) (a : Net) (o : Outage) : Outage := { o with members := o.members.map (tickMember m a) }

/-- The holds of an outage lose a second. -/
def Event.heldOn (n : Nat) (e : Event) : Event := e.outageQuietly n (Outage.ticked e.image e.net)

/-- An outage comes to RELIGHTING (R102). -/
def Event.relight (n : Nat) (l : List Nat) (e : Event) : Event :=
  ((e.outage n fun x => { x with state := .relighting }).setRelapse n false).suppressAll false l

/-- Is a member of an outage unconfirmed, and are all confirmed? -/
def Waits (q : Outage) : Prop := ∃ z ∈ q.members, z.confirmed = false

def Confirms (q : Outage) : Prop := ∀ z ∈ q.members, z.confirmed = true

theorem memberSections_ticked (m : Image) (a : Net) (o : Outage) :
    memberSections (o.ticked m a) = memberSections o := by
  have hsect (z : Member) : (tickMember m a z).sect = z.sect := by
    unfold tickMember
    split
    · rfl
    · split <;> rfl
  simp [memberSections, Outage.ticked, Function.comp_def, hsect]

theorem waits_or_confirms (q : Outage) : Waits q ∨ Confirms q := by
  by_cases h : Confirms q
  · exact .inr h
  · simp only [Confirms, not_forall, Bool.not_eq_true] at h
    obtain ⟨z, hz, hconfirmed⟩ := h
    exact .inl ⟨z, hz, hconfirmed⟩

theorem heldOn_record (ho : outageAt n e.net = some o) :
    outageAt n (e.heldOn n).net = some (o.ticked e.image e.net) := outageAt_change (fun _ => rfl) ho

theorem holdTick_rests (ho : outageAt n e.net = some o) (hstate : o.state ≠ .recharging) : e.holdTick n = e := by
  simp [Event.holdTick, ho, hstate]

theorem holdTick_recharging (ho : outageAt n e.net = some o) (hstate : o.state = .recharging) :
    e.holdTick n = (e.heldOn n).ruleConfirmed n := by
  simp only [Event.holdTick, ho, hstate, if_true]
  rfl

theorem holdTick_waits (ho : outageAt n e.net = some o) (hstate : o.state = .recharging)
    (h : Waits (o.ticked e.image e.net)) : e.holdTick n = e.heldOn n := by
  obtain ⟨z, hz, hconfirmed⟩ := h
  have hnot : ¬ (o.ticked e.image e.net).members.all Member.confirmed = true := fun hall =>
    Bool.false_ne_true (hconfirmed.symm.trans (List.all_eq_true.1 hall z hz))
  rw [holdTick_recharging ho hstate]
  simp only [Event.ruleConfirmed, heldOn_record ho, hnot, Bool.false_eq_true, and_false, if_false]

theorem holdTick_confirms (ho : outageAt n e.net = some o) (hstate : o.state = .recharging)
    (h : Confirms (o.ticked e.image e.net)) : e.holdTick n =
      if o.off = 0 then ((e.heldOn n).relight n (memberSections o)).complete n
      else (e.heldOn n).relight n (memberSections o) := by
  have hall : (o.ticked e.image e.net).members.all Member.confirmed = true := List.all_eq_true.2 h
  have hrecharging : (o.ticked e.image e.net).state = .recharging := hstate
  rw [holdTick_recharging ho hstate]
  simp only [Event.ruleConfirmed, heldOn_record ho, hall, hrecharging, and_true, if_true,
    memberSections_ticked, show (o.ticked e.image e.net).off = o.off from rfl]
  rfl

/-- The record of an outage that comes to RELIGHTING. -/
def Outage.relighting (o : Outage) : Outage := { o with state := .relighting, relapse := false }

theorem setRelapse_record {b : Bool} (ho : outageAt n e.net = some o) :
    outageAt n (e.setRelapse n b).net = some { o with relapse := b } := by
  by_cases hsame : o.relapse = b
  · simp [Event.setRelapse, ho, ← hsame]
  · simp only [Event.setRelapse, ho, hsame, if_false]
    exact outageAt_change (fun _ => rfl) ho

theorem setRelapse_marks {b : Bool} : (e.setRelapse n b).outages = e.outages := by
  unfold Event.setRelapse
  split
  · rfl
  · split <;> rfl

theorem relight_is {s : List Nat} (hwithin : Table.Within 32 e.net.outages) (ho : outageAt n e.net = some o) :
    OutageIs n o.relighting [{ number := n, closed := none }] (e.relight n s) := by
  have hturned : OutageIs n { o with state := .relighting } [{ number := n, closed := none }]
      (e.outage n fun x => { x with state := .relighting }) := by
    refine ⟨?_, ?_, fun x hx => ?_⟩
    · rw [outage_net]
      exact hwithin.mapTable
    · rw [outage_net]
      exact outageAt_change (fun _ => rfl) ho
    · rw [List.mem_singleton.1 hx]
      exact outage_marks n _ e
  have hsteps := outageIs_steps (n := n) (o := o.relighting) (l := [{ number := n, closed := none }])
    (fun x hx => by rw [List.mem_singleton.1 hx])
  refine hsteps.suppressPoints ⟨?_, setRelapse_record hturned.record, fun x hx => ?_⟩
  · unfold Event.setRelapse
    split
    · exact hturned.within
    · split
      · exact hturned.within
      · exact hturned.within.mapTable
  · rw [setRelapse_marks]
    exact hturned.marks x hx

theorem complete_marks (ho : outageAt n e.net = some o) :
    { number := n, closed := some o.off } ∈ (e.complete n).outages := by
  simp only [Event.complete, ho]
  exact List.mem_append_right _ (List.mem_singleton_self _)

/-- What an outage in RECHARGING is after the tick, given its record `q` with the holds counted. -/
structure OutageTicked (n : Nat) (q : Outage) (e : Event) : Prop where
  waits : Waits q → OutageIs n q [] e
  relights : Confirms q → q.off ≠ 0 → OutageIs n q.relighting [{ number := n, closed := none }] e
  closes : Confirms q → q.off = 0 → { number := n, closed := some 0 } ∈ e.outages

/-- Kept by whatever leaves an outage and the marks of the closed. -/
theorem OutageTicked.leaves {q : Outage} {e' : Event} (h : OutageTicked n q e)
    (his : ∀ (y : Outage) (l : List OutageMark), (∀ x ∈ l, x.number = n) → OutageIs n y l e → OutageIs n y l e')
    (hclosed : ∀ k, { number := n, closed := some k } ∈ e.outages → { number := n, closed := some k } ∈ e'.outages) :
    OutageTicked n q e' where
  waits hw := his _ _ (fun _ hx => (nomatch hx)) (h.waits hw)
  relights hc hoff := his _ _ (fun x hx => by rw [List.mem_singleton.1 hx]) (h.relights hc hoff)
  closes hc hoff := hclosed 0 (h.closes hc hoff)

theorem holdTick_ticked (hwithin : Table.Within 32 e.net.outages) (ho : outageAt n e.net = some o)
    (hstate : o.state = .recharging) : OutageTicked n (o.ticked e.image e.net) (e.holdTick n) where
  waits hw := by
    rw [holdTick_waits ho hstate hw]
    exact ⟨hwithin.mapTable, heldOn_record ho, fun _ hx => (nomatch hx)⟩
  relights hc hoff := by
    rw [holdTick_confirms ho hstate hc, if_neg (show o.off ≠ 0 from hoff)]
    exact relight_is hwithin.mapTable (heldOn_record ho)
  closes hc hoff := by
    rw [holdTick_confirms ho hstate hc, if_pos (show o.off = 0 from hoff)]
    have hrelit := relight_is (s := memberSections o) hwithin.mapTable (heldOn_record ho)
    have hmark := complete_marks hrelit.record
    rwa [show (o.ticked e.image e.net).relighting.off = 0 from hoff] at hmark

end Sys2Proof.Machine
end

section
/-!
The recharge holds at the 1 s tick (R99, R102), whichever order the blocks take: the Valve Controller, the Call Register
and timers that do not run out leave the Outage Table and the bands it reads as they are.
-/

namespace Sys2Proof.Machine

variable {u : State} {e : Event} {n k : Nat} {o : Outage} {m : Image} {a b : Net}

/-! ### Bands -/

/-- What the Outage Table reads of a point. -/
def Point.shown (x : Point) : Bool × Band := (x.fresh, x.band)

def SameBands (a b : Net) : Prop := ∀ i, (lookup i b.points).map Point.shown = (lookup i a.points).map Point.shown

theorem pointRecords_shown (h : SameBands a b) (m : Image) (k : Nat) :
    (pointRecords m b k).map Point.shown = (pointRecords m a k).map Point.shown := by
  simp only [pointRecords, List.map_filterMap]
  exact List.filterMap_congr fun i _ => h i

/-- Do fresh bands qualify a member (R99)? -/
def qualify (l : List (Bool × Band)) : Bool :=
  !(l.filter Prod.fst).isEmpty && (l.filter Prod.fst).all (fun x => x.2 == .normal)

theorem qualifying_eq (m : Image) (a : Net) (k : Nat) :
    qualifying m a k = qualify ((pointRecords m a k).map Point.shown) := by
  simp [qualifying, qualify, List.filter_map, Function.comp_def, Point.shown]

theorem qualifying_congr (h : SameBands a b) (m : Image) (k : Nat) : qualifying m b k = qualifying m a k := by
  rw [qualifying_eq, qualifying_eq, pointRecords_shown h]

theorem ticked_congr (h : SameBands a b) (m : Image) (o : Outage) : o.ticked m b = o.ticked m a := by
  have hmember (z : Member) : tickMember m b z = tickMember m a z := by
    simp only [tickMember, qualifying_congr h]
  simp [Outage.ticked, hmember]

theorem adjust_shown {f : Point → Point} (hf : ∀ x, (f x).shown = x.shown) (i k : Nat) (t : Table Point) :
    (lookup i (adjust k f t)).map Point.shown = (lookup i t).map Point.shown := by
  rw [lookup_adjust]
  split
  · cases lookup i t <;> simp [hf]
  · rfl

theorem shown_of_core {x y : Point} (h : y.core = x.core) : y.shown = x.shown := (congrArg Point.shown h :)

theorem bands_closed (a : Net) : OutageClosed (SameBands a) where
  plans _ _ h := h
  calls _ _ h := h
  lastCall _ _ h := h
  sections _ _ _ _ h := h
  outages _ _ h := h
  flags _ k _ hf h i := (adjust_shown (fun x => shown_of_core (hf x)) i k _).trans (h i)
  lastOutage _ _ h := h

theorem bandsValve_closed (a : Net) : ValveClosed (SameBands a) where
  plans _ _ h := h
  valves _ _ h := h
  outputs _ _ h := h
  moved n h i := by
    rw [show (countChange n).points = n.points from (congrArg Net.points (countChange_engineOnly n) :)]
    exact h i

/-! ### Staleness timers that do not run out -/

/-- No staleness timer runs out at the next tick. -/
def NoneDue (a : Net) : Prop := ∀ i x, lookup i a.points = some x → x.timer ≠ 1

theorem noneDue_closed : OutageClosed NoneDue where
  plans _ _ h := h
  calls _ _ h := h
  lastCall _ _ h := h
  sections _ _ _ _ h := h
  outages _ _ h := h
  flags a k f hf h i x hx := by
    rw [lookup_adjust] at hx
    split at hx
    · obtain ⟨y, hy, rfl⟩ := Option.map_eq_some_iff.1 hx
      exact (core_timer (hf y)).symm ▸ h i y hy
    · exact h i x hx
  lastOutage _ _ h := h

theorem noneDueValve_closed : ValveClosed NoneDue where
  plans _ _ h := h
  valves _ _ h := h
  outputs _ _ h := h
  moved n h i := by
    rw [show (countChange n).points = n.points from (congrArg Net.points (countChange_engineOnly n) :)]
    exact h i

/-- Timers that do not run out count, and nothing else happens. -/
theorem staleTicks_quiet {l : List Nat} (hl : l.Nodup)
    (h : ∀ i ∈ l, ∀ x, lookup i e.net.points = some x → x.timer ≠ 1) :
    ∃ pts, Event.staleTicks l e = e.setNet { e.net with points := pts }
      ∧ SameBands e.net { e.net with points := pts } := by
  induction l generalizing e with
  | nil => exact ⟨e.net.points, rfl, fun _ => rfl⟩
  | cons i t ih =>
    obtain ⟨hit, ht⟩ := List.nodup_cons.1 hl
    have hticks : e.staleTick i = e ∨ e.staleTick i = e.point i Point.tick := by
      rcases staleTick_cases i e with hsame | hcounts | ⟨y, _, hy, hone, _⟩
      · exact .inl hsame
      · exact .inr hcounts
      · exact absurd hone (h i (List.mem_cons_self ..) y hy)
    rw [Event.staleTicks]
    rcases hticks with htick | htick
    · rw [htick]
      exact ih ht fun j hj => h j (List.mem_cons_of_mem _ hj)
    · rw [htick]
      obtain ⟨pts, hpts, hbands⟩ := ih (e := e.point i Point.tick) ht fun j hj x hx =>
        h j (List.mem_cons_of_mem _ hj) x ((point_lookup_other _ (ne_of_mem_of_not_mem hj hit)).symm.trans hx)
      exact ⟨pts, hpts, fun j => (hbands j).trans (adjust_shown (f := Point.tick) (fun _ => rfl) j i e.net.points)⟩

/-! ### Who leaves the Outage Table alone -/

/-- The outages and their marks are as they were. -/
structure LeavesOutages (a b : Event) : Prop where
  records : b.net.outages = a.net.outages
  marks : b.outages = a.outages

theorem LeavesOutages.refl (e : Event) : LeavesOutages e e := ⟨rfl, rfl⟩

theorem LeavesOutages.trans {a b d : Event} (h : LeavesOutages a b) (h' : LeavesOutages b d) : LeavesOutages a d :=
  ⟨h'.records.trans h.records, h'.marks.trans h.marks⟩

theorem OutageIs.leaves {l : List OutageMark} {e' : Event} (h : OutageIs n o l e) (hl : LeavesOutages e e') :
    OutageIs n o l e' := h.congr hl.records hl.marks

theorem OutageTicked.unchanged {e' : Event} (h : OutageTicked n o e) (hl : LeavesOutages e e') : OutageTicked n o e' :=
  h.leaves (fun _ _ _ hq => hq.leaves hl) fun _ hk => hl.marks ▸ hk

theorem claimReport_marks (claim : Option Nat) (moved : Option Position) (outcome : Option Ending) (e : Event) :
    (e.claimReport claim moved outcome).outages = e.outages := by
  cases claim with
  | none => rfl
  | some k =>
    rcases planReport_cases k moved outcome e with hsame | ⟨r, f, hturn⟩
    · exact (congrArg Event.outages hsame :)
    · exact (congrArg Event.outages hturn :)

theorem setStuck_marks (v : Nat) (c : Bool) (e : Event) : (e.setStuck v c).outages = e.outages := by
  unfold Event.setStuck
  split
  · rfl
  · split <;> rfl

theorem stuckFollows_marks (v : Nat) (pos : Position) (e : Event) : (e.stuckFollows v pos).outages = e.outages := by
  cases pos
  case stuck => exact setStuck_marks v true e
  case opened => exact setStuck_marks v false e
  case closed => exact setStuck_marks v false e
  all_goals rfl

theorem moveValve_marks (v : Nat) (pos : Position) (travel : Nat) (outcome : Option Ending) (e : Event) :
    (e.moveValve v pos travel outcome).outages = e.outages := by
  unfold Event.moveValve
  split
  · dsimp only
    split
    · split
      · rfl
      · exact claimReport_marks ..
    · exact (claimReport_marks ..).trans (stuckFollows_marks ..)
  · rfl

theorem travelTick_marks (v : Nat) (e : Event) : (e.travelTick v).outages = e.outages := by
  unfold Event.travelTick
  split
  · rfl
  · split
    · unfold Event.travelExpiry
      split
      · rfl
      · split
        · exact moveValve_marks ..
        · rfl
    · rfl

theorem outages_closed (t : Table Outage) : ValveClosed (fun n => n.outages = t) where
  plans _ _ h := h
  valves _ _ h := h
  outputs _ _ h := h
  moved n h := (congrArg Net.outages (countChange_engineOnly n) :).trans h

theorem travelTicks_leavesOutages (l : List Nat) (e : Event) : LeavesOutages e (Event.travelTicks l e) := by
  refine ⟨Event.travelTicks_keeps (outages_closed e.net.outages) l e rfl, ?_⟩
  induction l generalizing e with
  | nil => rfl
  | cons v t ih => exact (ih _).trans (travelTick_marks v e)

theorem expireIfDue_leavesOutages (k : Nat) (e : Event) : LeavesOutages e (e.expireIfDue k) := by
  unfold Event.expireIfDue
  split
  · exact .refl e
  · split
    · exact .refl e
    · split
      · unfold Event.expire
        split <;> exact ⟨rfl, rfl⟩
      · exact .refl e

theorem realarmIfDue_leavesOutages (k : Nat) (e : Event) : LeavesOutages e (e.realarmIfDue k) := by
  unfold Event.realarmIfDue
  split
  · exact .refl e
  · split
    · exact .refl e
    · split
      · unfold Event.realarmed
        split <;> exact ⟨rfl, rfl⟩
      · exact .refl e

theorem callQuietly_leavesOutages (k : Nat) (f : Call → Call) (e : Event) : LeavesOutages e (e.callQuietly k f) :=
  ⟨rfl, rfl⟩

theorem callTick_leavesOutages (k : Nat) (e : Event) : LeavesOutages e (e.callTick k) := by
  unfold Event.callTick
  split
  · exact .refl e
  · split
    · split
      · exact (callQuietly_leavesOutages k _ e).trans (realarmIfDue_leavesOutages k _)
      · split
        · exact ⟨rfl, rfl⟩
        · exact (callQuietly_leavesOutages k _ e).trans (expireIfDue_leavesOutages k _)
    · exact .refl e

theorem callTicks_leavesOutages (l : List Nat) (e : Event) : LeavesOutages e (Event.callTicks l e) := by
  induction l generalizing e with
  | nil => exact .refl e
  | cons k t ih => exact (callTick_leavesOutages k e).trans (ih _)

/-! ### The Outage Table's turn -/

theorem outageOf_mem (ho : outageAt n a = some o) : ∃ i, (i, o) ∈ a.outages ∧ o.number = n := by
  obtain ⟨x, hx, rfl⟩ := Option.map_eq_some_iff.1 ho
  exact ⟨x.1, outageNumbered_mem hx⟩

theorem mem_outagesWhere {f : Outage → Bool} (ho : outageAt n a = some o) (hf : f o = true) : n ∈ outagesWhere f a := by
  obtain ⟨i, hmem, hnumber⟩ := outageOf_mem ho
  exact (sortBy_perm _ _).mem_iff.2 (List.mem_map.2 ⟨(i, o), List.mem_filter.2 ⟨hmem, hf⟩, hnumber⟩)

theorem outagesWhere_nodup (f : Outage → Bool) (h : Table.Numbered Outage.number a.outages) :
    (outagesWhere f a).Nodup :=
  (sortBy_perm _ _).nodup_iff.2 (Table.Numbered.filter h)

theorem holdTick_image (k : Nat) (e : Event) : (e.holdTick k).image = e.image :=
  Event.holdTick_grows (imageClosed e.image) k e rfl

theorem holdTicks_ticked {l : List Nat} (hl : l.Nodup) (hn : n ∈ l) (his : OutageIs n o [] e)
    (hstate : o.state = .recharging) (himage : e.image = m) (hbands : SameBands a e.net) :
    OutageTicked n (o.ticked m a) (Event.holdTicks l e) := by
  have hothers {y : Outage} {l : List OutageMark} (hl : ∀ x ∈ l, x.number = n) := outageIs_steps (o := y) hl
  induction l generalizing e with
  | nil => cases hn
  | cons k t ih =>
    obtain ⟨hkt, ht⟩ := List.nodup_cons.1 hl
    rw [Event.holdTicks]
    by_cases hk : k = n
    · subst hk
      have hturn := holdTick_ticked his.within his.record hstate
      rw [himage, ticked_congr hbands] at hturn
      refine hturn.leaves (fun y l hl h => (hothers hl).holdTicks (fun i hi hik => hkt (hik ▸ hi)) h) fun c hc => ?_
      exact Event.holdTicks_grows (closedClosed k c) t _ hc
    · refine ih ht ((List.mem_cons.1 hn).resolve_left (Ne.symm hk))
        ((hothers (l := []) fun _ hx => (nomatch hx)).holdTick hk his)
        ((holdTick_image k e).trans himage) ?_
      exact Event.holdTick_keeps (bands_closed a).point k e hbands

theorem outageTick_ticked (htables : e.Tabled) (ho : outageAt n e.net = some o) (hstate : o.state = .recharging)
    (himage : e.image = m) (hbands : SameBands a e.net) : OutageTicked n (o.ticked m a) e.outageTick := by
  have hheld := holdTicks_ticked (outagesWhere_nodup _ htables.outageNumbers)
    (mem_outagesWhere (f := fun o => o.state == .recharging) ho (by simp [hstate]))
    ⟨htables.outages, ho, fun _ hx => (nomatch hx)⟩ hstate himage hbands
  exact hheld.leaves (fun y l hl h => (outageIs_steps hl).gatherIfFreed h) fun c hc =>
    Event.gatherIfFreed_grows (closedClosed n c) _ _ hc

/-! ### The tick -/

/-- What the Outage Table reads while the blocks of a list are still to come. -/
structure HoldsCome (u : State) (l : List Block) (e : Event) : Prop where
  tables : e.Tabled
  image : e.image = u.cfu.image
  bands : SameBands u.net e.net
  quiet : .psv ∈ l → NoneDue e.net

theorem HoldsCome.start (h : TablesSound u) (hdue : NoneDue u.net) {l : List Block} {c : Nat} :
    HoldsCome u l { Event.start u with choices := c } :=
  ⟨TablesSound.start h, rfl, fun _ => rfl, fun _ => hdue⟩

theorem HoldsCome.step {w : Block} {t : List Block} (hw : w ∉ t) (h : HoldsCome u (w :: t) e) :
    HoldsCome u t (Event.secondAt w e) := by
  have himage := (secondAt_image w e).trans h.image
  have htables := h.tables.secondAt (b := w)
  by_cases hpsv : w = .psv
  · subst hpsv
    obtain ⟨pts, hpts, hbands⟩ := staleTicks_quiet (keys_nodup h.tables.points)
      fun i _ x hx => h.quiet (List.mem_cons_self ..) i x hx
    refine ⟨htables, himage, fun i => ?_, fun hmem => absurd hmem hw⟩
    rw [show Event.secondAt .psv e = _ from hpts]
    exact (hbands i).trans (h.bands i)
  · exact ⟨htables, himage, secondAt_keeps_flags (bandsValve_closed _) (bands_closed _) hpsv h.bands, fun hmem =>
      secondAt_keeps_flags noneDueValve_closed noneDue_closed hpsv (h.quiet (List.mem_cons_of_mem _ hmem))⟩

/-- Every block but the Outage Table leaves the outages alone. -/
theorem secondAt_leavesOutages {w : Block} {t : List Block} (h : HoldsCome u (w :: t) e) (hw : w ≠ .ogt) :
    LeavesOutages e (Event.secondAt w e) := by
  cases w with
  | ogt => exact absurd rfl hw
  | vlc => exact travelTicks_leavesOutages _ e
  | clr => exact callTicks_leavesOutages _ e
  | psv =>
    obtain ⟨pts, hpts, _⟩ := staleTicks_quiet (keys_nodup h.tables.points)
      fun i _ x hx => h.quiet (List.mem_cons_self ..) i x hx
    rw [show Event.secondAt .psv e = _ from hpts]
    exact ⟨rfl, rfl⟩
  | _ => exact .refl e

theorem mem_secondUsers_ogt (ho : outageAt n u.net = some o) : Block.ogt ∈ secondUsers u.net := by
  have hne : u.net.outages ≠ [] := fun h => by simp [outageAt, h, outageNumbered] at ho
  simp [secondUsers, hne]

/-- An outage in RECHARGING after the tick. -/
theorem secondEvent_outage (h : TablesSound u) (hdue : NoneDue u.net) (ho : outageAt n u.net = some o)
    (hstate : o.state = .recharging) : OutageTicked n (o.ticked u.cfu.image u.net) (secondEvent u) := by
  have hturned := secondEvent_induct (u := u)
    (P := fun l e => HoldsCome u l e ∧ (.ogt ∈ l → outageAt n e.net = some o)
      ∧ (.ogt ∉ l → OutageTicked n (o.ticked u.cfu.image u.net) e))
    (fun l c hl => ⟨HoldsCome.start h hdue, fun _ => ho,
      fun hmem => absurd (hl.mem_iff.2 (mem_secondUsers_ogt ho)) hmem⟩)
    (fun w t e hw ⟨hcome, hbefore, hafter⟩ => by
      refine ⟨hcome.step hw, fun hmem => ?_, fun hmem => ?_⟩
      · have hwogt : w ≠ .ogt := fun hwo => hw (hwo ▸ hmem)
        have hleaves := secondAt_leavesOutages hcome hwogt
        exact (congrArg (fun t => (outageNumbered n t).map Prod.snd) hleaves.records).trans
          (hbefore (List.mem_cons_of_mem _ hmem))
      · by_cases hwogt : w = .ogt
        · subst hwogt
          exact outageTick_ticked hcome.tables (hbefore (List.mem_cons_self ..)) hstate hcome.image hcome.bands
        · refine (hafter fun hcons => ?_).unchanged (secondAt_leavesOutages hcome hwogt)
          exact hmem ((List.mem_cons.1 hcons).resolve_left (Ne.symm hwogt)))
  exact hturned.2.2 (List.not_mem_nil)

end Sys2Proof.Machine
end

section
/-!
A call at the 1 s tick (R139, R140): what its own turn makes of it, and that the turns and the upgrades of other calls
leave it.
-/

namespace Sys2Proof.Machine

variable {e : Event} {k n : Nat} {c y : Call} {st g : Stage} {r : List (Block × Report)} {m : Image}

/-! ### The call of a number -/

theorem callNumbered_mapTable {f : Nat → Call → Call} (hf : ∀ i c, (f i c).number = c.number) (t : Table Call) :
    callNumbered n (mapTable f t) = (callNumbered n t).map fun x => (x.1, f x.1 x.2) := by
  induction t with
  | nil => rfl
  | cons x t ih =>
    by_cases hx : x.2.number = n
    · simp [mapTable, callNumbered, hf, hx]
    · simp [mapTable, callNumbered, hf, hx, ih]

theorem callNumbered_of_lookup {t : Table Call} (hnumbers : Table.Numbered Call.number t) (hy : lookup k t = some y) :
    callNumbered y.number t = some (k, y) := by
  induction t with
  | nil => cases hy
  | cons x t ih =>
    obtain ⟨i, c⟩ := x
    obtain ⟨hnew, hrest⟩ := List.nodup_cons.1 hnumbers
    by_cases hi : i = k
    · subst hi
      obtain rfl : c = y := by simpa [lookup] using hy
      simp [callNumbered]
    · have hy' : lookup k t = some y := by simpa [lookup, hi] using hy
      have hne : c.number ≠ y.number := fun h => hnew (List.mem_map.2 ⟨(k, y), mem_of_lookup hy', h.symm⟩)
      simp [callNumbered, hne, ih hrest hy']

/-- A call that is in a list of numbers meets the list's test. -/
theorem mem_callsWhere {a : Net} {f : Call → Bool} (hnumbers : Table.Numbered Call.number a.calls)
    (hy : lookup k a.calls = some y) : y.number ∈ callsWhere f a ↔ f y = true := by
  refine (sortBy_perm _ _).mem_iff.trans ⟨fun h => ?_, fun h =>
    List.mem_map.2 ⟨(k, y), List.mem_filter.2 ⟨mem_of_lookup hy, h⟩, rfl⟩⟩
  obtain ⟨x, hx, hnumber⟩ := List.mem_map.1 h
  obtain ⟨hmem, hf⟩ := List.mem_filter.1 hx
  have hsame : x = (k, y) := List.inj_on_of_nodup_map hnumbers hmem (mem_of_lookup hy) hnumber
  rwa [hsame] at hf

theorem callsWhere_nodup {a : Net} (f : Call → Bool) (h : Table.Numbered Call.number a.calls) :
    (callsWhere f a).Nodup :=
  (sortBy_perm _ _).nodup_iff.2 (Table.Numbered.filter h)

/-! ### A call and the reports about it -/

/-- The condition of an overdue stage of a call (R140). -/
def overdueOf (st : Stage) (n : Nat) : CondId := { kind := overdueKind st, index := n }

/-- The record of a call in an event, and the reports about its overdue stage. -/
structure CallIs (k : Nat) (y : Call) (st : Stage) (r : List (Block × Report)) (e : Event) : Prop where
  record : lookup k e.net.calls = some y
  numbered : callNumbered y.number e.net.calls = some (k, y)
  reports : about (overdueOf st y.number) e = r

/-- The calls and the reports about one condition are as they were. -/
structure LeavesCalls (d : CondId) (a b : Event) : Prop where
  records : b.net.calls = a.net.calls
  reports : about d b = about d a

theorem LeavesCalls.refl (d : CondId) (e : Event) : LeavesCalls d e e := ⟨rfl, rfl⟩

theorem LeavesCalls.trans {d : CondId} {a b e : Event} (h : LeavesCalls d a b) (h' : LeavesCalls d b e) :
    LeavesCalls d a e := ⟨h'.records.trans h.records, h'.reports.trans h.reports⟩

theorem CallIs.leaves {e' : Event} (h : CallIs k y st r e) (hl : LeavesCalls (overdueOf st y.number) e e') :
    CallIs k y st r e' := ⟨hl.records ▸ h.record, hl.records ▸ h.numbered, hl.reports.trans h.reports⟩

/-- A change of the call in its own record. -/
theorem CallIs.callQuietly {f : Call → Call} (hf : ∀ c, (f c).number = c.number) (h : CallIs k y st r e) :
    CallIs k (f y) st r (e.callQuietly y.number f) := by
  refine ⟨?_, ?_, (congrArg (fun n => about (overdueOf st n) _) (hf y)).trans h.reports⟩
  · refine (lookup_mapTable _ _ _).trans ?_
    rw [h.record]
    simp
  · refine (callNumbered_mapTable (fun i c => ?_) _).trans ?_
    · split
      · exact hf c
      · rfl
    · rw [hf, h.numbered]
      simp

/-- A running stage of a call that is overdue loses a second, and its re-alarm timer too. -/
def Call.overdueTick (st : Stage) (c : Call) : Call :=
  setRemaining (remaining c st - 1) { c with elapsed := addElapsed c.elapsed, realarm := c.realarm - 1 } st

/-- A running stage of a call that is not overdue loses a second. -/
def Call.runningTick (st : Stage) (c : Call) : Call :=
  setRemaining (remaining c st - 1) { c with elapsed := addElapsed c.elapsed } st

theorem overdueTick_number (st : Stage) (c : Call) :
    (c.overdueTick st).number = c.number := Event.Tabled.setRemaining_number ..

theorem runningTick_number (st : Stage) (c : Call) :
    (c.runningTick st).number = c.number := Event.Tabled.setRemaining_number ..

section
variable (hn : y.number ≠ n)
include hn

theorem CallIs.callQuietly_other {f : Call → Call} (hf : ∀ c, (f c).number = c.number) (h : CallIs k y st r e) :
    CallIs k y st r (e.callQuietly n f) := by
  refine ⟨?_, ?_, h.reports⟩
  · refine (lookup_mapTable _ _ _).trans ?_
    rw [h.record]
    simp [hn]
  · refine (callNumbered_mapTable (fun i c => ?_) _).trans ?_
    · split
      · exact hf c
      · rfl
    · rw [h.numbered]
      simp [hn]

theorem CallIs.expired_other {q : ReportKind} {body : NoticeBody} (h : CallIs k y st r e) :
    CallIs k y st r ((e.report .clr q (overdueKind g) n).post .clr body []) := by
  refine h.leaves ⟨rfl, ?_⟩
  have hne : ({ kind := overdueKind g, index := n } : CondId) ≠ overdueOf st y.number := fun heq =>
    hn (congrArg CondId.index heq).symm
  simp [about, Event.post, Event.report, hne]

theorem CallIs.expire_other (h : CallIs k y st r e) : CallIs k y st r (e.expire n g) := by
  unfold Event.expire
  split
  · exact h
  · exact (h.callQuietly_other hn
      (f := fun y => { setOverdue true y g with realarm := (paramsOf e.image).realarm })
      (fun c => Event.Tabled.setOverdue_number true c g)).expired_other hn

theorem CallIs.realarmed_other (h : CallIs k y st r e) : CallIs k y st r (e.realarmed n g) := by
  unfold Event.realarmed
  split
  · exact h
  · exact (h.callQuietly_other hn (f := fun y => { y with realarm := (paramsOf e.image).realarm })
      (fun _ => rfl)).expired_other hn

theorem CallIs.expireIfDue_other (h : CallIs k y st r e) : CallIs k y st r (e.expireIfDue n) := by
  unfold Event.expireIfDue
  split
  · exact h
  · split
    · exact h
    · split
      · exact h.expire_other hn
      · exact h

theorem CallIs.realarmIfDue_other (h : CallIs k y st r e) : CallIs k y st r (e.realarmIfDue n) := by
  unfold Event.realarmIfDue
  split
  · exact h
  · split
    · exact h
    · split
      · exact h.realarmed_other hn
      · exact h

theorem CallIs.callTick_other (h : CallIs k y st r e) : CallIs k y st r (e.callTick n) := by
  unfold Event.callTick
  split
  · exact h
  · split
    · split
      · exact (h.callQuietly_other hn (overdueTick_number _)).realarmIfDue_other hn
      · split
        · exact h.callQuietly_other hn (fun _ => rfl)
        · exact (h.callQuietly_other hn (runningTick_number _)).expireIfDue_other hn
    · exact h

theorem CallIs.upgrade_other {grade : Nat} (h : CallIs k y st r e) : CallIs k y st r (e.upgrade grade n) := by
  unfold Event.upgrade
  split
  · exact h
  · split
    · refine CallIs.expireIfDue_other hn ?_
      obtain ⟨hnet, hreports⟩ := markCall_same n (e.callQuietly n (upgraded e.image grade))
      refine (h.callQuietly_other hn (f := upgraded e.image grade) (Event.Tabled.upgraded_number _ _)).leaves ⟨?_, ?_⟩
      · exact (congrArg Net.calls hnet :)
      · exact about_of_reports hreports
    · exact h

end

theorem CallIs.callTicks_other {l : List Nat} (hl : y.number ∉ l) (h : CallIs k y st r e) :
    CallIs k y st r (Event.callTicks l e) := by
  induction l generalizing e with
  | nil => exact h
  | cons n t ih =>
    obtain ⟨hn, ht⟩ := not_or.1 (List.mem_cons.not.1 hl)
    exact ih ht (h.callTick_other hn)

theorem CallIs.upgrades_other {l : List Nat} {grade : Nat} (hl : y.number ∉ l) (h : CallIs k y st r e) :
    CallIs k y st r (Event.upgrades grade l e) := by
  induction l generalizing e with
  | nil => exact h
  | cons n t ih =>
    obtain ⟨hn, ht⟩ := not_or.1 (List.mem_cons.not.1 hl)
    exact ih ht (h.upgrade_other hn)

/-! ### The call's own turn -/

@[simp] theorem setRemaining_elapsed (i : Nat) (c : Call) (st : Stage) : (setRemaining i c st).elapsed = c.elapsed := by
  cases st <;> rfl

@[simp] theorem setRemaining_realarm (i : Nat) (c : Call) (st : Stage) : (setRemaining i c st).realarm = c.realarm := by
  cases st <;> rfl

@[simp] theorem setRemaining_state (i : Nat) (c : Call) (st : Stage) : (setRemaining i c st).state = c.state := by
  cases st <;> rfl

@[simp] theorem setRemaining_outage (i : Nat) (c : Call) (st : Stage) : (setRemaining i c st).outage = c.outage := by
  cases st <;> rfl

@[simp] theorem remaining_setRemaining (i : Nat) (c : Call) (st : Stage) : remaining (setRemaining i c st) st = i := by
  cases st <;> rfl

@[simp] theorem overdue_setRemaining (i : Nat) (c : Call) (st : Stage) :
    overdue (setRemaining i c st) st = overdue c st := by
  cases st <;> rfl

@[simp] theorem overdue_elapsed (c : Call) (st : Stage) (i j : Nat) :
    overdue { c with elapsed := i, realarm := j } st = overdue c st := by
  cases st <;> rfl

theorem setRemaining_withRealarm (i j : Nat) (c : Call) (st : Stage) :
    { setRemaining i c st with realarm := j } = setRemaining i { c with realarm := j } st := by
  cases st <;> rfl

/-- A call's turn while a stage of it runs. -/
structure StageRuns (k : Nat) (c : Call) (st : Stage) (e : Event) : Prop where
  call : CallIs k c st [] e
  stage : stageOf c.state = some st
  timed : c.outage = none

theorem callTick_overdue (h : StageRuns k c st e) (hover : overdue c st = true) :
    e.callTick c.number = (e.callQuietly c.number (Call.overdueTick st)).realarmIfDue c.number := by
  simp only [Event.callTick, h.call.numbered, h.stage, h.timed, hover, if_true]
  rfl

theorem callTick_running (h : StageRuns k c st e) (hover : overdue c st = false) (hleft : remaining c st ≠ 0) :
    e.callTick c.number = (e.callQuietly c.number (Call.runningTick st)).expireIfDue c.number := by
  simp only [Event.callTick, h.call.numbered, h.stage, h.timed, hover, hleft, if_false, Bool.false_eq_true]
  rfl

theorem about_report_self (q : ReportKind) (st : Stage) (n : Nat) (body : NoticeBody) (e : Event) :
    about (overdueOf st n) ((e.report .clr q (overdueKind st) n).post .clr body [])
      = about (overdueOf st n) e ++ [(.clr, { kind := q, cond := overdueOf st n })] := by
  simp [about, Event.post, Event.report, overdueOf]

/-- A call that expires: its record, the one report about it, and its CALL_DEADLINE. -/
structure CallExpires (k : Nat) (y : Call) (st : Stage) (q : ReportKind) (i : Nat) (e : Event) : Prop where
  call : CallIs k y st [(.clr, { kind := q, cond := overdueOf st y.number })] e
  posted : (Block.clr, { body := .callDeadline y.number st i, also := [] }) ∈ e.posts

theorem expire_expires {i : Nat} (h : CallIs k c st [] e) (hn : c.number = n) (hi : c.elapsed = i) :
    CallExpires k { setOverdue true c st with realarm := (paramsOf e.image).realarm } st .raise i (e.expire n st) := by
  subst hn hi
  have hset := h.callQuietly (f := fun y => { setOverdue true y st with realarm := (paramsOf e.image).realarm })
    (fun y => Event.Tabled.setOverdue_number true y st)
  have hnumber : ({ setOverdue true c st with realarm := (paramsOf e.image).realarm } : Call).number = c.number :=
    Event.Tabled.setOverdue_number true c st
  simp only [Event.expire, h.numbered]
  refine ⟨⟨hset.record, hset.numbered, ?_⟩, ?_⟩
  · have hreports := hset.reports
    rw [hnumber] at hreports ⊢
    rw [about_report_self, hreports]
    rfl
  · rw [hnumber]
    exact List.mem_append_right _ (List.mem_singleton_self _)

theorem realarmed_expires {i : Nat} (h : CallIs k c st [] e) (hn : c.number = n) (hi : c.elapsed = i) :
    CallExpires k { c with realarm := (paramsOf e.image).realarm } st .reraise i (e.realarmed n st) := by
  subst hn hi
  have hset := h.callQuietly (f := fun y => { y with realarm := (paramsOf e.image).realarm }) (fun _ => rfl)
  simp only [Event.realarmed, h.numbered]
  refine ⟨⟨hset.record, hset.numbered, ?_⟩, List.mem_append_right _ (List.mem_singleton_self _)⟩
  rw [about_report_self]
  exact congrArg (· ++ _) hset.reports

/-- What a call with a running stage is after its turn. -/
structure CallTicked (m : Image) (k : Nat) (c : Call) (st : Stage) (e : Event) : Prop where
  counts : overdue c st = false → 2 ≤ remaining c st → CallIs k (c.runningTick st) st [] e
  expires : overdue c st = false → remaining c st = 1 →
    CallExpires k { setOverdue true (c.runningTick st) st with realarm := (paramsOf m).realarm } st .raise
      (addElapsed c.elapsed) e
  waits : overdue c st = true → 2 ≤ c.realarm → CallIs k (c.overdueTick st) st [] e
  realarms : overdue c st = true → c.realarm = 1 →
    CallExpires k { c.overdueTick st with realarm := (paramsOf m).realarm } st .reraise (addElapsed c.elapsed) e

theorem runningTick_is (h : StageRuns k c st e) :
    CallIs k (c.runningTick st) st [] (e.callQuietly c.number (Call.runningTick st)) :=
  h.call.callQuietly (runningTick_number st)

theorem overdueTick_is (h : StageRuns k c st e) :
    CallIs k (c.overdueTick st) st [] (e.callQuietly c.number (Call.overdueTick st)) :=
  h.call.callQuietly (overdueTick_number st)

theorem overdue_runningTick (st : Stage) (c : Call) : overdue (c.runningTick st) st = overdue c st :=
  (overdue_setRemaining ..).trans (overdue_elapsed c st _ c.realarm)

theorem overdue_overdueTick (st : Stage) (c : Call) : overdue (c.overdueTick st) st = overdue c st :=
  (overdue_setRemaining ..).trans (overdue_elapsed ..)

theorem expireIfDue_running (h : StageRuns k c st e) (hover : overdue c st = false) :
    (e.callQuietly c.number (Call.runningTick st)).expireIfDue c.number =
      if remaining c st - 1 = 0 then (e.callQuietly c.number (Call.runningTick st)).expire c.number st
      else e.callQuietly c.number (Call.runningTick st) := by
  have hnumbered := (runningTick_is h).numbered
  rw [runningTick_number] at hnumbered
  have hstage : stageOf (c.runningTick st).state = some st := by simpa [Call.runningTick] using h.stage
  have houtage : (c.runningTick st).outage = none := by simpa [Call.runningTick] using h.timed
  have hleft : remaining (c.runningTick st) st = remaining c st - 1 := remaining_setRemaining ..
  simp only [Event.expireIfDue, hnumbered, hstage, houtage, hleft, overdue_runningTick, hover, and_true]

theorem realarmIfDue_overdue (h : StageRuns k c st e) (hover : overdue c st = true) :
    (e.callQuietly c.number (Call.overdueTick st)).realarmIfDue c.number =
      if c.realarm - 1 = 0 then (e.callQuietly c.number (Call.overdueTick st)).realarmed c.number st
      else e.callQuietly c.number (Call.overdueTick st) := by
  have hnumbered := (overdueTick_is h).numbered
  rw [overdueTick_number] at hnumbered
  have hstage : stageOf (c.overdueTick st).state = some st := by simpa [Call.overdueTick] using h.stage
  have houtage : (c.overdueTick st).outage = none := by simpa [Call.overdueTick] using h.timed
  have hleft : (c.overdueTick st).realarm = c.realarm - 1 := setRemaining_realarm ..
  simp only [Event.realarmIfDue, hnumbered, hstage, houtage, hleft, overdue_overdueTick, hover, and_true]

theorem callTick_ticked (h : StageRuns k c st e) : CallTicked e.image k c st (e.callTick c.number) where
  counts hover hleft := by
    rw [callTick_running h hover (by omega), expireIfDue_running h hover, if_neg (by omega)]
    exact runningTick_is h
  expires hover hleft := by
    rw [callTick_running h hover (by omega), expireIfDue_running h hover, if_pos (by omega)]
    exact expire_expires (runningTick_is h) (runningTick_number st c) (setRemaining_elapsed ..)
  waits hover hleft := by
    rw [callTick_overdue h hover, realarmIfDue_overdue h hover, if_neg (by omega)]
    exact overdueTick_is h
  realarms hover hleft := by
    rw [callTick_overdue h hover, realarmIfDue_overdue h hover, if_pos (by omega)]
    exact realarmed_expires (overdueTick_is h) (overdueTick_number st c) (setRemaining_elapsed ..)

/-- Kept by whatever leaves the call and the notices posted. -/
theorem CallTicked.leaves {e' : Event} (h : CallTicked m k c st e)
    (hcall : ∀ (y : Call) r, y.number = c.number → y.kind = c.kind → y.sect = c.sect → CallIs k y st r e →
      CallIs k y st r e')
    (hposts : ∀ x ∈ e.posts, x ∈ e'.posts) : CallTicked m k c st e' where
  counts hover hleft := hcall _ _ (runningTick_number st c) (by cases st <;> rfl) (by cases st <;> rfl)
    (h.counts hover hleft)
  expires hover hleft := by
    obtain ⟨hcalled, hposted⟩ := h.expires hover hleft
    exact ⟨hcall _ _ (by cases st <;> rfl) (by cases st <;> rfl) (by cases st <;> rfl) hcalled, hposts _ hposted⟩
  waits hover hleft := hcall _ _ (overdueTick_number st c) (by cases st <;> rfl) (by cases st <;> rfl)
    (h.waits hover hleft)
  realarms hover hleft := by
    obtain ⟨hcalled, hposted⟩ := h.realarms hover hleft
    exact ⟨hcall _ _ (by cases st <;> rfl) (by cases st <;> rfl) (by cases st <;> rfl) hcalled, hposts _ hposted⟩

theorem callTicks_ticked {l : List Nat} (hl : l.Nodup) (hc : c.number ∈ l) (himage : e.image = m)
    (h : StageRuns k c st e) : CallTicked m k c st (Event.callTicks l e) := by
  induction l generalizing e with
  | nil => cases hc
  | cons n t ih =>
    obtain ⟨hnt, ht⟩ := List.nodup_cons.1 hl
    rw [Event.callTicks]
    by_cases hn : c.number = n
    · subst hn
      have hturn := callTick_ticked h
      rw [himage] at hturn
      exact hturn.leaves (fun y r hy _ _ hcall => hcall.callTicks_other (hy ▸ hnt))
        (fun x hx => Event.callTicks_grows (postsClosed x) t _ hx)
    · exact ih ht ((List.mem_cons.1 hc).resolve_left hn)
        ((Event.callTick_grows (imageClosed e.image) n e rfl).trans himage)
        ⟨h.call.callTick_other hn, h.stage, h.timed⟩

end Sys2Proof.Machine
end

section
/-!
A call while the other blocks take their turns at the 1 s tick (R139): the Valve Controller and the Pressure Supervisor
never reach it (a point that goes stale has no fall in it), and the Outage Table does not where no outage completes
and none that comes to RELIGHTING ends the suppression of the call's section.
-/

namespace Sys2Proof.Machine

variable {u : State} {e : Event} {i k n : Nat} {y : Call} {st : Stage} {r : List (Block × Report)} {d : CondId}
  {m : Image} {a : Net} {o : Outage} {x : Point}

theorem ofValve_overdueKind (st : Stage) : ofValve (overdueKind st) = false := by cases st <;> rfl

theorem LeavesCalls.of_eq {b : Event} (h : b = e) : LeavesCalls d e b := by
  subst h
  exact .refl d b

/-! ### The Valve Controller -/

theorem callsValve_closed (t : Table Call) : ValveClosed (fun n => n.calls = t) where
  plans _ _ h := h
  valves _ _ h := h
  outputs _ _ h := h
  moved n h := (congrArg Net.calls (countChange_engineOnly n) :).trans h

theorem travelTicks_leavesCalls (hd : ofValve d.kind = false) (l : List Nat) (e : Event) :
    LeavesCalls d e (Event.travelTicks l e) :=
  ⟨Event.travelTicks_keeps (callsValve_closed e.net.calls) l e rfl, travelTicks_about hd l e⟩

/-! ### The Pressure Supervisor -/

theorem relistOne_leavesCalls (hd : ofPoint d.kind = false) (k : CondKind) (e : Event) :
    LeavesCalls d e (e.relistOne i k) := by
  cases hx : lookup i e.net.points with
  | none =>
    have hsame : e.relistOne i k = e := by simp [Event.relistOne, hx]
    exact .of_eq hsame
  | some x =>
    by_cases hsame : listed x k = wanted x k
    · exact .of_eq (relistOne_same hx hsame)
    · have hne : ({ kind := k, index := i } : CondId) ≠ d := by
        rintro rfl
        have hmem := mem_pointKinds_of_differs hsame
        simp [ofPoint, hmem] at hd
      rw [relistOne_differs hx hsame]
      exact ⟨rfl, signal_about_other hne⟩

theorem relistAll_leavesCalls (hd : ofPoint d.kind = false) (l : List CondKind) (e : Event) :
    LeavesCalls d e (e.relistAll i l) := by
  induction l generalizing e with
  | nil => exact .refl d e
  | cons k t ih => exact (relistOne_leavesCalls hd k e).trans (ih _)

/-- A point's record but for suppression and listing, while its conditions are relisted. -/
theorem coreAt_closed (i : Nat) (x : Point) : PointClosed
    (fun n => (lookup i n.points).map Point.core = some x.core) where
  plans _ _ h := h
  calls _ _ h := h
  lastCall _ _ h := h
  sections _ _ _ _ h := h
  outages _ _ h := h
  flags n k f hf h := by
    refine Eq.trans ?_ h
    rw [lookup_adjust]
    split
    · cases lookup i n.points <;> simp [hf]
    · rfl

/-- A stale point has no rate of fall listed: its latch is gone. -/
theorem stale_fall (hx : lookup i e.net.points = some x) : fallIsListed i (relistedStale i x.tick e).net = false := by
  have hy : lookup i ((e.point i Point.tick).point i fun _ => staled x.tick).net.points = some (staled x.tick) :=
    point_lookup_same _ (point_lookup_same _ hx)
  obtain ⟨z, hz, hlisted, _⟩ := relistAll_lists hy staleKinds
  have hcore := Event.relistAll_keeps (coreAt_closed i (staled x.tick)) i staleKinds _ (by rw [hy]; rfl)
  rw [hz] at hcore
  have hlatch : z.latch = false := (congrArg Point.latch (Option.some.inj hcore) :)
  have hwanted : wanted z .rateOfFall = false := by simp [wanted, hlatch]
  have hfall : z.fallListed = false := (hlisted .rateOfFall (by decide)).trans hwanted
  rw [fallIsListed, relistedStale, hz]
  exact hfall

theorem outageQuietly_leavesCalls (n : Nat) (f : Outage → Outage) (e : Event) : LeavesCalls d e (e.outageQuietly n f) :=
  ⟨rfl, rfl⟩

theorem outage_leavesCalls (n : Nat) (f : Outage → Outage) (e : Event) : LeavesCalls d e (e.outage n f) := by
  obtain ⟨hnet, hreports⟩ := markOutage_same n (e.outageQuietly n f)
  exact ⟨(congrArg Net.calls hnet :), about_of_reports hreports⟩

/-- A point that did not enter LOWLOW relapses no outage. -/
theorem pointReport_leavesCalls (k : Nat) (left : Bool) (e : Event) : LeavesCalls d e (e.pointReport k false left) := by
  unfold Event.pointReport
  split
  · exact .refl d e
  · split
    · exact .refl d e
    · split
      · unfold Event.ruleActive
        split
        · exact .refl d e
        · split
          · exact outage_leavesCalls ..
          · exact .refl d e
      · exact .refl d e
    · split
      · exact .refl d e
      · exact outageQuietly_leavesCalls ..
    · exact .refl d e

theorem tellOutages_leavesCalls {p : PointDef} {z : Point} (hz : isFreshLow z = false) (e : Event) :
    LeavesCalls d e (tellOutages p x z e) := by
  unfold tellOutages
  split
  · exact .refl d e
  · rw [hz, Bool.false_and]
    exact pointReport_leavesCalls ..

theorem callsSource_closed (t : Table Call) : SourceClosed (fun n => n.calls = t) where
  sources _ _ h := h
  change n h := (congrArg Net.calls (countChange_engineOnly n) :).trans h

theorem outlet_leavesCalls (n : Nat) (low : Bool) (e : Event) : LeavesCalls d e (e.outlet n low) := by
  refine ⟨Event.outlet_keeps (callsSource_closed e.net.calls) n low e rfl, about_of_reports ?_⟩
  unfold Event.outlet
  split
  · rfl
  · exact source_reports ..

/-- The reports of a point that did not enter LOWLOW, without an onset. -/
theorem pointReports_leavesCalls {p : PointDef} {z : Point} (hz : isFreshLow z = false) (n : Nat) (e : Event) :
    LeavesCalls d e (e.pointReports n p x z false) := by
  rw [pointReports_eq, if_neg Bool.false_ne_true]
  split
  · exact tellOutages_leavesCalls hz e
  · exact (tellOutages_leavesCalls hz e).trans (outlet_leavesCalls ..)

theorem staleTick_leavesCalls (hd : ofPoint d.kind = false) (i : Nat) (e : Event) :
    LeavesCalls d e (e.staleTick i) := by
  rcases staleTick_cases i e with htick | htick | ⟨x, p, hx, _, _, htick⟩
  · exact .of_eq htick
  · rw [htick]
    exact ⟨rfl, rfl⟩
  · rw [htick, stale_fall hx, Bool.false_and]
    have hrelisted := relistAll_leavesCalls (i := i) hd staleKinds
      ((e.point i Point.tick).point i fun _ => staled x.tick)
    exact LeavesCalls.trans ⟨hrelisted.records, hrelisted.reports⟩ (pointReports_leavesCalls rfl i _)

theorem staleTicks_leavesCalls (hd : ofPoint d.kind = false) (l : List Nat) (e : Event) :
    LeavesCalls d e (Event.staleTicks l e) := by
  induction l generalizing e with
  | nil => exact .refl d e
  | cons i t ih => exact (staleTick_leavesCalls hd i e).trans (ih _)

/-! ### The Outage Table: suppression ends -/

/-- Is a call one that an onset in a section upgrades (R145)? -/
def Upgradable (y : Call) (k : Nat) : Prop := y.kind = .odour ∧ y.sect = k

theorem CallIs.fallOnset (h : CallIs k y st r e) (htables : e.Tabled) (hsect : ¬ Upgradable y n) :
    CallIs k y st r (e.fallOnset n) := by
  refine h.upgrades_other fun hmem => hsect ?_
  simpa [Upgradable] using (mem_callsWhere htables.callNumbers h.record).1 hmem

theorem CallIs.suppressPoint (h : CallIs k y st r e) (htables : e.Tabled) {b : Bool}
    (hsect : ∀ p, lookup i e.image.points = some p → ¬ Upgradable y p.sect) :
      CallIs k y st r (e.suppressPoint b i) := by
  unfold Event.suppressPoint
  dsimp only
  split
  · next x p hx hp =>
    split
    · exact h
    · have hrelisted : CallIs k y st r ((e.point i fun y => { y with suppressed := b }).relist i) :=
        CallIs.leaves (e := e.point i fun y => { y with suppressed := b }) ⟨h.record, h.numbered, h.reports⟩
          (relistAll_leavesCalls (OutageSteps.ofPoint_overdueKind st) pointKinds _)
      split
      · exact hrelisted.fallOnset htables.point.relist (hsect p hp)
      · exact hrelisted
  · exact h

theorem suppressPoint_image (b : Bool) (i : Nat) (e : Event) : (e.suppressPoint b i).image = e.image :=
  Event.suppressPoint_grows (imageClosed e.image) b i e rfl

theorem CallIs.suppressPoints {l : List Nat} {b : Bool} (h : CallIs k y st r e) (htables : e.Tabled)
    (hsect : ∀ i ∈ l, ∀ p, lookup i e.image.points = some p → ¬ Upgradable y p.sect) :
    CallIs k y st r (Event.suppressPoints b l e) := by
  induction l generalizing e with
  | nil => exact h
  | cons i t ih =>
    refine ih (h.suppressPoint htables (hsect i (List.mem_cons_self ..))) htables.suppressPoint fun j hj p hp => ?_
    rw [suppressPoint_image] at hp
    exact hsect j (List.mem_cons_of_mem _ hj) p hp

theorem CallIs.suppressAll {l : List Nat} {b : Bool} (h : CallIs k y st r e) (htables : e.Tabled)
    (hwf : e.image.points.wf = true) (hsect : ∀ s ∈ l, ¬ Upgradable y s) : CallIs k y st r (e.suppressAll b l) := by
  refine h.suppressPoints htables fun i hi p hp => ?_
  obtain ⟨s, hs, hmem⟩ := List.mem_flatMap.1 ((sortBy_perm _ _).mem_iff.1 hi)
  obtain ⟨q, hq, hqs⟩ := (mem_keys_filter hwf).1 hmem
  cases hp.symm.trans hq
  have hsame : p.sect = s := by simpa using hqs
  exact hsame ▸ hsect s hs

theorem setRelapse_leavesCalls {b : Bool} (hd : d.kind ≠ .relapse) (n : Nat) (e : Event) :
    LeavesCalls d e (e.setRelapse n b) := by
  unfold Event.setRelapse
  split
  · exact .refl d e
  · split
    · exact .refl d e
    · refine ⟨rfl, signal_about_other ?_⟩
      rintro rfl
      exact hd rfl

end Sys2Proof.Machine
end

section
/-!
Calls at the 1 s tick (R139, R140), whichever order the blocks take.
-/

namespace Sys2Proof.Machine

variable {u : State} {e : Event} {i k n : Nat} {y c : Call} {st : Stage} {r : List (Block × Report)} {m : Image}
  {a : Net} {o : Outage}

/-! ### The end of a suppression changes no outage -/

theorem upgrade_leavesOutages (g n : Nat) (e : Event) : LeavesOutages e (e.upgrade g n) := by
  have hcall : LeavesOutages e (e.call n (upgraded e.image g)) := by
    unfold Event.call Event.markCall
    split <;> exact ⟨rfl, rfl⟩
  unfold Event.upgrade
  split
  · exact .refl e
  · split
    · exact hcall.trans (expireIfDue_leavesOutages n _)
    · exact .refl e

theorem upgrades_leavesOutages (g : Nat) (l : List Nat) (e : Event) : LeavesOutages e (Event.upgrades g l e) := by
  induction l generalizing e with
  | nil => exact .refl e
  | cons n t ih => exact (upgrade_leavesOutages g n e).trans (ih _)

theorem relistAll_leavesOutages (i : Nat) (l : List CondKind) (e : Event) : LeavesOutages e (e.relistAll i l) := by
  induction l generalizing e with
  | nil => exact .refl e
  | cons k t ih =>
    refine LeavesOutages.trans ?_ (ih _)
    unfold Event.relistOne
    split
    · exact .refl e
    · split
      · exact .refl e
      · exact ⟨rfl, rfl⟩

theorem suppressPoint_leavesOutages (b : Bool) (i : Nat) (e : Event) : LeavesOutages e (e.suppressPoint b i) := by
  have hlisted : LeavesOutages e ((e.point i fun y => { y with suppressed := b }).relist i) :=
    LeavesOutages.trans (b := e.point i fun y => { y with suppressed := b }) ⟨rfl, rfl⟩ (relistAll_leavesOutages ..)
  unfold Event.suppressPoint
  dsimp only
  split
  · split
    · exact .refl e
    · split
      · exact hlisted.trans (upgrades_leavesOutages ..)
      · exact hlisted
  · exact .refl e

theorem suppressPoints_leavesOutages (b : Bool) (l : List Nat) (e : Event) :
    LeavesOutages e (Event.suppressPoints b l e) := by
  induction l generalizing e with
  | nil => exact .refl e
  | cons i t ih => exact (suppressPoint_leavesOutages b i e).trans (ih _)

/-! ### The Outage Table's turn -/

/-- The tick of an outage does not reach a call: an outage in RECHARGING waits, or comes to RELIGHTING where no fall in
its sections upgrades the call. -/
def Harmless (m : Image) (a : Net) (y : Call) (o : Outage) : Prop :=
  o.state = .recharging → Waits (o.ticked m a) ∨ (o.off ≠ 0 ∧ ∀ s ∈ memberSections o, ¬ Upgradable y s)

theorem outages_length (f : Nat → Outage → Outage) (t : Table Outage) : (mapTable f t).length = t.length := by
  induction t with
  | nil => rfl
  | cons x t ih => simp [mapTable, ih]

theorem outage_length (n : Nat) (f : Outage → Outage) (e : Event) :
    (e.outage n f).net.outages.length = e.net.outages.length := by
  rw [outage_net]
  exact outages_length ..

theorem relight_length (n : Nat) (l : List Nat) (e : Event) :
    (e.relight n l).net.outages.length = e.net.outages.length := by
  have hrelapse (b : Event) : (b.setRelapse n false).net.outages.length = b.net.outages.length := by
    unfold Event.setRelapse
    split
    · rfl
    · split
      · rfl
      · exact outages_length ..
  rw [Event.relight, Event.suppressAll, (suppressPoints_leavesOutages ..).records, hrelapse, outage_length]

theorem CallIs.relight {l : List Nat} (h : CallIs k y st r e) (htables : e.Tabled) (hwf : e.image.points.wf = true)
    (hsect : ∀ s ∈ l, ¬ Upgradable y s) : CallIs k y st r (e.relight n l) := by
  have hne : (overdueOf st y.number).kind ≠ .relapse := by cases st <;> exact CondKind.noConfusion
  have hturned := (h.leaves (outage_leavesCalls n (fun x => { x with state := .relighting }) e)).leaves
    (setRelapse_leavesCalls (b := false) hne n _)
  refine hturned.suppressAll (htables.outage).setRelapse ?_ hsect
  rwa [Event.setRelapse_grows (imageClosed e.image) n false _
    (Event.outage_grows (imageClosed e.image) n (fun x => { x with state := .relighting }) e rfl)]

theorem holdTick_harmless (h : CallIs k y st r e) (htables : e.Tabled) (hwf : e.image.points.wf = true)
    (ho : outageAt n e.net = some o) (hharm : Harmless e.image e.net y o) :
    CallIs k y st r (e.holdTick n) ∧ (e.holdTick n).net.outages.length = e.net.outages.length := by
  by_cases hstate : o.state = .recharging
  · rcases waits_or_confirms (o.ticked e.image e.net) with hwaits | hconfirms
    · rw [holdTick_waits ho hstate hwaits]
      exact ⟨h.leaves (outageQuietly_leavesCalls ..), outages_length ..⟩
    · obtain hwaits | ⟨hoff, hsect⟩ := hharm hstate
      · obtain ⟨z, hz, hnot⟩ := hwaits
        exact absurd (hnot.symm.trans (hconfirms z hz)) Bool.false_ne_true
      · rw [holdTick_confirms ho hstate hconfirms, if_neg hoff, relight_length]
        have hheld : CallIs k y st r (e.heldOn n) := h.leaves (outageQuietly_leavesCalls ..)
        exact ⟨hheld.relight htables.outageQuietly hwf hsect, outages_length ..⟩
  · rw [holdTick_rests ho hstate]
    exact ⟨h, rfl⟩

/-- The outages of a list of numbers, none of whose ticks reaches a call. -/
def AllHarmless (m : Image) (a : Net) (y : Call) (l : List Nat) (e : Event) : Prop :=
  ∀ n ∈ l, ∃ o, OutageIs n o [] e ∧ Harmless m a y o

theorem Harmless.congr {b : Net} (hbands : SameBands a b) (h : Harmless m a y o) : Harmless m b y o := fun hstate => by
  rw [ticked_congr hbands]
  exact h hstate

theorem holdTicks_harmless {l : List Nat} (hl : l.Nodup) (h : CallIs k y st r e) (htables : e.Tabled)
    (hwf : m.points.wf = true) (himage : e.image = m) (hbands : SameBands a e.net) (hall : AllHarmless m a y l e) :
    CallIs k y st r (Event.holdTicks l e) ∧ (Event.holdTicks l e).net.outages.length = e.net.outages.length := by
  induction l generalizing e with
  | nil => exact ⟨h, rfl⟩
  | cons n t ih =>
    obtain ⟨hnt, ht⟩ := List.nodup_cons.1 hl
    obtain ⟨o, ho, hharm⟩ := hall n (List.mem_cons_self ..)
    obtain ⟨hcall, hlength⟩ := holdTick_harmless h htables (himage ▸ hwf) ho.record
      (himage ▸ hharm.congr hbands)
    rw [Event.holdTicks]
    obtain ⟨hcalls, hlengths⟩ := ih ht hcall htables.holdTick ((holdTick_image n e).trans himage)
      (Event.holdTick_keeps (bands_closed a).point n e hbands) fun j hj => by
        obtain ⟨q, hq, hqharm⟩ := hall j (List.mem_cons_of_mem _ hj)
        exact ⟨q, (outageIs_steps (l := []) fun _ hx => (nomatch hx)).holdTick (ne_of_mem_of_not_mem hj hnt).symm hq,
          hqharm⟩
    exact ⟨hcalls, hlengths.trans hlength⟩

/-- What the Outage Table's turn may not reach. -/
def OutagesSpare (y : Call) (e : Event) : Prop := ∀ n o, outageAt n e.net = some o → Harmless e.image e.net y o

theorem mem_outages_number {f : Outage → Bool} (h : n ∈ outagesWhere f a) : ∃ o, outageAt n a = some o := by
  obtain ⟨x, hx, hnumber⟩ := List.mem_map.1 ((sortBy_perm _ _).mem_iff.1 h)
  cases ho : outageAt n a with
  | some o => exact ⟨o, rfl⟩
  | none => exact absurd hnumber (outageNumbered_none (Option.map_eq_none_iff.1 ho) x (List.mem_filter.1 hx).1)

theorem CallIs.outageTick (h : CallIs k y st r e) (htables : e.Tabled) (hwf : e.image.points.wf = true)
    (hspare : OutagesSpare y e) : CallIs k y st r e.outageTick := by
  obtain ⟨hcalls, hlength⟩ := holdTicks_harmless (outagesWhere_nodup (fun o => o.state == .recharging)
    htables.outageNumbers) h htables hwf rfl (fun _ => rfl) fun n hn => by
      obtain ⟨o, ho⟩ := mem_outages_number hn
      exact ⟨o, ⟨htables.outages, ho, fun _ hx => (nomatch hx)⟩, hspare n o ho⟩
  rw [Event.outageTick, Event.gatherIfFreed, if_neg (by rw [hlength]; exact Nat.lt_irrefl _)]
  exact hcalls

end Sys2Proof.Machine
end

section
/-!
Calls after the 1 s tick (R139, R140): the Outage Table spares a call where every outage is DECLARED or RELIGHTING, and
where no staleness timer runs out and no outage in RECHARGING reaches the call.
-/

namespace Sys2Proof.Machine

variable {u : State} {e : Event} {i k n : Nat} {y c : Call} {st : Stage} {r : List (Block × Report)} {w : Block}
  {a : Net} {o : Outage} {x : Point} {d : CondId} {l : List Block}

/-! ### Outages that a point's expiry does not reach -/

def IdleOutages (a : Net) : Prop := ∀ x ∈ a.outages, x.2.state = .declared ∨ x.2.state = .relighting

theorem outageOf_some {t : Table Outage} (h : outageOf k t = some o) : ∃ i, (i, o) ∈ t := by
  induction t with
  | nil => cases h
  | cons x t ih =>
    unfold outageOf at h
    split at h
    · obtain rfl := Option.some.inj h
      exact ⟨_, List.mem_cons_self ..⟩
    · obtain ⟨i, hi⟩ := ih h
      exact ⟨i, List.mem_cons_of_mem _ hi⟩

theorem LeavesOutages.of_eq {b : Event} (h : b = e) : LeavesOutages e b := by
  subst h
  exact .refl b

theorem pointReport_idle (hidle : IdleOutages e.net) (k : Nat) (left : Bool) : e.pointReport k false left = e := by
  unfold Event.pointReport
  split
  · rfl
  · next o ho =>
    obtain ⟨i, hi⟩ := outageOf_some ho
    rcases hidle _ hi with hstate | hstate
    · rw [show o.state = .declared from hstate]
    · rw [show o.state = .relighting from hstate]
      rfl

theorem source_leavesOutages (k : Nat) (f : Source → Source) (e : Event) : LeavesOutages e (e.source k f) := by
  unfold Event.source
  split
  · exact .refl e
  · dsimp only
    split
    · exact ⟨rfl, rfl⟩
    · exact ⟨(congrArg Net.outages (countChange_engineOnly _) :), rfl⟩

theorem outlet_leavesOutages (n : Nat) (low : Bool) (e : Event) : LeavesOutages e (e.outlet n low) := by
  unfold Event.outlet
  split
  · exact .refl e
  · exact source_leavesOutages ..

theorem pointReports_idle {p : PointDef} {z : Point} (hidle : IdleOutages e.net) (hz : isFreshLow z = false) (n : Nat) :
    LeavesOutages e (e.pointReports n p x z false) := by
  have htold : tellOutages p x z e = e := by
    unfold tellOutages
    split
    · rfl
    · rw [hz, Bool.false_and]
      exact pointReport_idle hidle ..
  rw [pointReports_eq, if_neg Bool.false_ne_true, htold]
  split
  · exact .refl e
  · exact outlet_leavesOutages ..

theorem staleTick_idle (hidle : IdleOutages e.net) (i : Nat) : LeavesOutages e (e.staleTick i) := by
  rcases staleTick_cases i e with htick | htick | ⟨x, p, hx, _, _, htick⟩
  · exact .of_eq htick
  · rw [htick]
    exact ⟨rfl, rfl⟩
  · have hrelisted := relistAll_leavesOutages i staleKinds ((e.point i Point.tick).point i fun _ => staled x.tick)
    have hrecords : (relistedStale i x.tick e).net.outages = e.net.outages := hrelisted.records
    rw [htick, stale_fall hx, Bool.false_and]
    refine LeavesOutages.trans ⟨hrecords, hrelisted.marks⟩ (pointReports_idle (fun q hq => ?_) rfl i)
    rw [hrecords] at hq
    exact hidle q hq

theorem staleTicks_idle {t : List Nat} (hidle : IdleOutages e.net) : LeavesOutages e (Event.staleTicks t e) := by
  induction t generalizing e with
  | nil => exact .refl e
  | cons i t ih =>
    have htick := staleTick_idle hidle i
    exact htick.trans (ih fun q hq => hidle q (htick.records ▸ hq))

theorem secondAt_idle (hidle : IdleOutages e.net) (hw : w ≠ .ogt) : LeavesOutages e (Event.secondAt w e) := by
  cases w with
  | ogt => exact absurd rfl hw
  | vlc => exact travelTicks_leavesOutages _ e
  | clr => exact callTicks_leavesOutages _ e
  | psv => exact staleTicks_idle hidle
  | _ => exact .refl e

/-! ### The blocks still to come -/

/-- No tick of an outage, as the outages stood at first, reaches a call. -/
def Spares (u : State) (c : Call) (e : Event) : Prop :=
  ∀ n o, outageAt n e.net = some o → Harmless u.cfu.image u.net c o

/-- What spares a call while the blocks of a list are still to come. -/
structure CallsCome (u : State) (c : Call) (l : List Block) (e : Event) : Prop where
  tables : e.Tabled
  image : e.image = u.cfu.image
  spared : .ogt ∈ l → IdleOutages e.net ∨ (HoldsCome u l e ∧ Spares u c e)

theorem Spares.leaves {e' : Event} (h : Spares u c e) (hl : LeavesOutages e e') : Spares u c e' := fun n o ho =>
  h n o ((congrArg (fun t => (outageNumbered n t).map Prod.snd) hl.records).symm.trans ho)

theorem CallsCome.step {t : List Block} (hw : w ∉ t) (h : CallsCome u c (w :: t) e) :
    CallsCome u c t (Event.secondAt w e) where
  tables := h.tables.secondAt
  image := (secondAt_image w e).trans h.image
  spared hmem := by
    have hwogt : w ≠ .ogt := fun hwo => hw (hwo ▸ hmem)
    rcases h.spared (List.mem_cons_of_mem _ hmem) with hidle | ⟨hcome, hspares⟩
    · exact .inl fun q hq => hidle q ((secondAt_idle hidle hwogt).records ▸ hq)
    · exact .inr ⟨hcome.step hw, hspares.leaves (secondAt_leavesOutages hcome hwogt)⟩

/-- At the Outage Table's turn no outage reaches the call. -/
theorem CallsCome.harmless {t : List Block} (h : CallsCome u c (.ogt :: t) e) : OutagesSpare c e := fun n o ho => by
  rcases h.spared (List.mem_cons_self ..) with hidle | ⟨hcome, hspares⟩
  · intro hstate
    obtain ⟨i, hi, _⟩ := outageOf_mem ho
    rcases hidle _ hi with hother | hother
    · exact absurd (hstate.symm.trans hother) (by decide)
    · exact absurd (hstate.symm.trans hother) (by decide)
  · rw [h.image]
    exact (hspares n o ho).congr hcome.bands

theorem OutagesSpare.congr (h : OutagesSpare c e) (hkind : y.kind = c.kind) (hsect : y.sect = c.sect) :
    OutagesSpare y e := fun n o ho hstate => by
  simpa only [Upgradable, hkind, hsect] using h n o ho hstate

/-- Every block but the Call Register leaves a call that the Outage Table spares. -/
theorem CallIs.secondAt (h : CallIs k y st r e) (htables : e.Tabled) (hwf : e.image.points.wf = true) (hw : w ≠ .clr)
    (hspare : w = .ogt → OutagesSpare y e) : CallIs k y st r (Event.secondAt w e) := by
  cases w with
  | clr => exact absurd rfl hw
  | vlc => exact h.leaves (travelTicks_leavesCalls (ofValve_overdueKind st) _ e)
  | psv => exact h.leaves (staleTicks_leavesCalls (OutageSteps.ofPoint_overdueKind st) _ e)
  | ogt => exact h.outageTick htables hwf (hspare rfl)
  | _ => exact h

theorem mem_secondUsers_clr (hc : lookup k u.net.calls = some c) : Block.clr ∈ secondUsers u.net := by
  have hne : u.net.calls ≠ [] := fun h => by rw [h] at hc; cases hc
  simp [secondUsers, hne]

/-- Does the Outage Table spare a call at the tick? -/
def Spared (u : State) (c : Call) : Prop :=
  IdleOutages u.net ∨ (NoneDue u.net ∧ Spares u c (Event.start u))

theorem start_callIs (h : TablesSound u) (hc : lookup k u.net.calls = some c) (st : Stage) (i : Nat) :
    CallIs k c st [] { Event.start u with choices := i } :=
  ⟨hc, callNumbered_of_lookup h.callNumbers hc, rfl⟩

/-- One turn of the Call Register, whichever order the blocks take. -/
theorem secondEvent_callTurn {Q : Event → Prop} (h : TablesSound u) (hc : lookup k u.net.calls = some c)
    (hspared : Spared u c) (st : Stage)
    (hturn : ∀ e, e.Tabled → e.image = u.cfu.image → CallIs k c st [] e → Q (Event.secondAt .clr e))
    (hkeep : ∀ w e, (∀ (y : Call) r, y.kind = c.kind → y.sect = c.sect → CallIs k y st r e →
      CallIs k y st r (Event.secondAt w e)) → Q e → Q (Event.secondAt w e)) : Q (secondEvent u) := by
  have hturned := secondEvent_induct (u := u)
    (P := fun l e => CallsCome u c l e ∧ (.clr ∈ l → CallIs k c st [] e) ∧ (.clr ∉ l → Q e))
    (fun l i hl => ⟨⟨TablesSound.start h, rfl, fun _ => hspared.imp id fun ⟨hdue, hspares⟩ =>
      ⟨HoldsCome.start h hdue, hspares⟩⟩, fun _ => start_callIs h hc st i,
      fun hmem => absurd (hl.mem_iff.2 (mem_secondUsers_clr hc)) hmem⟩)
    (fun w t e hw ⟨hcome, hbefore, hafter⟩ => by
      have hwf : e.image.points.wf = true := hcome.image ▸ h.points.1
      have hleaves (hwclr : w ≠ .clr) (y : Call) (r : List (Block × Report)) (hkind : y.kind = c.kind)
          (hsect : y.sect = c.sect) (hy : CallIs k y st r e) : CallIs k y st r (Event.secondAt w e) :=
        hy.secondAt hcome.tables hwf hwclr fun hwogt => by
          subst hwogt
          exact hcome.harmless.congr hkind hsect
      refine ⟨hcome.step hw, fun hmem => ?_, fun hmem => ?_⟩
      · exact hleaves (fun hwclr => hw (hwclr ▸ hmem)) c [] rfl rfl (hbefore (List.mem_cons_of_mem _ hmem))
      · by_cases hwclr : w = .clr
        · subst hwclr
          exact hturn e hcome.tables hcome.image (hbefore (List.mem_cons_self ..))
        · exact hkeep w e (hleaves hwclr)
            (hafter fun hcons => hmem ((List.mem_cons.1 hcons).resolve_left (Ne.symm hwclr))))
  exact hturned.2.2 (List.not_mem_nil)

/-- A call with a running stage after the tick. -/
theorem secondEvent_call (h : TablesSound u) (hc : lookup k u.net.calls = some c) (hspared : Spared u c)
    (hstage : stageOf c.state = some st) (hout : c.outage = none) : CallTicked u.cfu.image k c st (secondEvent u) := by
  have hticking : ticking c = true := by simp [ticking, hstage, hout]
  refine secondEvent_callTurn h hc hspared st (fun e htables himage hcall => ?_) fun w e hleaves hticked => ?_
  · exact callTicks_ticked (callsWhere_nodup _ htables.callNumbers)
      ((mem_callsWhere htables.callNumbers hcall.record).2 hticking) himage ⟨hcall, hstage, hout⟩
  · exact hticked.leaves (fun y r _ hkind hsect hy => hleaves y r hkind hsect hy) fun x hx =>
      Event.secondAt_grows (postsClosed x) w e hx

/-- A call whose timing is stopped or that runs no stage. -/
theorem secondEvent_callRests (h : TablesSound u) (hc : lookup k u.net.calls = some c) (hspared : Spared u c)
    (hrests : ticking c = false) : lookup k (secondEvent u).net.calls = some c := by
  have hrests' : CallIs k c .attend [] (secondEvent u) :=
    secondEvent_callTurn h hc hspared .attend (fun e htables _ hcall => hcall.callTicks_other fun hmem =>
      Bool.false_ne_true (hrests.symm.trans ((mem_callsWhere htables.callNumbers hcall.record).1 hmem)))
      fun w e hleaves hcall => hleaves c [] rfl rfl hcall
  exact hrests'.record

end Sys2Proof.Machine
end

section
/-!
The 1 s tick runs the timers (O60): what its event hands to the network blocks, the alarm list and the ports, clause by
clause.
-/

namespace Sys2Proof.Machine

variable {s u : State} {e : Event} {j k n v : Nat} {x : Point} {z : Source} {c : Call} {st : Stage} {o : Outage}
  {m : Image}

/-! ### The end of the tick's event -/

theorem secondTick_net (u : State) : ∃ l, (secondTick u).net = { (secondEvent u).net with plans := l } :=
  event_net (fun e => e.inAnyOrder (secondUsers e.net) Event.secondAt) u

theorem secondTick_valves (u : State) : (secondTick u).net.valves = (secondEvent u).net.valves := event_valves _ u

theorem secondTick_points (u : State) : (secondTick u).net.points = (secondEvent u).net.points := by
  obtain ⟨l, hl⟩ := secondTick_net u
  rw [hl]

theorem secondTick_sources (u : State) : (secondTick u).net.sources = (secondEvent u).net.sources := by
  obtain ⟨l, hl⟩ := secondTick_net u
  rw [hl]

theorem secondTick_calls (u : State) : (secondTick u).net.calls = (secondEvent u).net.calls := by
  obtain ⟨l, hl⟩ := secondTick_net u
  rw [hl]

theorem secondTick_outageAt (n : Nat) (u : State) : outageAt n (secondTick u).net = outageAt n (secondEvent u).net := by
  obtain ⟨l, hl⟩ := secondTick_net u
  rw [hl]
  rfl

theorem secondTick_lines (u : State) :
    (secondTick u).net.pins = u.net.pins ∧ (secondTick u).net.lines = u.net.lines := by
  obtain ⟨l, hl⟩ := secondTick_net u
  rw [hl]
  exact secondEvent_lines u

/-- The notice of a marked outage reaches its subscribers. -/
theorem secondTick_outageNotice {w : OutageMark} (hw : w ∈ (secondEvent u).outages) {p : Post}
    (hp : (Block.ogt, p) ∈ outageNotice (secondEvent u).net w) (hclass : noticeClass p.body = some .outage) :
    Notified .outage p.body u (secondTick u) := fun q hq => by
  refine deliverAll_reaches u.tbu.clock _ u.ports q p ?_ (by simp [entitled, hclass, hq])
  rw [mem_merge]
  exact ⟨.ogt, by
    simp only [eventPosts, List.mem_append, List.mem_flatMap]
    exact .inl (.inl (.inr ⟨w, hw, hp⟩))⟩

theorem secondTick_posted {p : Block × Post} {cl : NoticeClass} (hp : p ∈ (secondEvent u).posts)
    (halso : p.2.also = []) (hclass : noticeClass p.2.body = some cl) : Notified cl p.2.body u (secondTick u) := by
  obtain ⟨b, body, also⟩ := p
  subst halso
  exact finish_notified (secondEvent u) u b body [] cl hclass hp

/-- A notice bears the clock of the event that posts it. -/
theorem Notified.atClock {t : State} {cl : NoticeClass} {b : NoticeBody} (hports : s.ports = u.ports)
    (hclock : s.tbu.clock = u.tbu.clock) (h : Notified cl b u t) : Notified cl b s t := fun q hq => by
  rw [hclock]
  exact h q (hports ▸ hq)

/-! ### Valves (R31) -/

theorem secondTick_valve {y : Valve} (h : TablesSound u) (hy : lookup v u.net.valves = some y) :
    TravelTicked u.cfu.image v y (lookup v (secondTick u).net.valves) := by
  rw [secondTick_valves]
  exact secondEvent_valve h.valves.2 hy

/-! ### Points (R117) -/

theorem tickedPoint_timer (m : Image) (j : Nat) (x : Point) : (tickedPoint m j x).timer = x.timer - 1 := by
  unfold tickedPoint
  split
  · next hstale =>
    have hone : x.timer = 1 := by
      simp only [goesStale, Bool.and_eq_true, beq_iff_eq] at hstale
      exact hstale.1
    rw [hone]
    rfl
  · rfl

/-- A point after the tick: the timer counts, and a point whose timer does not run out keeps its values. -/
theorem secondTick_point (h : TablesSound u) (hx : lookup j u.net.points = some x) :
    ∃ y, lookup j (secondTick u).net.points = some y ∧ y.timer = x.timer - 1
      ∧ (x.timer ≠ 1 → y.value = x.value ∧ y.band = x.band ∧ y.fresh = x.fresh ∧ y.ring = x.ring) := by
  obtain ⟨y, hy, hticked, _⟩ := secondEvent_point h.points.2 hx
  refine ⟨y, (congrArg (lookup j) (secondTick_points u)).trans hy,
    (core_timer hticked.core).trans (tickedPoint_timer ..), fun hone => ?_⟩
  have hcore := hticked.core
  rw [tickedPoint, if_neg (by simp [goesStale, hone])] at hcore
  exact ⟨(congrArg Point.value hcore :), (congrArg Point.band hcore :), (congrArg Point.fresh hcore :),
    (congrArg Point.ring hcore :)⟩

/-- A point that goes stale at the tick: its record, and the reports about its conditions. -/
theorem secondEvent_stale {d : PointDef} (h : TablesSound u) (hx : lookup j u.net.points = some x)
    (hd : lookup j u.cfu.image.points = some d) (hone : x.timer = 1) :
    PointIs j x (fun y => y.core = (staled { x with timer := 0 }).core ∧ ∀ c ∈ pointKinds, listed y c = (c == .stale))
      (secondEvent u) := by
  obtain ⟨y, hy, hticked, hlisting⟩ := secondEvent_point h.points.2 hx
  have hstale : goesStale u.cfu.image j x = true := by simp [goesStale, hone, hd]
  have hcore := hticked.core
  rw [tickedPoint, if_pos hstale] at hcore
  exact ⟨y, hy, ⟨hcore, fun c hc => (hticked.listed hstale c hc).trans (wanted_stale hcore c)⟩, hlisting⟩

/-- A condition of the point whose listed state the tick has changed stands so. -/
theorem secondTick_listed {i : CondKind} {y : Bool} (hsound : AlarmsSound u)
    (hlisting : Listing { kind := i, index := j } (listed x i) y (secondEvent u)) (hne : y ≠ listed x i) :
    Stands (levelReport y { kind := i, index := j }) (secondTick u).alu := by
  obtain ⟨_, hsame⟩ | hlast := hlisting.last
  · exact absurd hsame hne
  · exact event_stands_last hsound rfl hlisting.block hlast

/-! ### Outages (R99, R102) -/

theorem secondTick_outage (h : TablesSound u) (hdue : NoneDue u.net) (ho : outageAt n u.net = some o)
    (hstate : o.state = .recharging) :
    (Waits (o.ticked u.cfu.image u.net) → outageAt n (secondTick u).net = some (o.ticked u.cfu.image u.net))
    ∧ (Confirms (o.ticked u.cfu.image u.net) → o.off ≠ 0 →
      outageAt n (secondTick u).net = some (o.ticked u.cfu.image u.net).relighting
        ∧ Notified .outage (.outageState n (some .relighting) o.off) u (secondTick u))
    ∧ (Confirms (o.ticked u.cfu.image u.net) → o.off = 0 →
      Notified .outage (.outageState n none 0) u (secondTick u)) := by
  have hticked := secondEvent_outage h hdue ho hstate
  rw [secondTick_outageAt]
  refine ⟨fun hw => (hticked.waits hw).record, fun hc hoff => ?_, fun hc hoff => ?_⟩
  · obtain ⟨_, hrecord, hmarks⟩ := hticked.relights hc hoff
    obtain ⟨q, hq, hqo⟩ := Option.map_eq_some_iff.1 hrecord
    refine ⟨hrecord, secondTick_outageNotice (hmarks _ (List.mem_singleton_self _))
      (p := { body := .outageState n (some .relighting) o.off, also := [] }) ?_ rfl⟩
    simp only [outageNotice, hq]
    rw [show q = (q.1, q.2) from rfl, hqo]
    exact List.mem_singleton_self _
  · exact secondTick_outageNotice (hticked.closes hc hoff)
      (p := { body := .outageState n none 0, also := [] }) (List.mem_singleton_self _) rfl

/-! ### Calls (R139, R140) -/

theorem CallExpires.stands {y : Call} {q : ReportKind} {i : Nat} (hsound : AlarmsSound u) (hq : q ≠ .clear)
    (h : CallExpires k y st q i (secondEvent u)) :
    StandsRaised { kind := overdueKind st, index := y.number } (secondTick u).alu := by
  have hstands := event_stands (s := u) (f := fun e => e.inAnyOrder (secondUsers e.net) Event.secondAt) (b := .clr)
    (r := { kind := q, cond := overdueOf st y.number }) hsound h.call.reports
  rwa [Stands, if_neg hq] at hstands

/-- A call that expires at the tick. -/
theorem secondTick_expires {y : Call} {q : ReportKind} {i : Nat} (hq : q ≠ .clear)
    (h : CallExpires k y st q i (secondEvent u)) :
    lookup k (secondTick u).net.calls = some y ∧ Notified .call (.callDeadline y.number st i) u (secondTick u)
      ∧ (AlarmsSound u → StandsRaised { kind := overdueKind st, index := y.number } (secondTick u).alu) := by
  rw [secondTick_calls]
  exact ⟨h.call.record, secondTick_posted h.posted rfl rfl, fun hsound => h.stands hsound hq⟩

theorem runningTick_eq (h : c.elapsed < 4294967295) (st : Stage) :
    c.runningTick st = setRemaining (remaining c st - 1) { c with elapsed := c.elapsed + 1 } st := by
  simp [Call.runningTick, addElapsed, h]

theorem overdueTick_eq (h : c.elapsed < 4294967295) (st : Stage) : c.overdueTick st =
    setRemaining (remaining c st - 1) { c with elapsed := c.elapsed + 1, realarm := c.realarm - 1 } st := by
  simp [Call.overdueTick, addElapsed, h]

theorem outageAt_of_mem {a : Net} {q : Nat × Outage} (h : Table.Numbered Outage.number a.outages) (hq : q ∈ a.outages) :
    outageAt q.2.number a = some q.2 := by
  cases hfound : outageNumbered q.2.number a.outages with
  | none => exact absurd rfl (outageNumbered_none hfound q hq)
  | some p =>
    obtain ⟨hmem, hnumber⟩ := outageNumbered_mem hfound
    obtain rfl := List.inj_on_of_nodup_map h hmem hq hnumber
    simp [outageAt, hfound]

/-- An unconfirmed member that is not confirmed at the tick. -/
theorem waits_of_member {a : Net} {y : Member} (hy : y ∈ o.members) (hnot : y.confirmed = false)
    (hhold : qualifying m a y.sect = true → 2 ≤ y.hold) : Waits (o.ticked m a) := by
  refine ⟨tickMember m a y, List.mem_map_of_mem hy, ?_⟩
  unfold tickMember
  rw [if_neg (by simp [hnot])]
  split
  · next hqualifies =>
    have hlong := hhold hqualifies
    exact decide_eq_false (by omega)
  · exact hnot

/-- The ticks at which the Outage Table does not reach a call. -/
theorem spared_of (h : TablesSound u)
    (hspared : u.net.outages = []
      ∨ (∀ n o, outageAt n u.net = some o → o.state = .declared ∨ o.state = .relighting)
      ∨ (NoneDue u.net ∧ ∀ n o, outageAt n u.net = some o → o.state = .recharging →
          (∃ z ∈ o.members, z.confirmed = false ∧ (qualifying u.cfu.image u.net z.sect = true → 2 ≤ z.hold))
            ∨ (o.off ≠ 0 ∧ (c.kind = .noGas ∨ c.sect ∉ memberSections o)))) : Spared u c := by
  rcases hspared with hnone | hidle | ⟨hdue, hspares⟩
  · exact .inl fun q hq => by rw [hnone] at hq; cases hq
  · exact .inl fun q hq => hidle _ _ (outageAt_of_mem h.outageNumbers hq)
  · refine .inr ⟨hdue, fun n o ho hstate => ?_⟩
    rcases hspares n o ho hstate with ⟨y, hy, hnot, hhold⟩ | ⟨hoff, hsect⟩
    · exact .inl (waits_of_member hy hnot hhold)
    · refine .inr ⟨hoff, fun i hi ⟨hkind, hci⟩ => ?_⟩
      rcases hsect with hnoGas | hsect
      · exact absurd (hkind.symm.trans hnoGas) CallKind.noConfusion
      · exact hsect (hci ▸ hi)

end Sys2Proof.Machine
end

section
/-!
The 1 s tick runs the timers (O60), put together from what it makes of a valve, a point, an outage and a call.
-/

namespace Sys2Proof.Machine

variable {s : State} {j k n : Nat} {x : Point} {c : Call} {st : Stage} {o : Outage}

/-- The state whose timers a tick runs: the clocks have gone on (assumption 10). -/
theorem advanceClocks_tables (h : TablesSound s) : TablesSound (advanceClocks s) := h.congr rfl rfl

theorem oneSecondTick_running (h : Running s) : exec .oneSecondTick s = .next (secondTick (advanceClocks s)) := by
  refine congrArg Host.Outcome.next ((if_neg (by simp [h.1])).trans ?_)
  exact whenRunning_running (s := advanceClocks s) h

theorem oneSecondTick_idle (hreset : s.cfu.inReset = false) (hidle : s.cfu.device ≠ .running) :
    exec .oneSecondTick s = .next { s with tbu := { s.tbu with uptime := s.tbu.uptime + 1 } } := by
  have hclocks : advanceClocks s = { s with tbu := { s.tbu with uptime := s.tbu.uptime + 1 } } := by
    simp [advanceClocks, hidle]
  have hstays : whenRunning secondTick (advanceClocks s) = advanceClocks s :=
    if_neg (by simp [isRunning, advanceClocks, hidle])
  rw [← hclocks, ← hstays]
  exact congrArg Host.Outcome.next (if_neg (by simp [hreset]))

theorem advanceClocks_clock (h : s.cfu.device = .running) : (advanceClocks s).tbu.clock = s.tbu.clock + 1 := if_pos h

/-- A point that goes stale at the tick (R117). -/
theorem secondTick_stale {u : State} {d : PointDef} (h : TablesSound u) (hx : lookup j u.net.points = some x)
    (hd : lookup j u.cfu.image.points = some d) (hone : x.timer = 1) :
    (∃ y, lookup j (secondTick u).net.points = some y ∧ y.timer = 0 ∧ y.fresh = false ∧ y.value = none ∧ y.ring = []
      ∧ y.band = .unset ∧ y.candidate = none ∧ y.agreement = 0 ∧ y.latch = false ∧ y.lastSample = x.lastSample
      ∧ y.lowListed = false ∧ y.lowlowListed = false ∧ y.highListed = false ∧ y.highhighListed = false
      ∧ y.fallListed = false ∧ y.staleListed = true)
    ∧ (AlarmsSound u →
      (x.staleListed = false → StandsRaised { kind := .stale, index := j } (secondTick u).alu)
      ∧ ∀ i, i ∈ [CondKind.lowBand, .lowlowBand, .highBand, .highhighBand, .rateOfFall] → listed x i = true →
        StandsCleared { kind := i, index := j } (secondTick u).alu) := by
  obtain ⟨y, hy, ⟨hcore, hlisted⟩, hlisting⟩ := secondEvent_stale h hx hd hone
  refine ⟨⟨y, (congrArg (lookup j) (secondTick_points u)).trans hy, (congrArg Point.timer hcore :),
    (congrArg Point.fresh hcore :), (congrArg Point.value hcore :), (congrArg Point.ring hcore :),
    (congrArg Point.band hcore :), (congrArg Point.candidate hcore :), (congrArg Point.agreement hcore :),
    (congrArg Point.latch hcore :), (congrArg Point.lastSample hcore :), hlisted .lowBand (by decide),
    hlisted .lowlowBand (by decide), hlisted .highBand (by decide), hlisted .highhighBand (by decide),
    hlisted .rateOfFall (by decide), hlisted .stale (by decide)⟩, fun hsound => ⟨fun hfresh => ?_, fun i hi hwas => ?_⟩⟩
  · have hstale := hlisting .stale (by decide)
    rw [hlisted .stale (by decide)] at hstale
    exact secondTick_listed hsound hstale (by simp [listed, hfresh])
  · have hkind : i ∈ pointKinds := by
      simp only [List.mem_cons, List.not_mem_nil, or_false] at hi
      simp only [pointKinds, List.mem_cons, List.not_mem_nil, or_false]
      tauto
    have hother : (i == .stale) = false := by
      rw [beq_eq_false_iff_ne]
      rintro rfl
      exact absurd hi (by decide)
    have hcleared := hlisting i hkind
    rw [hlisted i hkind, hother] at hcleared
    exact secondTick_listed hsound hcleared (by simp [hwas])

/-- What the tick makes of a call (R139, R140). -/
theorem secondTick_call {u : State} (h : TablesSound u) (hc : lookup k u.net.calls = some c)
    (helapsed : c.elapsed < 4294967295) (hspared : Spared u c) (hout : c.outage = none)
    (hstage : stageOf c.state = some st) :
    let expires (y : Call) : Prop :=
      lookup k (secondTick u).net.calls = some y
        ∧ Notified .call (.callDeadline c.number st (c.elapsed + 1)) u (secondTick u)
        ∧ (AlarmsSound u → StandsRaised { kind := overdueKind st, index := c.number } (secondTick u).alu)
    let c' := { c with elapsed := c.elapsed + 1 }
    (overdue c st = false → 2 ≤ remaining c st →
      lookup k (secondTick u).net.calls = some (setRemaining (remaining c st - 1) c' st))
    ∧ (overdue c st = false → remaining c st = 1 →
      expires { setOverdue true (setRemaining 0 c' st) st with realarm := (paramsOf u.cfu.image).realarm })
    ∧ (overdue c st = true → 2 ≤ c.realarm → lookup k (secondTick u).net.calls
      = some (setRemaining (remaining c st - 1) { c' with realarm := c.realarm - 1 } st))
    ∧ (overdue c st = true → c.realarm = 1 →
      expires (setRemaining (remaining c st - 1) { c' with realarm := (paramsOf u.cfu.image).realarm } st)) := by
  have hticked := secondEvent_call h hc hspared hstage hout
  have hnext : addElapsed c.elapsed = c.elapsed + 1 := by simp [addElapsed, helapsed]
  refine ⟨fun hover hleft => ?_, fun hover hleft => ?_, fun hover hleft => ?_, fun hover hleft => ?_⟩
  · rw [secondTick_calls, (hticked.counts hover hleft).record, runningTick_eq helapsed]
  · have hexpires := secondTick_expires (by decide) (hticked.expires hover hleft)
    rw [runningTick_eq helapsed, hleft, hnext] at hexpires
    cases st <;> exact hexpires
  · rw [secondTick_calls, (hticked.waits hover hleft).record, overdueTick_eq helapsed]
  · have hexpires := secondTick_expires (by decide) (hticked.realarms hover hleft)
    rw [overdueTick_eq helapsed, setRemaining_withRealarm, hnext] at hexpires
    cases st <;> exact hexpires

/-- Settles O60: after the blocks' turns in any order, each timer has lost its second and each expiry is taken. -/
theorem secondTickRunsTheTimers : Obligations.SecondTickRunsTheTimers := by
  intro s htables hreset s'
  by_cases hrun : s.cfu.device = .running
  · set u := advanceClocks s
    have hu : TablesSound u := advanceClocks_tables htables
    have hclock : s'.tbu.clock = u.tbu.clock := (advanceClocks_clock hrun).symm
    obtain ⟨hpins, hlines⟩ := secondTick_lines u
    refine ⟨secondTick u, oneSecondTick_running ⟨hreset, hrun⟩, rfl, rfl, rfl, rfl, hpins, hlines,
      fun hidle => absurd hrun hidle, fun _ => ⟨hclock.symm, fun v y hy => ?_, fun j x hx => secondTick_point hu hx,
        fun hdue n o ho hstate => ?_, fun j x d hx hd hone => ?_, fun k c hc helapsed hspared => ?_⟩⟩
    · obtain ⟨hruns, hexpires, hrests⟩ := secondTick_valve (v := v) hu hy
      exact ⟨hruns, hexpires, hrests⟩
    · obtain ⟨hwaits, hrelights, hcloses⟩ := secondTick_outage hu hdue ho hstate
      refine ⟨hwaits, fun hall hoff => ?_, fun hall hoff => (hcloses hall hoff).atClock (u := u) rfl hclock⟩
      obtain ⟨hrecord, hnotified⟩ := hrelights hall hoff
      exact ⟨hrecord, hnotified.atClock (u := u) rfl hclock⟩
    · obtain ⟨hrecord, halarms⟩ := secondTick_stale hu hx hd hone
      refine ⟨hrecord, halarms, fun k z hlow hout hz => ?_⟩
      rw [secondTick_sources, secondEvent_source hu.points.2 hu.sources.1 hx hd hone hlow hout]
      exact congrArg (Option.map Source.outletEnds) hz
    · have hspares : Spared u c := spared_of hu hspared
      refine ⟨fun hrests => ?_, fun st hout hstage => ?_⟩
      · rw [secondTick_calls]
        refine secondEvent_callRests hu hc hspares ?_
        rcases hrests with hlinked | hnoStage
        · obtain ⟨i, hi⟩ := Option.ne_none_iff_exists'.1 hlinked
          simp [ticking, hi]
        · simp [ticking, hnoStage]
      · obtain ⟨hcounts, hexpires, hwaits, hrealarms⟩ := secondTick_call hu hc helapsed hspares hout hstage
        refine ⟨hcounts, fun hover hleft => ?_, hwaits, fun hover hleft => ?_⟩
        · obtain ⟨hrecord, hnotified, hraised⟩ := hexpires hover hleft
          exact ⟨hrecord, hnotified.atClock (u := u) rfl hclock, hraised⟩
        · obtain ⟨hrecord, hnotified, hraised⟩ := hrealarms hover hleft
          exact ⟨hrecord, hnotified.atClock (u := u) rfl hclock, hraised⟩
  · exact ⟨_, oneSecondTick_idle hreset hrun, rfl, rfl, rfl, rfl, rfl, rfl, fun _ => rfl,
      fun h => absurd h hrun⟩

end Sys2Proof.Machine
end

section
/-!
A property of the network blocks that every block's writes keep is kept by every command, resets, commits, transfers and
the completions of the Walk Engine apart.
-/

namespace Sys2Proof.Machine

variable {P : Net → Prop} {s t : State}

theorem NetClosed.acts (hc : NetClosed P) {a : Answer} (h : Acts P s a) (hs : P s.net) : P a.1.net := by
  cases h with
  | keeps st body => exact hs
  | event w e st body he => exact writeReasons_keeps hc.plan _ _ he

theorem NetClosed.request (hc : NetClosed P) {c : ReqClass} {p : PortId} {tag : Byte} {act : State → Answer}
    (hact : Acts P (renew p s) (act (renew p s))) (hs : P s.net) : P (Machine.request c p tag act s).net :=
  request_net_keeps (hc.acts hact hs) hs

/-- An event of a part in RUNNING. -/
theorem NetClosed.whenRunning (hc : NetClosed P) {f : Event → Event} (hf : ∀ e, P e.net → P (f e).net) (hs : P s.net) :
    P (whenRunning (event f) s).net :=
  whenRunning_keeps (Q := fun u => P u.net) (fun u hu => event_net_keeps hc.plan f u (hf (Event.start u) hu)) hs

/-- A crew's request moves its valve, or changes nothing. -/
theorem NetClosed.crew (hc : NetClosed P) {c : ReqClass} {p : PortId} {tag : Byte} {v : Nat}
    {act : Valve → Option (Event → Event)}
    (hact : ∀ x f, act x = some f → ∃ pos k o, pos ≠ .closing ∧ f = fun e => e.moveValve v pos k o) (hs : P s.net) :
    P (Machine.request c p tag (actCrew p v act) s).net := by
  refine hc.request (actCrew_acts fun x f hf => ?_) hs
  obtain ⟨pos, k, o, _, rfl⟩ := hact x f hf
  exact Event.moveValve_keeps hc.valve v pos k o _ hs

/-- A trial that is asked for joins the queue, and its plan changes. -/
theorem NetClosed.askedTrial (hc : NetClosed P) {trial : TrialEntry} {slot : Nat} {f : Plan → Plan} {n n' : Net}
    (hn : P n) (hq : queueTrial trial n = some n') : P { n' with plans := adjust slot f n'.plans } :=
  hc.plan.plans n' _ (hc.queue trial n n' hq hn)

theorem NetClosed.assessPlan (hc : NetClosed P) {slot : Nat} {x : Plan} (hs : P s.net) :
    Acts P s (assessPlan slot x s) := assessPlan_acts fun _ _ _ hq => hc.askedTrial hs hq

theorem NetClosed.declarePlan (hc : NetClosed P) {slot : Nat} {accepted : Byte} {x : Plan} (hs : P s.net) :
    Acts P s (declarePlan slot accepted x s) :=
  have hplan := hc.plan
  have hpoint := hc.point
  have hstart : P (Event.start s).net := hs
  declarePlan_acts
    (fun _ _ => declareNew_acts fun _ _ _ _ => Event.plan_keeps hplan _ _ _ _ _
      (Event.ruleDeclared_keeps hpoint _ _ (Event.createOutage_keeps hc.outage _ _ _ _ _ _ hstart)))
    (fun _ _ _ => declareMore_acts (fun _ => Event.planQuietly_keeps hplan _ _ _ hstart) fun _ _ =>
      Event.planQuietly_keeps hplan _ _ _
        (Event.ruleDeclared_keeps hpoint _ _ (Event.joins_keeps hpoint _ _ _ hstart)))

theorem NetClosed.actTrial (hc : NetClosed P) (p : PortId) (body : List Byte) (hs : P s.net) :
    P (actTrial p body s).1.net := by
  unfold Machine.actTrial
  split
  · exact hs
  · split
    · exact hs
    · split
      · exact hs
      · split
        · exact hs
        · split
          · exact hs
          · next n hn => exact hc.queue _ _ n hn hs

theorem NetClosed.actSetLimits (hc : NetClosed P) (n ll l hi hh deadband k : Nat) (hs : P s.net) :
    P (actSetLimits n ll l hi hh deadband k s).1.net := by
  unfold Machine.actSetLimits
  split
  · exact hs
  · split
    · exact hs
    · exact hc.sample.points s.net _ hs

theorem samples_keeps (hc : SampleClosed P) (l : List Sample) (e : Event) (h : P e.net) :
    P (Event.samples l e).1.net := by
  induction l generalizing e with
  | nil => exact h
  | cons x t ih => exact ih _ (Event.sample_keeps hc x e h)

/-- The completions of the Walk Engine. -/
def completes : Instr → Bool
  | .liveWalkCompletes | .trialCompletes => true
  | _ => false

/-- Every command that neither replaces the network blocks nor completes a walk or trial keeps what all blocks keep. -/
theorem exec_keeps_closed (i : Instr) (hc : NetClosed P) (hpins : ∀ n x, P n → P { n with pins := x }) (hs : P s.net)
    (hnet : replacesNet i = false) (hends : completes i = false) : ∃ t, exec i s = .next t ∧ P t.net := by
  have hplan := hc.plan
  have hvalve := hc.valve
  have hcall := hc.call
  have houtage := hc.outage
  have hstart {p : PortId} : P (Event.start (renew p s)).net := hs
  cases i
  case powerOnReset | lineReset | commitConfig | transfer => simp [replacesNet] at hnet
  case liveWalkCompletes | trialCompletes => simp [completes] at hends
  case leaveReset =>
    refine ⟨_, rfl, ?_⟩
    unfold leaveReset
    split <;> exact hs
  case beginConfig p tag => exact ⟨_, rfl, request_net_keeps ((congrArg P (actBeginConfig_net p _)).mpr hs) hs⟩
  case loadRecords p tag body => exact ⟨_, rfl, request_net_keeps ((congrArg P (actLoadRecords_net body _)).mpr hs) hs⟩
  case abandonConfig => exact ⟨_, rfl, request_net_keeps ((congrArg P (actAbandonConfig_net _)).mpr hs) hs⟩
  case setClock | readNotices | lampTest => exact ⟨_, rfl, request_net_keeps hs hs⟩
  case setLimits => exact ⟨_, rfl, request_net_keeps (hc.actSetLimits (s := renew _ s) _ _ _ _ _ _ _ hs) hs⟩
  case trial p tag body => exact ⟨_, rfl, request_net_keeps (hc.actTrial (s := renew p s) p body hs) hs⟩
  case null | readIdentity | readStatus | readTrial | readPorts | readLines | readLamps | readAlarms | readWithheld =>
    exact ⟨_, rfl, hc.request readOk_acts hs⟩
  case readDefinition => exact ⟨_, rfl, hc.request actReadDefinition_acts hs⟩
  case readSection | readValve | readSource | readPoint | readPlan | readOutage | readCall =>
    exact ⟨_, rfl, hc.request readObject_acts hs⟩
  case confirmClosed => exact ⟨_, rfl, hc.crew (fun _ _ => confirmClosedIn_moves) hs⟩
  case confirmOpen => exact ⟨_, rfl, hc.crew (fun _ _ => confirmOpenIn_moves) hs⟩
  case reportInoperable => exact ⟨_, rfl, hc.crew (fun _ _ => inoperableIn_moves) hs⟩
  case verifyPosition =>
    exact ⟨_, rfl, hc.request (actVerify_acts fun _ => Event.verify_keeps hvalve _ _ _ hstart) hs⟩
  case planCreate => exact ⟨_, rfl, hc.request (actPlanCreate_acts fun _ _ _ => hplan.plans _ _ hs) hs⟩
  case planAddValve =>
    exact ⟨_, rfl, hc.request (actPlan_acts fun _ => addValve_acts fun _ =>
      Event.editPlan_keeps hplan _ _ _ _ (Event.claim_keeps hvalve _ _ _ hstart)) hs⟩
  case planRemoveValve =>
    exact ⟨_, rfl, hc.request (actPlan_acts fun _ => removeValve_acts fun _ =>
      Event.editPlan_keeps hplan _ _ _ _ (Event.claim_keeps hvalve _ _ _ hstart)) hs⟩
  case planAssess => exact ⟨_, rfl, hc.request (actPlan_acts fun _ => hc.assessPlan (s := renew _ s) hs) hs⟩
  case planExecute =>
    exact ⟨_, rfl, hc.request (actPlan_acts fun _ => askTrial_acts fun _ _ hq => hc.askedTrial hs hq) hs⟩
  case planDeclareOutage =>
    exact ⟨_, rfl, hc.request (actPlan_acts fun _ => hc.declarePlan (s := renew _ s) hs) hs⟩
  case planAbort =>
    exact ⟨_, rfl, hc.request (actPlan_acts fun _ => planTaken_acts (Event.abortPlan_keeps hvalve _ _ _ hstart)) hs⟩
  case planRetry | planRestore =>
    exact ⟨_, rfl, hc.request (actPlan_acts fun _ => planTaken_acts (Event.setOut_keeps hvalve _ _ _ _ hstart)) hs⟩
  case planRelease =>
    exact ⟨_, rfl, hc.request (actPlan_acts fun _ =>
      releasePlan_acts (Event.releasePlan_keeps hc.user _ _ _ hstart)) hs⟩
  case planTakeOver =>
    exact ⟨_, rfl, hc.request (actTakeOver_acts fun _ => Event.takeOver_keeps hplan _ _ _ _ hstart) hs⟩
  case sourceOut | sourceIn =>
    exact ⟨_, rfl, hc.request (actSourceService_acts (Event.source_keeps hc.source _ _ _ hstart)) hs⟩
  case outageConfirmSection =>
    exact ⟨_, rfl, hc.request (actConfirmSection_acts (Event.confirmSection_keeps houtage _ _ _ hstart)) hs⟩
  case outageRelit | outageNoAccess =>
    exact ⟨_, rfl, hc.request (actPremises_acts fun _ => Event.countPremises_keeps houtage _ _ _ _ _ hstart) hs⟩
  case callNew =>
    exact ⟨_, rfl, hc.request (actCallNew_acts fun _ _ _ _ => Event.newCall_keeps hcall _ _ _ hstart) hs⟩
  case callAssign =>
    exact ⟨_, rfl, hc.request (actCall_acts fun _ => assignCall_acts hs (Event.call_keeps hcall _ _ _ hstart)) hs⟩
  case callArrived | callMadeSafe =>
    exact ⟨_, rfl, hc.request (actCall_acts fun _ => taken_acts
      (Event.call_keeps hcall _ _ _ (Event.clearOverdue_keeps _ _ hstart))) hs⟩
  case callClose | callCancel =>
    exact ⟨_, rfl, hc.request (actCall_acts fun _ => endCall_acts (Event.freeCall_keeps hcall _ _ _ _ hstart)) hs⟩
  case callRegrade =>
    exact ⟨_, rfl, hc.request (actCall_acts fun _ => regradeCall_acts (Event.regrade_keeps hcall _ _ _ _ hstart)) hs⟩
  case sampleBatch =>
    exact ⟨_, rfl, hc.request (actSampleBatch_acts fun _ => samples_keeps hc.sample _ _ hstart) hs⟩
  case alarmAck => exact ⟨_, rfl, hc.request (actAlarmAck_acts hs) hs⟩
  case hornSilence => exact ⟨_, rfl, hc.request (listEvent_acts hs) hs⟩
  case scanTick pins =>
    exact ⟨_, rfl, whenRunning_keeps (Q := fun u => P u.net)
      (fun u hu => event_net_keeps hplan _ (scanCounters u) (Event.scan_keeps hc _ _ hu)) (hpins _ _ hs)⟩
  case oneSecondTick =>
    refine ⟨_, rfl, ?_⟩
    split
    · exact hs
    · exact whenRunning_keeps (Q := fun u => P u.net) (fun u hu => event_net_keeps hplan _ u
        (Event.inAnyOrder_keeps (fun b e he => Event.secondAt_keeps hc.user b e he) _ _ hu)) hs
  case lineChange => exact ⟨_, rfl, hc.whenRunning (Event.lineChangeIfDue_keeps hc _) hs⟩
  case travelTimerExpiry => exact ⟨_, rfl, hc.whenRunning (Event.travelExpiry_keeps hvalve _) hs⟩
  case rechargeHoldExpiry => exact ⟨_, rfl, hc.whenRunning (Event.holdIfDue_keeps houtage _ _) hs⟩
  case stalenessExpiry => exact ⟨_, rfl, hc.whenRunning (Event.staleIfDue_keeps hc.sample _) hs⟩
  case deadlineExpiry => exact ⟨_, rfl, hc.whenRunning (Event.expireIfDue_keeps hcall _) hs⟩
  case realarmExpiry => exact ⟨_, rfl, hc.whenRunning (Event.realarmIfDue_keeps hcall _) hs⟩
  case stepTick | cadencePartEnd | mimicRowScan =>
    exact ⟨_, rfl, whenRunning_keeps (Q := fun u => P u.net) (fun _ h => h) hs⟩
  case lampTestEnd => exact ⟨_, rfl, hs⟩

end Sys2Proof.Machine
end

section
/-!
The walk engine (O26). Change reports and trial requests keep the engine sound; what a completion needs beside is that
the engine stays busy until the arbiter has it (R42 to R44, R53, R54).
-/

namespace Sys2Proof.Machine

variable {s t : State} {n n' : Net}

/-! ### Starts and requests -/

theorem startTrial_cons {x : TrialEntry} {rest : List TrialEntry} (h : n.trials = x :: rest) :
    startTrial n = { n with engine := .trial (snapshotOf intended n) x.requester (closureOf n x), trials := rest } := by
  unfold startTrial
  split
  · next hnil => simp [h] at hnil
  · next y u hcons =>
    obtain ⟨rfl, rfl⟩ := List.cons.inj (hcons.symm.trans h)
    rfl

theorem countChange_idle (h : n.engine = .idle) :
    countChange n = startWalk { n with topology := n.topology + 1, walkPending := true } := if_pos h

theorem countChange_busy (h : n.engine ≠ .idle) :
    countChange n = { n with topology := n.topology + 1, walkPending := true } := if_neg h

theorem queueTrial_full {x : TrialEntry} (h : 8 ≤ n.trials.length) : queueTrial x n = none := if_pos h

theorem queueTrial_busy {x : TrialEntry} (h : n.trials.length < 8) (hbusy : n.engine ≠ .idle) :
    queueTrial x n = some { n with trials := n.trials ++ [x] } :=
  (if_neg (Nat.not_le.2 h)).trans (congrArg some (if_neg hbusy))

theorem queueTrial_idle {x : TrialEntry} (h : n.trials.length < 8) (hidle : n.engine = .idle) :
    queueTrial x n = some (startTrial { n with trials := n.trials ++ [x] }) :=
  (if_neg (Nat.not_le.2 h)).trans (congrArg some (if_pos hidle))

/-- An idle engine that nobody waits for starts a trial at once (R53, R54). -/
theorem queueTrial_starts {x : TrialEntry} (hidle : n.engine = .idle) (hnone : n.trials = []) :
    queueTrial x n = some { n with engine := .trial (snapshotOf intended n) x.requester (closureOf n x) } := by
  rw [queueTrial_idle (by simp [hnone]) hidle, startTrial_cons (x := x) (rest := []) (by simp [hnone])]
  simp [hnone, snapshotOf, liveSources, closureOf]

/-! ### The arbiter (R54) -/

theorem grantAfterWalk_trial {x : TrialEntry} {rest : List TrialEntry} (h : n.trials = x :: rest) :
    grantAfterWalk n =
      { n with engine := .trial (snapshotOf intended n) x.requester (closureOf n x), trials := rest } :=
  (if_neg (by simp [h])).trans (startTrial_cons (n := { n with engine := .idle }) h)

theorem grantAfterWalk_walk (h : n.trials = []) (hpending : n.walkPending = true) :
    grantAfterWalk n = startWalk { n with engine := .idle } := (if_pos h).trans (if_pos hpending)

theorem grantAfterWalk_idle (h : n.trials = []) (hpending : n.walkPending = false) :
    grantAfterWalk n = { n with engine := .idle } := (if_pos h).trans (if_neg (by simp [hpending]))

theorem grantAfterTrial_walk (hpending : n.walkPending = true) :
    grantAfterTrial n = startWalk { n with engine := .idle } := if_pos hpending

theorem grantAfterTrial_trial {x : TrialEntry} {rest : List TrialEntry} (h : n.trials = x :: rest)
    (hpending : n.walkPending = false) :
    grantAfterTrial n =
      { n with engine := .trial (snapshotOf intended n) x.requester (closureOf n x), trials := rest } :=
  (if_neg (by simp [hpending])).trans
    ((if_neg (by simp [h])).trans (startTrial_cons (n := { n with engine := .idle }) h))

theorem grantAfterTrial_idle (h : n.trials = []) (hpending : n.walkPending = false) :
    grantAfterTrial n = { n with engine := .idle } :=
  (if_neg (by simp [hpending])).trans (if_pos h)

/-- Settles O25: each clause is the arbiter's equation for its case. -/
theorem arbiterGrantsByTheTable : Obligations.ArbiterGrantsByTheTable := by
  intro n
  refine ⟨fun x rest h => ?_, fun h hpending => ?_, fun hpending => ?_, fun x rest h hpending => ?_,
    fun h hpending => ?_, fun hidle => ?_, fun hbusy => ?_⟩
  · rw [grantAfterWalk_trial h]
    exact ⟨rfl, rfl, rfl⟩
  · rw [grantAfterWalk_walk h hpending]
    exact ⟨rfl, rfl⟩
  · rw [grantAfterTrial_walk hpending]
    exact ⟨rfl, rfl, rfl⟩
  · rw [grantAfterTrial_trial h hpending]
    exact ⟨rfl, rfl, hpending⟩
  · rw [grantAfterWalk_idle h hpending, grantAfterTrial_idle h hpending]
    exact ⟨rfl, rfl⟩
  · rw [countChange_idle hidle]
    exact ⟨rfl, rfl, fun x hnone => queueTrial_starts hidle hnone⟩
  · rw [countChange_busy hbusy]
    exact ⟨rfl, rfl, fun x hlen => queueTrial_busy hlen hbusy⟩

/-! ### What the engine keeps -/

theorem countChange_sound (h : n.EngineSound) : (countChange n).EngineSound := by
  obtain ⟨hlen, hengine⟩ := h
  by_cases hidle : n.engine = .idle
  · rw [countChange_idle hidle]
    exact ⟨hlen, fun _ => rfl⟩
  · rw [countChange_busy hidle]
    refine ⟨hlen, ?_⟩
    cases he : n.engine with
    | idle => exact absurd he hidle
    | walking x => exact fun hpending => nomatch hpending
    | trial x who closure => exact fun hpending => nomatch hpending

theorem queueTrial_lt {x : TrialEntry} (h : queueTrial x n = some n') : n.trials.length < 8 := by
  by_contra hfull
  rw [queueTrial_full (by omega)] at h
  cases h

theorem queueTrial_sound {x : TrialEntry} (hq : queueTrial x n = some n') (h : n.EngineSound) : n'.EngineSound := by
  have hlt := queueTrial_lt hq
  obtain ⟨hlen, hengine⟩ := h
  by_cases hidle : n.engine = .idle
  · rw [hidle] at hengine
    obtain ⟨hpending, hnone, hequal⟩ := hengine
    rw [queueTrial_starts hidle hnone] at hq
    obtain rfl := Option.some.inj hq
    exact ⟨hlen, fun _ => hequal.symm⟩
  · rw [queueTrial_busy hlt hidle] at hq
    obtain rfl := Option.some.inj hq
    refine ⟨by simpa using hlt, ?_⟩
    cases he : n.engine with
    | idle => exact absurd he hidle
    | walking y => simpa [he] using hengine
    | trial y who closure => simpa [he] using hengine

theorem engineSound_closed : NetClosed Net.EngineSound where
  plans _ _ h := h
  sources _ _ h := h
  change _ h := countChange_sound h
  valves _ _ h := h
  outputs _ _ h := h
  moved _ h := countChange_sound h
  calls _ _ h := h
  lastCall _ _ h := h
  sections _ _ _ _ h := h
  outages _ _ h := h
  flags _ _ _ _ h := h
  lastOutage _ _ h := h
  points _ _ h := h
  lines _ _ h := h
  queue _ _ _ hq h := queueTrial_sound hq h

/-! ### Completions -/

/-- A walk whose result is published, before the arbiter has the engine. -/
def Net.WalkPublished (x : Snapshot) (n : Net) : Prop :=
  n.trials.length ≤ 8 ∧ n.supply = x.revision ∧ (n.walkPending = false → x.revision = n.topology)

/-- A trial that has the engine: published states are those of the topology, or a walk is pending. -/
def Net.TrialRuns (n : Net) : Prop :=
  n.engine ≠ .idle ∧ n.trials.length ≤ 8 ∧ (n.walkPending = false → n.supply = n.topology)

theorem walkPublished_closed (x : Snapshot) : OutageClosed (Net.WalkPublished x) where
  plans _ _ h := h
  calls _ _ h := h
  lastCall _ _ h := h
  sections _ _ _ _ h := h
  outages _ _ h := h
  flags _ _ _ _ h := h
  lastOutage _ _ h := h

theorem countChange_trialRuns (h : n.TrialRuns) : (countChange n).TrialRuns := by
  obtain ⟨hbusy, hlen, _⟩ := h
  rw [countChange_busy hbusy]
  exact ⟨hbusy, hlen, fun hpending => nomatch hpending⟩

theorem queueTrial_trialRuns {x : TrialEntry} (hq : queueTrial x n = some n') (h : n.TrialRuns) : n'.TrialRuns := by
  have hlt := queueTrial_lt hq
  obtain ⟨hbusy, hlen, hsupply⟩ := h
  rw [queueTrial_busy hlt hbusy] at hq
  obtain rfl := Option.some.inj hq
  exact ⟨hbusy, by simpa using hlt, hsupply⟩

theorem trialRuns_closed : NetClosed Net.TrialRuns where
  plans _ _ h := h
  sources _ _ h := h
  change _ h := countChange_trialRuns h
  valves _ _ h := h
  outputs _ _ h := h
  moved _ h := countChange_trialRuns h
  calls _ _ h := h
  lastCall _ _ h := h
  sections _ _ _ _ h := h
  outages _ _ h := h
  flags _ _ _ _ h := h
  lastOutage _ _ h := h
  points _ _ h := h
  lines _ _ h := h
  queue _ _ _ hq h := queueTrial_trialRuns hq h

theorem trialRuns_of_sound {x : Snapshot} {who : Requester} {closure : List Nat} (h : n.EngineSound)
    (he : n.engine = .trial x who closure) : n.TrialRuns := by
  obtain ⟨hlen, hengine⟩ := h
  rw [he] at hengine
  exact ⟨by simp [he], hlen, hengine⟩

/-- The arbiter frees the engine after a walk, or starts what waits. -/
theorem grantAfterWalk_sound {x : Snapshot} (h : n.WalkPublished x) : (grantAfterWalk n).EngineSound := by
  obtain ⟨hlen, hsupply, hrevision⟩ := h
  cases htrials : n.trials with
  | nil =>
    cases hpending : n.walkPending with
    | true =>
      rw [grantAfterWalk_walk htrials hpending]
      exact ⟨hlen, fun _ => rfl⟩
    | false =>
      rw [grantAfterWalk_idle htrials hpending]
      exact ⟨hlen, hpending, htrials, ((hrevision hpending).symm.trans hsupply.symm)⟩
  | cons y rest =>
    rw [grantAfterWalk_trial htrials]
    rw [htrials] at hlen
    exact ⟨Nat.le_of_succ_le hlen, fun hpending => hsupply.trans (hrevision hpending)⟩

/-- The arbiter frees the engine after a trial, or starts what waits. -/
theorem grantAfterTrial_sound (h : n.TrialRuns) : (grantAfterTrial n).EngineSound := by
  obtain ⟨_, hlen, hsupply⟩ := h
  cases hpending : n.walkPending with
  | true =>
    rw [grantAfterTrial_walk hpending]
    exact ⟨hlen, fun _ => rfl⟩
  | false =>
    cases htrials : n.trials with
    | nil =>
      rw [grantAfterTrial_idle htrials hpending]
      exact ⟨hlen, hpending, htrials, (hsupply hpending).symm⟩
    | cons y rest =>
      rw [grantAfterTrial_trial htrials hpending]
      rw [htrials] at hlen
      exact ⟨Nat.le_of_succ_le hlen, fun _ => hsupply hpending⟩

/-- A publication writes the sections and the supply revision, and posts what changed; the Outage Table does
the rest. -/
theorem publish_keeps {P : Net → Prop} (hc : OutageClosed P) (x : Snapshot) (e : Event)
    (h : P { e.net with sections := publishAll e.image x e.net.outages e.net.sections, supply := x.revision }) :
    P (e.publish x).net := by
  unfold Event.publish
  dsimp only
  split
  · exact Event.takePublication_keeps hc _ _ _ h
  · exact Event.takePublication_keeps hc _ _ _ h

theorem grant_net (f : Net → Net) (e : Event) : (e.grant f).net = f e.net := rfl

theorem completeWalk_engine (h : s.net.EngineSound) : (completeWalk s).net.EngineSound := by
  unfold completeWalk
  split
  · next x hwalk =>
    obtain ⟨hlen, hengine⟩ := h
    rw [hwalk] at hengine
    have hpublished : ((Event.start s).publish x).net.WalkPublished x :=
      publish_keeps (walkPublished_closed x) x _ ⟨hlen, rfl, hengine⟩
    have hgranted : (((Event.start s).publish x).grant grantAfterWalk).net.EngineSound := by
      rw [grant_net]
      exact grantAfterWalk_sound hpublished
    exact event_net_keeps (P := Net.EngineSound) engineSound_closed.plan
      (fun e => (e.publish x).grant grantAfterWalk) s hgranted
  · exact h
  · exact h

/-- Hand-over and grant may come in either order (assumption 5). -/
theorem trialEnds_engine {r : Consequence} {c : Word} {who : Requester} {e : Event} (h : e.net.TrialRuns) :
    (e.trialEnds r c who).net.EngineSound := by
  unfold Event.trialEnds
  dsimp only
  split
  · exact grantAfterTrial_sound (Event.handOver_keeps trialRuns_closed r c who _ h)
  · exact Event.handOver_keeps engineSound_closed r c who _ (grantAfterTrial_sound h)

theorem fillBuffer_onlyPorts (r : Consequence) (c : Word) (who : Requester) (s : State) :
    OnlyPorts s (fillBuffer r c who s) := by
  cases who with
  | plan slot => exact .refl s
  | port p => exact (OnlyPorts.refl s).setPort p (fun x => { x with buffer := .ready r c })

theorem completeTrial_engine (h : s.net.EngineSound) : (completeTrial s).net.EngineSound := by
  unfold completeTrial
  split
  · next x who closure htrial =>
    have hnet := (fillBuffer_onlyPorts (trialResult s.cfu.image x closure) s.net.topology who s).net
    refine event_net_keeps engineSound_closed.plan (fun e => e.trialEnds _ _ who) _ (trialEnds_engine ?_)
    exact (congrArg Net.TrialRuns hnet).mpr (trialRuns_of_sound h htrial)
  · exact h
  · exact h

/-! ### Every command -/

theorem raiseList_net (l : List CondId) (e : Event) : (Event.raiseList l e).net = e.net := by
  induction l generalizing e with
  | nil => rfl
  | cons c l ih => exact ih _

/-- At commit the first walk starts over what is seeded (R189). -/
theorem commit_engine (m : Image) (s : State) : (commit m s).net.EngineSound := by
  refine event_net_keeps engineSound_closed.plan
    (fun e => (Event.raiseList (initialConditions m (committed m s).net) e).grant startWalk) (committed m s) ?_
  show (startWalk (Event.raiseList _ (Event.start (committed m s))).net).EngineSound
  rw [raiseList_net]
  exact ⟨Nat.zero_le 8, fun _ => rfl⟩

theorem actCommitConfig_engine (x : Half) (h : s.net.EngineSound) : (actCommitConfig x s).1.net.EngineSound := by
  unfold actCommitConfig
  split
  · exact h
  · split
    · exact h
    · split
      · exact h
      · exact commit_engine _ s

theorem net_reset_engine (pins : BitVec 64) : Net.EngineSound { Net.reset with pins := pins } :=
  ⟨Nat.zero_le 8, rfl, rfl, rfl⟩

/-- A command that is not a transfer keeps the engine sound. -/
theorem exec_engine {i : Instr} (h : s.net.EngineSound) (hnot : ∀ p bits, i ≠ .transfer p bits)
    (he : exec i s = .next t) : t.net.EngineSound := by
  by_cases hother : replacesNet i = false ∧ completes i = false
  · obtain ⟨u, hu, hkept⟩ := exec_keeps_closed i engineSound_closed (fun _ _ h => h) h hother.1 hother.2
    rw [hu] at he
    cases he
    exact hkept
  · cases i
    case powerOnReset | lineReset =>
      cases he
      exact net_reset_engine _
    case commitConfig p tag x =>
      cases he
      exact request_net_keeps (actCommitConfig_engine (s := renew p s) x h) h
    case liveWalkCompletes =>
      cases he
      exact whenRunning_keeps (Q := fun u => u.net.EngineSound) (fun _ => completeWalk_engine) h
    case trialCompletes =>
      cases he
      exact whenRunning_keeps (Q := fun u => u.net.EngineSound) (fun _ => completeTrial_engine) h
    case transfer p bits => exact absurd rfl (hnot p bits)
    all_goals exact absurd ⟨rfl, rfl⟩ hother

theorem exec_keeps_engine {i : Instr} (h : s.net.EngineSound) (he : exec i s = .next t) : t.net.EngineSound := by
  by_cases htransfer : ∃ p bits, i = .transfer p bits
  · obtain ⟨p, bits, rfl⟩ := htransfer
    cases he
    rcases transfer_cases p bits s with hports | ⟨c, _, hc, hec⟩
    · exact hports.net ▸ h
    · have hshift := shiftOut_onlyPorts p bits.length s
      exact exec_engine (hshift.net ▸ h) (by rintro q b rfl; cases hc) hec
  · push Not at htransfer
    exact exec_engine h htransfer he

/-- Settles O26: the engine is idle and owes nothing at reset, and every step keeps it sound. -/
theorem engineStaysSound : Obligations.EngineStaysSound := by
  refine ⟨net_reset_engine 0, fun s t h he => ?_⟩
  unfold step at he
  split at he
  · cases he
    exact h
  · next i rest _ => exact exec_keeps_engine (s := { s with pending := rest }) h he

end Sys2Proof.Machine
end

section
/-!
Classification (O22) and the result of a trial (O23). A pass over the edges that adds a section brings an edge inside
the set; so after as many passes as there are edges the set is closed, and it is the least closed set (R45).
-/

namespace Sys2Proof.Machine

variable {edges : List (Nat × Nat)} {l : List Nat} {m : Image} {flows : Table Flow}

/-! ### One pass -/

/-- Every edge of a list has both its ends in a set of sections, or neither. -/
def ClosedUnder (edges : List (Nat × Nat)) (l : List Nat) : Prop := ∀ a b, (a, b) ∈ edges → (a ∈ l ↔ b ∈ l)

/-- What one edge adds to a set of sections. -/
def reachEdge (x : Nat × Nat) (l : List Nat) : List Nat :=
  if x.1 ∈ l ∧ x.2 ∉ l then x.2 :: l else if x.2 ∈ l ∧ x.1 ∉ l then x.1 :: l else l

theorem reachOnce_cons (x : Nat × Nat) (t : List (Nat × Nat)) (l : List Nat) :
    reachOnce (x :: t) l = reachOnce t (reachEdge x l) := rfl

theorem mem_reachEdge (x : Nat × Nat) (l : List Nat) (k : Nat) :
    k ∈ reachEdge x l ↔ k ∈ l ∨ (k = x.2 ∧ x.1 ∈ l) ∨ (k = x.1 ∧ x.2 ∈ l) := by
  unfold reachEdge
  by_cases ha : x.1 ∈ l <;> by_cases hb : x.2 ∈ l <;> simp [ha, hb]
  · rintro (rfl | rfl) <;> assumption
  · tauto
  · tauto

theorem subset_reachOnce (edges : List (Nat × Nat)) (l : List Nat) : l ⊆ reachOnce edges l := by
  induction edges generalizing l with
  | nil => exact fun _ h => h
  | cons x t ih => exact fun k hk => ih _ ((mem_reachEdge x l k).2 (.inl hk))

/-- An edge with an end in the set has both ends in it after the pass. -/
theorem reachOnce_edge {a b : Nat} (he : (a, b) ∈ edges) (h : a ∈ l ∨ b ∈ l) :
    a ∈ reachOnce edges l ∧ b ∈ reachOnce edges l := by
  induction edges generalizing l with
  | nil => simp at he
  | cons x t ih =>
    rw [reachOnce_cons]
    rcases List.mem_cons.1 he with rfl | he
    · have hin : a ∈ reachEdge (a, b) l ∧ b ∈ reachEdge (a, b) l := by
        simp only [mem_reachEdge]
        tauto
      exact ⟨subset_reachOnce t _ hin.1, subset_reachOnce t _ hin.2⟩
    · exact ih he (h.imp (fun h => (mem_reachEdge x l a).2 (.inl h)) fun h => (mem_reachEdge x l b).2 (.inl h))

/-- A pass stays within every closed property that holds of the set. -/
theorem reachOnce_within {S : Nat → Prop} (hS : ∀ a b, (a, b) ∈ edges → (S a ↔ S b)) (hl : ∀ k ∈ l, S k) :
    ∀ k ∈ reachOnce edges l, S k := by
  induction edges generalizing l with
  | nil => exact hl
  | cons x t ih =>
    obtain ⟨a, b⟩ := x
    have hab := hS a b (List.mem_cons_self ..)
    refine ih (fun c d h => hS c d (List.mem_cons_of_mem _ h)) fun k hk => ?_
    rcases (mem_reachEdge (a, b) l k).1 hk with hk | ⟨rfl, ha⟩ | ⟨rfl, hb⟩
    · exact hl k hk
    · exact hab.1 (hl a ha)
    · exact hab.2 (hl b hb)

/-! ### As many passes as there are edges -/

/-- The edges with both ends in a set of sections. -/
def inside (edges : List (Nat × Nat)) (l : List Nat) : Nat := edges.countP (fun x => decide (x.1 ∈ l ∧ x.2 ∈ l))

theorem ClosedUnder.reachOnce (h : ClosedUnder edges l) : ClosedUnder edges (Machine.reachOnce edges l) := by
  have hsame (k : Nat) : k ∈ Machine.reachOnce edges l ↔ k ∈ l :=
    ⟨reachOnce_within (S := (· ∈ l)) h (fun _ hk => hk) k, fun hk => subset_reachOnce edges l hk⟩
  intro a b he
  rw [hsame, hsame]
  exact h a b he

/-- A pass over a set that is not closed brings an edge inside. -/
theorem inside_lt_reachOnce (h : ¬ ClosedUnder edges l) : inside edges l < inside edges (reachOnce edges l) := by
  unfold ClosedUnder at h
  push Not at h
  obtain ⟨a, b, he, hends⟩ := h
  have hone : (a ∈ l ∨ b ∈ l) ∧ ¬ (a ∈ l ∧ b ∈ l) := by tauto
  have hmono (t : List (Nat × Nat)) : inside t l ≤ inside t (reachOnce edges l) :=
    List.countP_mono_left fun x _ hx => by
      simp only [decide_eq_true_eq] at hx ⊢
      exact ⟨subset_reachOnce edges l hx.1, subset_reachOnce edges l hx.2⟩
  obtain ⟨before, after, rfl⟩ := List.append_of_mem he
  have hbefore := hmono before
  have hafter := hmono after
  have hboth := reachOnce_edge he hone.1
  simp only [inside, List.countP_append, List.countP_cons, hone.2, hboth, decide_true, decide_false, and_self,
    if_true, Bool.false_eq_true, if_false] at hbefore hafter ⊢
  omega

theorem ClosedUnder.reachN (h : ClosedUnder edges l) (n : Nat) : ClosedUnder edges (Machine.reachN edges n l) := by
  induction n generalizing l with
  | zero => exact h
  | succ n ih => exact ih h.reachOnce

/-- Passes close the set, or each brings an edge inside. -/
theorem reachN_closed_or_inside (edges : List (Nat × Nat)) (n : Nat) (l : List Nat) :
    ClosedUnder edges (reachN edges n l) ∨ inside edges l + n ≤ inside edges (reachN edges n l) := by
  induction n generalizing l with
  | zero => exact .inr (Nat.le_refl _)
  | succ n ih =>
    by_cases hclosed : ClosedUnder edges l
    · exact .inl (hclosed.reachN (n + 1))
    · have hgrows := inside_lt_reachOnce hclosed
      rcases ih (reachOnce edges l) with h | h
      · exact .inl h
      · exact .inr (by rw [reachN]; omega)

/-- With every edge inside, the set is closed. -/
theorem closedUnder_of_inside (h : edges.length ≤ inside edges l) : ClosedUnder edges l := by
  have hall := List.countP_eq_length.1 (Nat.le_antisymm List.countP_le_length h)
  intro a b he
  obtain ⟨ha, hb⟩ : a ∈ l ∧ b ∈ l := by simpa using hall _ he
  exact iff_of_true ha hb

theorem reach_closed (edges : List (Nat × Nat)) (start : List Nat) : ClosedUnder edges (reach edges start) := by
  rcases reachN_closed_or_inside edges edges.length start with h | h
  · exact h
  · exact closedUnder_of_inside (by rw [reach]; omega)

theorem subset_reachN (edges : List (Nat × Nat)) (n : Nat) (l : List Nat) : l ⊆ reachN edges n l := by
  induction n generalizing l with
  | zero => exact fun _ h => h
  | succ n ih => exact fun k hk => ih _ (subset_reachOnce edges l hk)

theorem reachN_within {S : Nat → Prop} (hS : ∀ a b, (a, b) ∈ edges → (S a ↔ S b)) (n : Nat) (hl : ∀ k ∈ l, S k) :
    ∀ k ∈ reachN edges n l, S k := by
  induction n generalizing l with
  | zero => exact hl
  | succ n ih => exact ih (reachOnce_within hS hl)

/-! ### Chains (R45) -/

theorem Joined.symm {admits : Flow → Prop} {a b : Nat} (h : Joined m admits flows a b) : Joined m admits flows b a := by
  obtain ⟨v, f, d, hv, hf, hd, hends⟩ := h
  exact ⟨v, f, d, hv, hf, hd, hends.symm.imp And.symm And.symm⟩

theorem mem_edgesOf {admits : Flow → Bool} {a b : Nat} : (a, b) ∈ edgesOf m admits flows ↔
    ∃ v f d, (v, f) ∈ flows ∧ admits f = true ∧ lookup v m.valves = some d ∧ a = d.sideA ∧ b = d.sideB := by
  simp only [edgesOf, List.mem_filterMap, Prod.exists]
  refine exists_congr fun v => exists_congr fun f => ?_
  cases hf : admits f
  · simp
  · simp [eq_comm]

theorem joined_iff {admits : Flow → Prop} {passes : Flow → Bool} (hpasses : ∀ f, admits f ↔ passes f = true)
    {a b : Nat} : Joined m admits flows a b ↔
      (a, b) ∈ edgesOf m passes flows ∨ (b, a) ∈ edgesOf m passes flows := by
  simp only [Joined, mem_edgesOf, hpasses]
  constructor
  · rintro ⟨v, f, d, hv, hf, hd, ⟨ha, hb⟩ | ⟨ha, hb⟩⟩
    · exact .inl ⟨v, f, d, hv, hf, hd, ha, hb⟩
    · exact .inr ⟨v, f, d, hv, hf, hd, hb, ha⟩
  · rintro (⟨v, f, d, hv, hf, hd, ha, hb⟩ | ⟨v, f, d, hv, hf, hd, hb, ha⟩)
    · exact ⟨v, f, d, hv, hf, hd, .inl ⟨ha, hb⟩⟩
    · exact ⟨v, f, d, hv, hf, hd, .inr ⟨ha, hb⟩⟩

/-- The sections reached are those to which a chain leads. -/
theorem chain_iff_mem_reach {admits : Flow → Prop} {passes : Flow → Bool} (hpasses : ∀ f, admits f ↔ passes f = true)
    {from_ : Nat → Prop} {start : List Nat} (hstart : ∀ k, from_ k ↔ k ∈ start) {k : Nat} :
    Chain m admits flows from_ k ↔ k ∈ reach (edgesOf m passes flows) start := by
  constructor
  · intro h
    induction h with
    | here hk => exact subset_reachN _ _ _ ((hstart _).1 hk)
    | pass _ hjoined ih =>
      rcases (joined_iff hpasses).1 hjoined with he | he
      · exact (reach_closed _ _ _ _ he).1 ih
      · exact (reach_closed _ _ _ _ he).2 ih
  · refine reachN_within (S := Chain m admits flows from_) (fun a b he => ?_) _ (fun j hj => .here ((hstart j).2 hj)) k
    have hjoined : Joined m admits flows a b := (joined_iff hpasses).2 (.inl he)
    exact ⟨fun h => .pass h hjoined, fun h => .pass h hjoined.symm⟩

theorem mem_feeding {live : List Nat} {k : Nat} : k ∈ feeding m live ↔ Feeds m live k := by
  simp [feeding, Feeds]

theorem suppliedIn_iff {live : List Nat} {k : Nat} : SuppliedIn m flows live k ↔ k ∈ suppliedBy m flows live :=
  chain_iff_mem_reach (fun f => by cases f <;> simp [conductsOnly]) fun _ => mem_feeding.symm

theorem reachedIn_iff {live : List Nat} {k : Nat} : ReachedIn m flows live k ↔ k ∈ reachedBy m flows live :=
  chain_iff_mem_reach (fun f => by cases f <;> simp [notBlocked]) fun _ => suppliedIn_iff

/-- Settles O22: the two sets of a classification are those that chains reach. -/
theorem classificationFollowsChains : Obligations.ClassificationFollowsChains := by
  intro m x k
  rw [suppliedIn_iff, reachedIn_iff]
  unfold classify classOf
  by_cases hsupplied : k ∈ suppliedBy m x.valves x.live
  · simp [hsupplied]
  · by_cases hreached : k ∈ reachedBy m x.valves x.live <;> simp [hsupplied, hreached]

/-! ### The result of a trial (R50, R51) -/

theorem total_eq_sum (f : Nat → Nat) (l : List Nat) : total f l = (l.map f).sum := by
  induction l with
  | nil => rfl
  | cons k t ih => rw [total, ih, List.map_cons, List.sum_cons]

theorem mem_consequenceSections {x : Snapshot} {closure : List Nat} {k : Nat} :
    k ∈ consequenceSections m x closure ↔ k ∈ keys m.sections ∧ SuppliedIn m x.valves x.live k
      ∧ ¬ SuppliedIn m (closeIn closure x.valves) x.live k := by
  simp [consequenceSections, suppliedIn_iff]

/-- Settles O23: the list of the consequence, of which the result gives the first 64 and the totals. -/
theorem trialResultIsTheConsequence : Obligations.TrialResultIsTheConsequence := by
  intro m x closure
  refine ⟨consequenceSections m x closure, List.filter_sublist, fun k => mem_consequenceSections, rfl, ?_,
    total_eq_sum _ _, total_eq_sum _ _, rfl⟩
  exact decide_eq_true_iff

end Sys2Proof.Machine
end

section
/-!
Requests of the engine's users: SOURCE_OUT and SOURCE_IN (O21), trials asked for by plans (O30), and standalone trials
from the request to the result (O27).
-/

namespace Sys2Proof.Machine

variable {s t : State} {p : PortId} {tag : Byte}

/-! ### Sources (R37, R40 to R42) -/

/-- A source takes a new record. -/
def Net.setSource (k : Nat) (y : Source) (n : Net) : Net := { n with sources := put k y n.sources }

/-- A source takes a new record; a change of liveness is counted (R41). -/
def sourceNet (k : Nat) (y : Source) (changes : Bool) (n : Net) : Net :=
  if changes then countChange (n.setSource k y) else n.setSource k y

theorem countChange_trials (n : Net) : (countChange n).trials = n.trials := by
  by_cases hidle : n.engine = .idle
  · rw [countChange_idle hidle]
    rfl
  · rw [countChange_busy hidle]

/-- An event that changes a source makes no report and marks no plan. -/
theorem source_eq {k : Nat} {x : Source} {f : Source → Source} {e : Event} (hx : lookup k e.net.sources = some x) :
    e.source k f = e.setNet (sourceNet k { f x with live := liveness (f x) } (liveness (f x) != x.live) e.net) := by
  unfold Event.source sourceNet
  rw [hx]
  by_cases hlive : liveness (f x) = x.live
  · simp [hlive, Net.setSource]
  · simp [hlive, Event.changed, Event.setNet, Net.setSource]

theorem sourceNet_engineOnly (k : Nat) (y : Source) (changes : Bool) (n : Net) :
    EngineOnly (n.setSource k y) (sourceNet k y changes n) := by
  cases changes
  · rfl
  · exact countChange_engineOnly _

theorem sourceNet_sources (k : Nat) (y : Source) (changes : Bool) (n : Net) :
    (sourceNet k y changes n).sources = put k y n.sources :=
  (congrArg Net.sources (sourceNet_engineOnly k y changes n) :)

theorem sourceNet_trials (k : Nat) (y : Source) (changes : Bool) (n : Net) :
    (sourceNet k y changes n).trials = n.trials := by
  cases changes
  · rfl
  · exact countChange_trials _

/-- Settles O21: the source's record, and the change report where its liveness turned. -/
theorem sourceServiceAndLiveness : Obligations.SourceServiceAndLiveness := by
  intro s p tag k out hsend
  have hi : exec (if out then Instr.sourceOut p tag k else .sourceIn p tag k) s =
      .next (request .switching p tag (actSourceService out k.toNat) s) := by cases out <;> rfl
  have hroles : ∀ r ∈ [Role.switching], permits r .switching = true := by simp [permits]
  refine ⟨fun hnone => request_refused hi hsend hroles (by simp [actSourceService, hnone, refuse]), fun x hx => ?_⟩
  obtain ⟨t, ht, htaken⟩ := request_takesEvent (st := .ok) (body := [])
    (f := fun e => e.source k.toNat fun y => { y with out := out }) hi hsend
    hroles (by simp [actSourceService, hx, taken])
  have hrun := source_eq (e := Event.start s) (f := fun y => { y with out := out }) hx
  let y : Source := { x with out := out, live := !x.tripped && !x.outletLow && !out }
  have hnet : t.net = sourceNet k.toNat y (y.live != x.live) s.net := by
    rw [htaken.net, event_unmarked (by rw [hrun]; rfl), hrun]
    rfl
  have honly := sourceNet_engineOnly k.toNat y (y.live != x.live) s.net
  rw [← hnet] at honly
  refine ⟨t, ht, htaken.answered, htaken.rest, ?_, fun j hj => ?_, fun hlive => ?_, fun hlive => ?_, ?_, ?_, ?_, ?_, ?_,
    ?_, ?_, ?_, ?_, ?_⟩
  · rw [hnet, sourceNet_sources, lookup_put_same]
  · rw [hnet, sourceNet_sources, lookup_put_other hj]
  · have hkept : (y.live != x.live) = false := by simpa using hlive
    rw [hnet, hkept]
    exact ⟨rfl, rfl, rfl⟩
  · have hturned : (y.live != x.live) = true := by simpa using hlive
    rw [hnet, hturned, sourceNet, if_pos rfl]
    refine ⟨countChange_topology _, fun hidle => ?_, fun hbusy => ?_⟩
    · rw [countChange_idle (n := s.net.setSource k.toNat y) hidle]
      exact ⟨rfl, rfl⟩
    · rw [countChange_busy (n := s.net.setSource k.toNat y) hbusy]
      exact ⟨rfl, rfl⟩
  · exact htaken.alu.trans (event_alu (by rw [hrun]; rfl))
  · exact (congrArg (fun n => (n.pins, n.lines)) honly |> Prod.mk.inj :)
  · exact ⟨honly.valves, honly.outputs⟩
  · exact (congrArg Net.supply honly :)
  · rw [hnet, sourceNet_trials]
  · exact (congrArg Net.sections honly :)
  · exact honly.plans
  · exact (congrArg Net.points honly :)
  · exact ⟨honly.outages, (congrArg Net.lastOutage honly :)⟩
  · exact ⟨(congrArg Net.calls honly :), (congrArg Net.lastCall honly :)⟩

/-! ### Trials for plans (R53, R63, R67) -/

/-- The event in which a plan's trial is asked for and the plan turns. -/
def asksFor (slot : Nat) (n : Net) (f : Plan → Plan) (e : Event) : Event := (e.setNet n).plan slot .requested true f

theorem askTrial_full {slot : Nat} {f : Plan → Plan} (h : 8 ≤ s.net.trials.length) :
    askTrial slot f s = (s, .queueFull, []) := by
  unfold askTrial
  rw [queueTrial_full h]
  rfl

theorem askTrial_taken {slot : Nat} {f : Plan → Plan} {n : Net}
    (h : queueTrial { requester := .plan slot, closure := [] } s.net = some n) :
    askTrial slot f s = (event (asksFor slot n f) s, .accepted, []) := by
  unfold askTrial
  rw [h]
  rfl

theorem asksFor_net {slot : Nat} {x : Plan} {f : Plan → Plan} {n : Net} (hn : EngineOnly s.net n)
    (hx : lookup slot s.net.plans = some x) (hstate : (f x).state ≠ x.state) :
    (event (asksFor slot n f) s).net =
      { n with plans := adjust slot (fun q => { f q with lastReason := .requested }) s.net.plans } := by
  have hplans : n.plans = s.net.plans := hn.plans
  have hrecord : lookup slot (adjust slot f n.plans) = some (f x) := by rw [hplans, lookup_adjust_same, hx]; rfl
  rw [event_marked (f := asksFor slot n f) (slot := slot) (r := .requested) (pin := true) (a := n) (y := f x)
    (plan_marks rfl) hrecord (by simp [hplans, hx, Ne.symm hstate])]
  simp [asksFor, Event.plan, Event.setNet, adjust_adjust, hplans]

/-- A trial that is asked for changes no more than the engine and its queue. -/
theorem queueTrial_asks {x : TrialEntry} {n n' : Net} {l : Table Plan} (hq : queueTrial x n = some n') :
    { n' with plans := l } = { n with plans := l, engine := n'.engine, trials := n'.trials } := by
  have hlt := queueTrial_lt hq
  by_cases hidle : n.engine = .idle
  · rw [queueTrial_idle hlt hidle] at hq
    obtain rfl := Option.some.inj hq
    unfold startTrial
    split <;> rfl
  · rw [queueTrial_busy hlt hidle] at hq
    obtain rfl := Option.some.inj hq
    rfl

/-- A plan asks for its trial, as the statement has it. -/
theorem plan_asks {i : Instr} {takes : PlanState → Bool} {act : Plan → State → Answer} {slot : Byte} {x : Plan}
    {f : Plan → Plan} (h : OwnsPlan p slot x s) (htakes : takes x.state = true)
    (hi : exec i s = .next (request .plan p tag (actPlan p slot.toNat takes act) s))
    (hact : act x (renew p s) = askTrial slot.toNat f (renew p s)) (hstate : (f x).state ≠ x.state) :
    (8 ≤ s.net.trials.length → Refused i p tag .queueFull [] s)
      ∧ (s.net.trials.length < 8 →
        ∃ t, exec i s = .next t ∧ Answered p tag .accepted [] t ∧ KeepsRest (some p) s t ∧ t.alu = s.alu
          ∧ lookup slot.toNat t.net.plans = some { f x with lastReason := .requested }
          ∧ KeepsOtherPlans slot.toNat s.net t.net
          ∧ t.net = { s.net with plans := t.net.plans, engine := t.net.engine, trials := t.net.trials }
          ∧ (s.net.engine ≠ .idle → t.net.engine = s.net.engine
              ∧ t.net.trials = s.net.trials ++ [{ requester := .plan slot.toNat, closure := [] }])
          ∧ (s.net.engine = .idle → s.net.trials = [] →
              t.net.engine = .trial (snapshotOf intended s.net) (.plan slot.toNat) x.valves ∧ t.net.trials = [])) := by
  obtain ⟨_, _, hx, _⟩ := id h
  refine ⟨fun hfull => plan_refused h htakes hi (hact.trans (askTrial_full hfull)), fun hroom => ?_⟩
  obtain ⟨n, hq⟩ : ∃ n, queueTrial { requester := .plan slot.toNat, closure := [] } s.net = some n := by
    by_cases hidle : s.net.engine = .idle
    · exact ⟨_, queueTrial_idle hroom hidle⟩
    · exact ⟨_, queueTrial_busy hroom hidle⟩
  obtain ⟨t, ht, htaken⟩ := plan_takesEvent h htakes hi (hact.trans (askTrial_taken (s := renew p s) hq))
  have hnet := htaken.net.trans (asksFor_net (queueTrial_engineOnly hq) hx hstate)
  refine ⟨t, ht, htaken.answered, htaken.rest, htaken.alu.trans (event_alu rfl), ?_, fun k hk => ?_, ?_,
    fun hbusy => ?_, fun hidle hnone => ?_⟩
  · rw [hnet, lookup_adjust_same, hx]
    rfl
  · rw [hnet]
    exact lookup_adjust_other hk _ _
  · rw [hnet]
    exact queueTrial_asks hq
  · rw [queueTrial_busy hroom hbusy] at hq
    rw [hnet, ← Option.some.inj hq]
    exact ⟨rfl, rfl⟩
  · rw [queueTrial_starts hidle hnone] at hq
    rw [hnet, ← Option.some.inj hq]
    exact ⟨by simp [closureOf, hx], hnone⟩

/-- Settles O30: the request asks for the trial, and the plan turns; every other state is refused. -/
theorem planTrialsAreAsked : Obligations.PlanTrialsAreAsked := by
  intro s p tag slot x h
  have hassess : exec (.planAssess p tag slot) s =
      .next (request .plan p tag (actPlan p slot.toNat editable (assessPlan slot.toNat)) s) := rfl
  have hexecute : exec (.planExecute p tag slot) s =
      .next (request .plan p tag (actPlan p slot.toNat (fun y => y == .assessed) (executePlan slot.toNat)) s) := rfl
  refine ⟨fun hstate => ?_, fun hstate => ?_, fun hstate => ?_, fun hdraft hassessed => ?_⟩
  · have heditable : editable x.state = true := by rcases hstate with hstate | hstate <;> rw [hstate] <;> rfl
    refine ⟨fun hempty => plan_refused h heditable hassess (if_pos hempty), fun hvalves => ?_⟩
    refine plan_asks (f := fun q => { q with state := .assessing }) h heditable hassess (if_neg hvalves) ?_
    rcases hstate with hstate | hstate <;> simp [hstate]
  · exact plan_asks (f := fun q => { q with state := .checking, attempts := 1 }) h (by simp [hstate]) hexecute rfl
      (by simp [hstate])
  · exact plan_wrongState h (by simpa using hstate) hexecute
  · exact plan_wrongState h (by cases hx : x.state <;> simp_all [editable]) hassess

/-! ### Standalone trials (R52, R53, R55, R56) -/

theorem distinct_of_nodup {l : List Nat} (h : l.Nodup) : distinct l = true := by
  induction l with
  | nil => rfl
  | cons x t ih =>
    obtain ⟨hx, ht⟩ := List.nodup_cons.1 h
    simp [distinct, hx, ih ht]

/-- A TRIAL that passes every check of R55 is queued, and its port waits. -/
theorem actTrial_taken {body : List Byte} {l : List Nat} {n : Net} (hbody : indicesOf body = some l) (hne : l ≠ [])
    (hlen : l.length ≤ 16) (hnodup : l.Nodup) (hvalves : ∀ v ∈ l, (lookup v s.net.valves).isSome = true)
    (hfree : hasTrial p s.net = false) (hq : queueTrial { requester := .port p, closure := l } s.net = some n) :
    actTrial p body s =
      (({ s with net := n } : State).setPort p (fun x => { x with buffer := .waiting }), .accepted, []) := by
  have hall : l.all (fun v => (lookup v s.net.valves).isSome) = true := List.all_eq_true.2 hvalves
  have hform : ¬ (l = [] ∨ 16 < l.length ∨ distinct l = false) := by
    simp [hne, hlen, distinct_of_nodup hnodup]
  simp only [actTrial, hbody, if_neg hform, hall, hfree, hq, Bool.true_eq_false, Bool.false_eq_true, if_false]

theorem merge_single {α : Type} (b : Block) (x : α) (cs : Nat) : merge [(b, x)] cs = ([x], cs) := by
  simp [merge, mergePicks, blocksOf, choose, itemAt, pullFirst]

/-- An event that posts one notice and nothing else delivers it. -/
theorem event_onePost {f : Event → Event} {b : Block} {n : Post} (hposts : (f (Event.start s)).posts = [(b, n)])
    (hreports : (f (Event.start s)).reports = []) (hplans : (f (Event.start s)).plans = [])
    (houtages : (f (Event.start s)).outages = []) (hcalls : (f (Event.start s)).calls = []) :
    (event f s).ports = deliver s.tbu.clock n s.ports := by
  simp [event, finish, finishAsMade, finishWith, eventPosts, takeAll, hposts, hreports, hplans, houtages, hcalls,
    merge_single, deliverAll]

/-- A notice of no class reaches the ports it names, and no other. -/
theorem deliver_named {clock : Word} {n : Post} {ps : Ports} {q : PortId} (hclass : noticeClass n.body = none) :
    (deliver clock n ps).get q =
      if q ∈ n.also then (ps.get q).offer { body := n.body, time := clock } else ps.get q := by
  simp [deliver, entitled, hclass]

/-- A port's result brings no request, so that it is handed over and the arbiter grants (R54). -/
def portTrialEnds (r : Consequence) (p : PortId) (e : Event) : Event :=
  (e.post .wke (trialDone r) [p]).grant grantAfterTrial

theorem trialEnds_port (r : Consequence) (c : Word) (e : Event) : e.trialEnds r c (.port p) = portTrialEnds r p e := by
  simp [Event.trialEnds, handOverOrders, choose, Event.handOver, portTrialEnds]

/-- TRIAL, taken (R53, R55). -/
theorem trial_taken {body : List Byte} {l : List Nat} (hsend : CanSend [.dispatch, .switching] p s)
    (hbody : indicesOf body = some l) (hne : l ≠ []) (hlen : l.length ≤ 16) (hnodup : l.Nodup)
    (hvalves : ∀ v ∈ l, (lookup v s.net.valves).isSome = true) (hfree : hasTrial p s.net = false) {n : Net}
    (hq : queueTrial { requester := .port p, closure := l } s.net = some n) :
    ∃ t, exec (.trial p tag body) s = .next t ∧ Answered p tag .accepted [] t ∧ (t.ports.get p).buffer = .waiting
      ∧ t.net = n ∧ t.pending = s.pending ∧ t.cfu = s.cfu ∧ t.tbu = s.tbu ∧ t.alu = s.alu ∧ t.msc = s.msc
      ∧ (t.ports.get p).queue = (s.ports.get p).queue ∧ ∀ q, q ≠ p → t.ports.get q = s.ports.get q := by
  let u := ({ renew p s with net := n } : State).setPort p (fun x => { x with buffer := .waiting })
  have hrun : request .trial p tag (actTrial p body) s = respond p tag .accepted [] u := by
    rw [request_canSend .trial p tag (actTrial p body) s _ hsend (by simp [permits]),
      actTrial_taken (s := renew p s) hbody hne hlen hnodup hvalves hfree hq]
  refine ⟨respond p tag .accepted [] u, congrArg Host.Outcome.next hrun, answered_respond p tag _ _ u ?_, ?_, rfl, rfl,
    rfl, rfl, rfl, rfl, ?_, fun q hq => ?_⟩
  · simp [u]
  · simp [u]
  · simp [u]
  · simp [u, hq]

/-- Settles O27: the request queues the trial or starts it; at its end the one notice goes to the port, and the arbiter
has the engine. -/
theorem standaloneTrialsRun : Obligations.StandaloneTrialsRun := by
  refine ⟨fun s p tag body l hsend hbody hne hlen hnodup hvalves hfree hroom => ?_,
    fun s x p closure hrun hengine => ?_⟩
  · by_cases hidle : s.net.engine = .idle
    · obtain ⟨t, ht, hanswered, hbuffer, hnet, hrest⟩ :=
        trial_taken (tag := tag) hsend hbody hne hlen hnodup hvalves hfree (queueTrial_idle hroom hidle)
      refine ⟨t, ht, hanswered, hbuffer, fun hbusy => absurd hidle hbusy, fun _ hnone => ?_, hrest⟩
      have hstarts := queueTrial_starts (x := { requester := .port p, closure := l }) hidle hnone
      rw [queueTrial_idle hroom hidle] at hstarts
      exact hnet.trans (Option.some.inj hstarts)
    · obtain ⟨t, ht, hanswered, hbuffer, hnet, hrest⟩ :=
        trial_taken (tag := tag) hsend hbody hne hlen hnodup hvalves hfree (queueTrial_busy hroom hidle)
      exact ⟨t, ht, hanswered, hbuffer, fun _ => hnet, fun h => absurd h hidle, hrest⟩
  · let r := trialResult s.cfu.image x closure
    let u := fillBuffer r s.net.topology (.port p) s
    have hends : whenRunning completeTrial s = event (portTrialEnds r p) u := by
      rw [whenRunning_running hrun, completeTrial, hengine]
      exact congrArg (finish · u) (trialEnds_port r _ (Event.start u))
    have hports : (event (portTrialEnds r p) u).ports =
        deliver s.tbu.clock { body := trialDone r, also := [p] } u.ports := event_onePost rfl rfl rfl rfl rfl
    have hget (q : PortId) : (event (portTrialEnds r p) u).ports.get q =
        if q ∈ [p] then (u.ports.get q).offer { body := trialDone r, time := s.tbu.clock } else u.ports.get q := by
      rw [hports, deliver_named rfl]
    refine ⟨_, congrArg Host.Outcome.next hends, ?_, ?_, event_unmarked rfl, rfl, rfl, rfl, event_alu rfl, rfl,
      fun q hq => ?_⟩
    · rw [hget, if_pos (List.mem_singleton_self p), Port.offer_buffer]
      simp [u, fillBuffer, r]
    · unfold NotifiedAt
      rw [hget, if_pos (List.mem_singleton_self p)]
      exact Port.offer_self _ _
    · rw [hget, if_neg (by simpa using hq)]
      simp [u, fillBuffer, hq]

end Sys2Proof.Machine
end

section
/-!
Reads (O7): what an owner holds is answered, and nothing but the port's answer differs; READ_NOTICES takes the oldest
notices out of the port's queue (R175, R177, R178, R193).
-/

namespace Sys2Proof.Machine

variable {s t : State} {p : PortId} {tag : Byte} {i : Instr} {body : List Byte}

/-! ### Answers that change nothing -/

/-- A read of class READ is answered with the body that its owner gives. -/
theorem read_answered {act : State → Answer} (hi : exec i s = .next (request .read p tag act s))
    (hsend : CanSend anyRole p s) (hact : act (renew p s) = (renew p s, .ok, body)) : Refused i p tag .ok body s :=
  request_refused hi hsend (fun _ _ => rfl) hact

/-- NULL, READ_IDENTITY and READ_STATUS are taken in every device state (R170). -/
theorem refusalOf_always {c : ReqClass} (hc : c = .null ∨ c = .identity)
    (hrole : s.cfu.device = .running → ∃ r, (s.ports.get p).role = some r) : refusalOf (renew p s) c p = none := by
  by_cases hrun : s.cfu.device = .running
  · obtain ⟨r, hr⟩ := hrole hrun
    rcases hc with rfl | rfl <;> simp [refusalOf, hrun, hr, permits]
  · rcases hc with rfl | rfl <;> simp [refusalOf, hrun, beforeRunning]

/-- A read of an object, from the record found under its key. -/
theorem reads_object {α : Type} {act : State → Answer} {inRange : Bool} {x : Option α} {bytes : α → List Byte}
    (hi : exec i s = .next (request .read p tag act s)) (hsend : CanSend anyRole p s)
    (hact : act (renew p s) = readObject inRange x bytes (renew p s)) :
    ReadsObject i p tag inRange (x.map bytes) s := by
  refine request_refused hi hsend (fun _ _ => rfl) (hact.trans ?_)
  unfold readObject
  cases inRange
  · rfl
  · cases x <;> rfl

/-! ### Bodies -/

theorem renew_buffer (p q : PortId) (s : State) :
    ((renew p s).ports.get q).buffer = (s.ports.get q).buffer := by
  by_cases hq : q = p <;> simp [hq]

theorem be8_toNat (x : Byte) : be8 x.toNat = [x] := by simp [be8]

theorem be16_toNat (x : Half) : be16 x.toNat = halfBytes x := by simp [be16]

theorem be32_toNat (x : Word) : be32 x.toNat = wordBytes x := by simp [be32]

theorem causeFlags_eq (c : Cfu) : causeFlags c = c.causePower.toNat + 2 * c.causeLine.toNat := rfl

theorem portBytes_renew (p q : PortId) (s : State) : portBytes (renew p s) q =
    opt8 ((s.ports.get q).role.map roleCode) ++ [(s.ports.get q).classes] ++ be8 (s.ports.get q).queue.length
      ++ flag (s.ports.get q).lost ++ wordBytes (s.ports.get q).discarded
      ++ wordBytes (if q = p then 0 else s.tbu.uptime - (s.ports.get q).lastRequest)
      ++ be8 (bufferCode (s.ports.get q).buffer) := by
  unfold portBytes silentFor
  rw [be32_toNat]
  by_cases hq : q = p <;> simp [hq]

theorem identityBody_eq (s : State) : identityBody s =
    [1, 0, 24, 1, 0, BitVec.ofNat 8 (s.cfu.causePower.toNat + 2 * s.cfu.causeLine.toNat)] := by
  rw [identityBody, causeFlags_eq]
  rfl

/-- READ_DEFINITION's record is the one in force, or the one that stands in its place (R2, R14, R178). -/
theorem readDefinition_reads {kind : Byte} {key : Half} {k : RecordKind} (hsend : CanSend anyRole p s)
    (hkind : recordKindOf kind.toNat = some k) :
    ReadsObject (.readDefinition p tag kind key) p tag (keyInRange k key.toNat)
      ((definitionOf s.cfu.image k key.toNat).map recordBytes) s :=
  reads_object (act := actReadDefinition kind.toNat key.toNat) rfl hsend (by simp [actReadDefinition, hkind])

/-! ### Notices (R175) -/

theorem takeNotices_attention (clock : Word) (x : Port) :
    (takeNotices clock x).attention = (!(takeNotices clock x).queue.isEmpty || (takeNotices clock x).lost) := rfl

theorem takeNotices_kept {clock : Word} {x : Port} (h : x.queue = [] ∨ x.lost = false) :
    (takeNotices clock x).queue = x.queue.drop 8 ∧ (takeNotices clock x).lost = x.lost
      ∧ (takeNotices clock x).discarded = x.discarded := by
  have hnot : ¬ (x.queue ≠ [] ∧ x.lost = true) := by
    rintro ⟨hqueue, hlost⟩
    exact h.elim hqueue (by simp [hlost])
  simp only [takeNotices, Port.refresh, if_neg hnot]
  exact ⟨rfl, trivial, trivial⟩

theorem takeNotices_lost {clock : Word} {x : Port} (hqueue : x.queue ≠ []) (hlost : x.lost = true) :
    (takeNotices clock x).queue = x.queue.drop 8 ++ [{ body := .lost x.discarded, time := clock }]
      ∧ (takeNotices clock x).lost = false ∧ (takeNotices clock x).discarded = 0 := by
  simp only [takeNotices, Port.refresh, if_pos (And.intro hqueue hlost)]
  exact ⟨rfl, trivial, trivial⟩

/-- READ_NOTICES answers from the queue, and the port is as its taking leaves it. -/
theorem readNotices_taken (hsend : CanSend anyRole p s) :
    ∃ t, exec (.readNotices p tag) s = .next t
      ∧ Answered p tag .ok (be8 ((s.ports.get p).queue.take 8).length
          ++ ((s.ports.get p).queue.take 8).flatMap noticeBytes) t
      ∧ ((t.ports.get p).queue = (takeNotices s.tbu.clock (s.ports.get p)).queue
        ∧ (t.ports.get p).lost = (takeNotices s.tbu.clock (s.ports.get p)).lost
        ∧ (t.ports.get p).discarded = (takeNotices s.tbu.clock (s.ports.get p)).discarded
        ∧ (t.ports.get p).attention = (takeNotices s.tbu.clock (s.ports.get p)).attention)
      ∧ t.cfu = s.cfu ∧ t.tbu = s.tbu ∧ t.net = s.net ∧ t.alu = s.alu ∧ t.msc = s.msc
      ∧ ∀ q, q ≠ p → t.ports.get q = s.ports.get q := by
  let u := (renew p s).setPort p (takeNotices s.tbu.clock)
  have hrun : request .readNotices p tag (actReadNotices p) s = respond p tag .ok
      (listOf noticeBytes ((s.ports.get p).queue.take 8)) u := by
    rw [request_canSend .readNotices p tag (actReadNotices p) s _ hsend (fun _ _ => rfl)]
    simp [actReadNotices, u, Config.noticesPerRead]
  have htaken : u.ports.get p = { takeNotices s.tbu.clock (s.ports.get p) with lastRequest := s.tbu.uptime } := by
    simp only [u, State.setPort_ports, renew_ports, Ports.get_set_same]
    simp only [takeNotices, Port.refresh]
    split <;> rfl
  refine ⟨respond p tag .ok _ u, congrArg Host.Outcome.next hrun, answered_respond p tag .ok _ u ?_, ?_, rfl, rfl, rfl,
    rfl, rfl, fun q hq => ?_⟩
  · rw [htaken]
    rfl
  · simp [htaken]
  · simp [u, hq]

/-- Settles O7: each body is what its owner holds; the reads of objects by one lemma, READ_NOTICES by what it takes. -/
theorem readsReturnWhatIsHeld : Obligations.ReadsReturnWhatIsHeld := by
  refine ⟨⟨fun s p tag hreset hrole => ⟨?_, ?_, ?_⟩, fun s p tag hsend =>
      ⟨?_, ?_, ?_, ?_, fun first => ?_, fun first => ?_⟩⟩,
    ⟨fun s p tag hsend => ⟨?_, ?_, ?_, ?_, ?_, ?_, ?_⟩,
      fun s p tag kind key hsend => ⟨fun hnone => ?_, fun k hk => ?_⟩⟩,
    fun s p tag hsend => ?_⟩
  · exact refused_act (i := .null p tag) rfl hreset (refusalOf_always (.inl rfl) hrole) rfl
  · exact refused_act (i := .readIdentity p tag) rfl hreset (refusalOf_always (.inr rfl) hrole)
      (congrArg (fun b => (renew p s, Status.ok, b)) (identityBody_eq (renew p s)))
  · exact refused_act (i := .readStatus p tag) rfl hreset (refusalOf_always (.inr rfl) hrole) rfl
  · exact read_answered (i := .readTrial p tag) rfl hsend
      (congrArg (fun b => (renew p s, Status.ok, bufferBody b)) (renew_buffer p p s))
  · exact read_answered (i := .readPorts p tag) rfl hsend
      (congrArg (fun f => (renew p s, Status.ok, List.flatMap f _)) (funext fun q => portBytes_renew p q s))
  · exact read_answered (i := .readLines p tag) rfl hsend rfl
  · exact read_answered (i := .readLamps p tag) rfl hsend rfl
  · exact read_answered (i := .readAlarms p tag first) rfl hsend
      (congrArg (fun b => (renew p s, Status.ok, wordBytes s.alu.seq ++ wordBytes s.alu.mark
        ++ be16 s.alu.withheld.length ++ be8 s.alu.entries.length ++ b ++ _)) (be8_toNat first))
  · exact read_answered (i := .readWithheld p tag first) rfl hsend
      (congrArg (fun b => (renew p s, Status.ok, be16 s.alu.withheld.length ++ b ++ _)) (be16_toNat first))
  · exact fun k => reads_object (act := fun t => readObject _ _ (sectionBody t.net k.toNat) t) rfl hsend rfl
  · exact fun k => reads_object rfl hsend rfl
  · exact fun k => reads_object rfl hsend rfl
  · exact fun k => reads_object rfl hsend rfl
  · exact fun k => reads_object rfl hsend rfl
  · exact fun k first => reads_object rfl hsend rfl
  · intro k
    have hread := reads_object (i := .readCall p tag k) (bytes := callBytes) rfl hsend rfl
    rwa [Option.map_map] at hread
  · exact request_refused rfl hsend (fun _ _ => rfl) (by simp [actReadDefinition, hnone, refuse])
  · cases k <;> exact readDefinition_reads hsend hk
  · obtain ⟨t, ht, hanswered, ⟨hqueue, hlost, hdiscarded, hattention⟩, hrest⟩ := readNotices_taken (tag := tag) hsend
    refine ⟨t, ht, hanswered, fun hkept => ?_, fun hne hwas => ?_, ?_, hrest⟩
    · rw [hqueue, hlost, hdiscarded]
      exact takeNotices_kept hkept
    · rw [hqueue, hlost, hdiscarded]
      exact takeNotices_lost hne hwas
    · rw [hqueue, hlost, hattention, takeNotices_attention]

end Sys2Proof.Machine
end

section
/-!
A publication as the Walk Engine makes it (O24): the classes of the snapshot, its revision, and the notice of what
changed. What the Outage Table and the arbiter do after it leaves these as they are.
-/

namespace Sys2Proof.Machine

variable {s t : State} {x : Snapshot} {k : Nat}

/-! ### The arbiter leaves the revisions -/

theorem grantAfterWalk_cases (n : Net) :
    ∃ engine pending trials,
      grantAfterWalk n = { n with engine := engine, walkPending := pending, trials := trials } := by
  cases htrials : n.trials with
  | nil =>
    cases hpending : n.walkPending with
    | true => exact ⟨_, _, _, grantAfterWalk_walk htrials hpending⟩
    | false => exact ⟨_, _, _, grantAfterWalk_idle htrials hpending⟩
  | cons y rest => exact ⟨_, _, _, grantAfterWalk_trial htrials⟩

/-! ### What is published -/

/-- The network blocks once a walk's result is published: the classes of the snapshot and its revision. -/
structure Published (m : Image) (x : Snapshot) (a n : Net) : Prop where
  sections : ∀ k, (lookup k n.sections).map Sect.supply = (lookup k a.sections).map (fun _ => classify m x k)
  supply : n.supply = x.revision
  topology : n.topology = a.topology
  lines : KeepsLines a n
  valves : KeepsValves a n
  sources : n.sources = a.sources

theorem lookup_adjust_supply {f : Sect → Sect} (hf : ∀ z, (f z).supply = z.supply) (j k : Nat) (l : Table Sect) :
    (lookup j (adjust k f l)).map Sect.supply = (lookup j l).map Sect.supply := by
  rw [lookup_adjust]
  split
  · cases lookup j l <;> simp [hf]
  · rfl

theorem Published.atArbiter {m : Image} {a n : Net} {engine : Engine} {pending : Bool} {trials : List TrialEntry}
    {plans : Table Plan} (h : Published m x a n) :
    Published m x a { n with engine := engine, walkPending := pending, trials := trials, plans := plans } := { h with }

theorem published_closed (m : Image) (x : Snapshot) (a : Net) : OutageClosed (Published m x a) where
  plans _ _ h := { h with }
  calls _ _ h := { h with }
  lastCall _ _ h := { h with }
  sections n k _ hf h := { h with sections := fun j => (lookup_adjust_supply hf j k n.sections).trans (h.sections j) }
  outages _ _ h := { h with }
  flags _ _ _ _ h := { h with }
  lastOutage _ _ h := { h with }

theorem lookup_publishAll (m : Image) (x : Snapshot) (outages : Table Outage) (l : Table Sect) (k : Nat) :
    lookup k (publishAll m x outages l) =
      (lookup k l).map (published (classify m x k) (outageOf k outages).isSome) := lookup_mapTable _ _ _

theorem published_supply (state : Supply) (member : Bool) (z : Sect) : (published state member z).supply = state := rfl

theorem publish_published (x : Snapshot) (e : Event) : Published e.image x e.net (e.publish x).net := by
  refine publish_keeps (published_closed e.image x e.net) x e ⟨fun k => ?_, rfl, rfl, ⟨rfl, rfl⟩, ⟨rfl, rfl⟩, rfl⟩
  rw [lookup_publishAll, Option.map_map]
  rfl

/-! ### The event -/

/-- The event of a walk that completes (R47, R54). -/
def walkEnds (x : Snapshot) (e : Event) : Event := (e.publish x).grant grantAfterWalk

theorem liveWalkCompletes_runs (hrun : Running s) (hwalk : s.net.engine = .walking x) :
    exec .liveWalkCompletes s = .next (event (walkEnds x) s) := by
  show Host.Outcome.next (whenRunning completeWalk s) = _
  rw [whenRunning_running hrun, completeWalk, hwalk]
  rfl

/-- The arbiter's grant and the reasons written at the end leave all that is published. -/
theorem walkEnds_net (x : Snapshot) (s : State) : ∃ engine pending trials plans,
    (event (walkEnds x) s).net =
      { ((Event.start s).publish x).net with
        engine := engine, walkPending := pending, trials := trials, plans := plans } := by
  obtain ⟨plans, hplans⟩ := event_net (walkEnds x) s
  obtain ⟨engine, pending, trials, hgrant⟩ := grantAfterWalk_cases ((Event.start s).publish x).net
  refine ⟨engine, pending, trials, plans, hplans.trans ?_⟩
  rw [walkEnds, grant_net, hgrant]

theorem walkEnds_published (x : Snapshot) (s : State) : Published s.cfu.image x s.net (event (walkEnds x) s).net := by
  obtain ⟨engine, pending, trials, plans, hnet⟩ := walkEnds_net x s
  rw [hnet]
  exact (publish_published x (Event.start s)).atArbiter

/-! ### The notice (R49) -/

theorem changedSections_publishAll (m : Image) (x : Snapshot) (outages : Table Outage) (l : Table Sect) :
    changedSections l (publishAll m x outages l) =
      (keys l).filter (fun k => ((lookup k l).map Sect.supply) != some (classify m x k)) := by
  refine List.filter_congr fun k hk => ?_
  obtain ⟨z, hz⟩ := Option.isSome_iff_exists.1 ((mem_keys_iff_lookup k l).1 hk)
  simp only [lookup_publishAll, hz, Option.map_some, published_supply]
  exact Bool.eq_iff_iff.2 (by simp)

/-- A change of any state is announced with the number of sections changed. -/
theorem publish_posts {e : Event} (h : changedSections e.net.sections
      (publishAll e.image x e.net.outages e.net.sections) ≠ []) :
    (Block.wke, ({ body := .supplyPublished (changedSections e.net.sections
        (publishAll e.image x e.net.outages e.net.sections)).length x.revision, also := [] } : Post))
      ∈ (e.publish x).posts := by
  unfold Event.publish
  dsimp only
  rw [if_neg h]
  exact Event.takePublication_grows (postsClosed _) _ _ _ (by simp [Event.post])

theorem grant_posts (f : Net → Net) (e : Event) : (e.grant f).posts = e.posts := rfl

theorem walkEnds_posts (x : Snapshot) (e : Event) : (walkEnds x e).posts = (e.publish x).posts := grant_posts _ _

/-- Settles O24: the publication's own writes, which nothing after it touches, and its notice. -/
theorem walkPublishesItsSnapshot : Obligations.WalkPublishesItsSnapshot := by
  intro s x hrun hwalk
  have hpublished := walkEnds_published x s
  refine ⟨_, liveWalkCompletes_runs hrun hwalk, event_rest _ s, hpublished.sections, hpublished.supply,
    hpublished.topology, fun l hl hne => ?_, hpublished.lines, hpublished.valves, hpublished.sources⟩
  have hchanged : changedSections (Event.start s).net.sections (publishAll (Event.start s).image x
      (Event.start s).net.outages (Event.start s).net.sections) = l :=
    (changedSections_publishAll _ _ _ _).trans hl.symm
  have hpost := publish_posts (x := x) (e := Event.start s) (by rw [hchanged]; exact hne)
  rw [hchanged, ← walkEnds_posts] at hpost
  exact finish_notified (walkEnds x (Event.start s)) s .wke _ [] .supply rfl hpost

end Sys2Proof.Machine
end

section
/-!
What a section's loss and an outage's members can be touched by (R48, R89, R95). The Call Register and the Pressure
Supervisor leave a section's published state and its flags of the Outage Table, and of an outage they write the count of
linked calls alone; the state rules leave the members. Joins, leaves, new and freed records are left to their own
section.
-/

namespace Sys2Proof.Machine

/-- Kept by the Call Register, the Pressure Supervisor, and every block that writes no section and no outage. -/
structure RegisterClosed (P : Net → Prop) : Prop where
  other : ∀ n n' : Net, n'.sections = n.sections → n'.outages = n.outages → P n → P n'
  counters : ∀ (n : Net) (k : Nat) (f : Sect → Sect), (∀ z : Sect, (f z).supply = z.supply ∧ (f z).awaiting = z.awaiting
    ∧ (f z).unrecorded = z.unrecorded) → P n → P { n with sections := adjust k f n.sections }
  links : ∀ (n : Net) (j : Nat) (f : Nat → Nat), P n → P { n with
    outages := mapTable (fun _ o => if o.number = j then { o with linked := f o.linked } else o) n.outages }

/-- Kept also by the rules of the Outage Table, which leave the sections and the members. -/
structure RulesClosed (P : Net → Prop) : Prop extends RegisterClosed P where
  records : ∀ (n : Net) (j : Nat) (f : Outage → Outage),
    (∀ o : Outage, (f o).number = o.number ∧ memberSections (f o) = memberSections o) → P n →
    P { n with outages := mapTable (fun _ o => if o.number = j then f o else o) n.outages }

/-- Kept also where UNRECORDED_LOSS is set or cleared. -/
structure MembersClosed (P : Net → Prop) : Prop extends RulesClosed P where
  flags : ∀ (n : Net) (k : Nat) (f : Sect → Sect), 
    (∀ z : Sect, (f z).supply = z.supply ∧ (f z).awaiting = z.awaiting) → P n →
    P { n with sections := adjust k f n.sections }

variable {P : Net → Prop} {e : Event} {n k : Nat}

theorem RulesClosed.register (hc : RulesClosed P) : RegisterClosed P := hc.toRegisterClosed

theorem MembersClosed.rules (hc : MembersClosed P) : RulesClosed P := hc.toRulesClosed

theorem MembersClosed.register (hc : MembersClosed P) : RegisterClosed P := hc.rules.register

namespace RegisterClosed

/-! ### Blocks that write no section and no outage -/

theorem engine (hc : RegisterClosed P) {a b : Net} (h : EngineOnly a b) (ha : P a) : P b :=
  hc.other a b ((congrArg Net.sections h).trans rfl) h.outages ha

theorem plan (hc : RegisterClosed P) : PlanClosed P where
  plans n _ h := hc.other n _ rfl rfl h

theorem source (hc : RegisterClosed P) : SourceClosed P where
  sources n _ h := hc.other n _ rfl rfl h
  change n h := hc.engine (countChange_engineOnly n) h

theorem valve (hc : RegisterClosed P) : ValveClosed P where
  plans n _ h := hc.other n _ rfl rfl h
  valves n _ h := hc.other n _ rfl rfl h
  outputs n _ h := hc.other n _ rfl rfl h
  moved n h := hc.engine (countChange_engineOnly n) h

theorem limits (hc : RegisterClosed P) {s : State} {ll l hi hh deadband : Nat} (h : P s.net) :
    P (actSetLimits n ll l hi hh deadband k s).1.net := by
  unfold actSetLimits
  split
  · exact h
  · split
    · exact h
    · exact hc.other s.net _ rfl rfl h

/-! ### Calls (R137, R139, R140, R142, R144 to R148) -/

theorem callQuietly (hc : RegisterClosed P) {f : Call → Call} (h : P e.net) : P (e.callQuietly n f).net :=
  hc.other e.net _ rfl rfl h

theorem call (hc : RegisterClosed P) {f : Call → Call} (h : P e.net) : P (e.call n f).net :=
  Event.markCall_keeps n _ (hc.callQuietly (f := f) h)

theorem countSect (hc : RegisterClosed P) {f : Sect → Sect} (h : P e.net)
    (hf : ∀ z : Sect, (f z).supply = z.supply ∧ (f z).awaiting = z.awaiting ∧ (f z).unrecorded = z.unrecorded := by
      exact fun _ => ⟨rfl, rfl, rfl⟩) : P (e.sectFields k f).net := hc.counters e.net k f hf h

theorem expire (hc : RegisterClosed P) {st : Stage} (h : P e.net) : P (e.expire n st).net := by
  unfold Event.expire
  split
  · exact h
  · exact hc.callQuietly h

theorem realarmed (hc : RegisterClosed P) {st : Stage} (h : P e.net) : P (e.realarmed n st).net := by
  unfold Event.realarmed
  split
  · exact h
  · exact hc.callQuietly h

theorem expireIfDue (hc : RegisterClosed P) (h : P e.net) : P (e.expireIfDue n).net := by
  unfold Event.expireIfDue
  split
  · exact h
  · split
    · exact h
    · split
      · exact hc.expire h
      · exact h

theorem realarmIfDue (hc : RegisterClosed P) (h : P e.net) : P (e.realarmIfDue n).net := by
  unfold Event.realarmIfDue
  split
  · exact h
  · split
    · exact h
    · split
      · exact hc.realarmed h
      · exact h

theorem callTick (hc : RegisterClosed P) (h : P e.net) : P (e.callTick n).net := by
  unfold Event.callTick
  split
  · exact h
  · split
    · split
      · exact hc.realarmIfDue (hc.callQuietly h)
      · split
        · exact hc.callQuietly h
        · exact hc.expireIfDue (hc.callQuietly h)
    · exact h

theorem callTicks (hc : RegisterClosed P) {l : List Nat} (h : P e.net) : P (Event.callTicks l e).net := by
  induction l generalizing e with
  | nil => exact h
  | cons n t ih => exact ih (hc.callTick h)

theorem upgrade (hc : RegisterClosed P) {g : Nat} (h : P e.net) : P (e.upgrade g n).net := by
  unfold Event.upgrade
  split
  · exact h
  · split
    · exact hc.expireIfDue (hc.call h)
    · exact h

theorem upgrades (hc : RegisterClosed P) {g : Nat} {l : List Nat} (h : P e.net) : P (Event.upgrades g l e).net := by
  induction l generalizing e with
  | nil => exact h
  | cons n t ih => exact ih (hc.upgrade h)

theorem fallOnset (hc : RegisterClosed P) (h : P e.net) : P (e.fallOnset k).net := hc.upgrades h

theorem setCluster (hc : RegisterClosed P) {b : Bool} (h : P e.net) : P (e.setCluster k b).net := by
  unfold Event.setCluster
  split
  · exact h
  · split
    · exact h
    · exact hc.countSect h

theorem setSuspected (hc : RegisterClosed P) {b : Bool} (h : P e.net) : P (e.setSuspected k b).net := by
  unfold Event.setSuspected
  split
  · exact h
  · split
    · exact h
    · exact hc.countSect h

theorem odourJoins (hc : RegisterClosed P) (h : P e.net) : P (e.odourJoins k n).net := by
  unfold Event.odourJoins
  dsimp only
  split
  · exact h
  · have hcounted := hc.countSect (k := k) (f := fun y => { y with odour := y.odour + 1 }) h
    split
    · exact hcounted
    · split
      · exact hc.upgrades (hc.setCluster hcounted)
      · exact hc.upgrade hcounted

theorem odourLeaves (hc : RegisterClosed P) (h : P e.net) : P (e.odourLeaves k).net := by
  unfold Event.odourLeaves
  dsimp only
  split
  · exact h
  · have hcounted := hc.countSect (k := k) (f := fun y => { y with odour := y.odour - 1 }) h
    split
    · exact hc.setCluster hcounted
    · exact hcounted

theorem noGasCount (hc : RegisterClosed P) {f : Nat → Nat} (h : P e.net) : P (e.noGasCount k f).net := by
  unfold Event.noGasCount
  split
  · exact h
  · exact hc.setSuspected (hc.countSect h)

theorem countLink (hc : RegisterClosed P) {f : Nat → Nat} (h : P e.net) : P (e.countLink n f).net :=
  hc.links e.net n f h

theorem link (hc : RegisterClosed P) {o : Nat} {isNew : Bool} (h : P e.net) : P (e.link o isNew n).net := by
  unfold Event.link
  dsimp only
  split
  · exact h
  · split
    · exact hc.countLink (Event.clearOverdue_keeps _ _ (hc.call h))
    · exact hc.countLink (Event.clearOverdue_keeps _ _ (hc.noGasCount (hc.call h)))

theorem linkSection (hc : RegisterClosed P) {o : Nat} (h : P e.net) : P (e.linkSection o k).net := by
  unfold Event.linkSection
  generalize callsWhere _ e.net = l
  induction l generalizing e with
  | nil => exact h
  | cons n t ih => exact ih (hc.link h)

theorem unlink (hc : RegisterClosed P) {o : Nat} (h : P e.net) : P (e.unlink o n).net := by
  unfold Event.unlink
  split
  · exact h
  · exact hc.expireIfDue (hc.countLink (hc.noGasCount (hc.call h)))

theorem unlinkSection (hc : RegisterClosed P) {o : Nat} (h : P e.net) : P (e.unlinkSection o k).net := by
  unfold Event.unlinkSection
  generalize callsWhere _ e.net = l
  induction l generalizing e with
  | nil => exact h
  | cons n t ih => exact ih (hc.unlink h)

theorem freeCall (hc : RegisterClosed P) {how : CallEnd} {byRequest : Bool} (h : P e.net) :
    P (e.freeCall how byRequest n).net := by
  unfold Event.freeCall
  dsimp only
  split
  · exact h
  · next c _ =>
    have hdropped : P ((e.clearOverdue c).dropCall n).net :=
      hc.other (e.clearOverdue c).net _ rfl rfl (Event.clearOverdue_keeps c e h)
    refine Event.forgetCall_keeps hc.plan n _ ?_
    split
    · exact hc.odourLeaves hdropped
    · exact hc.noGasCount hdropped
    · split
      · exact hc.countLink hdropped
      · exact hdropped

theorem completeCalls (hc : RegisterClosed P) {l : List Nat} (h : P e.net) : P (Event.completeCalls l e).net := by
  induction l generalizing e with
  | nil => exact h
  | cons n t ih => exact ih (hc.freeCall h)

theorem newCall (hc : RegisterClosed P) {idx : Nat} {c : Call} (h : P e.net) : P (e.newCall idx c).net := by
  have hput : P ((e.setNet { e.net with calls := put idx c e.net.calls, lastCall := c.number }).markCall
      c.number).net := Event.markCall_keeps _ _ (hc.other e.net _ rfl rfl h)
  refine hc.expireIfDue ?_
  unfold Event.enterCall
  split
  · exact hc.odourJoins hput
  · split
    · exact hc.link hput
    · exact hc.noGasCount hput

theorem regrade (hc : RegisterClosed P) {g : Nat} {c : Call} (h : P e.net) : P (e.regrade n g c).net := by
  unfold Event.regrade
  split
  · exact hc.upgrade h
  · split
    · split
      · exact h
      · exact hc.call h
    · split
      · exact hc.call h
      · split
        · exact h
        · exact hc.call h

/-! ### Points (R110, R122, R123) -/

theorem point (hc : RegisterClosed P) {f : Point → Point} (h : P e.net) : P (e.point n f).net :=
  hc.other e.net _ rfl rfl h

theorem relistAll (hc : RegisterClosed P) {l : List CondKind} (h : P e.net) : P (e.relistAll n l).net := by
  induction l generalizing e with
  | nil => exact h
  | cons c t ih =>
    refine ih ?_
    unfold Event.relistOne
    split
    · exact h
    · split
      · exact h
      · exact hc.point h

theorem suppressPoint (hc : RegisterClosed P) {b : Bool} (h : P e.net) : P (e.suppressPoint b n).net := by
  unfold Event.suppressPoint
  dsimp only
  split
  · split
    · exact h
    · split
      · exact hc.fallOnset (hc.relistAll (hc.point h))
      · exact hc.relistAll (hc.point h)
  · exact h

theorem suppressPoints (hc : RegisterClosed P) {b : Bool} {l : List Nat} (h : P e.net) :
    P (Event.suppressPoints b l e).net := by
  induction l generalizing e with
  | nil => exact h
  | cons n t ih => exact ih (hc.suppressPoint h)

theorem suppress (hc : RegisterClosed P) {b : Bool} (h : P e.net) : P (e.suppress k b).net := hc.suppressPoints h

theorem suppressAll (hc : RegisterClosed P) {b : Bool} {l : List Nat} (h : P e.net) : P (e.suppressAll b l).net :=
  hc.suppressPoints h

/-! ### The users of lines -/

theorem lineUser (hc : RegisterClosed P) {due : List Nat} {b : Block} (h : P e.net) : P (e.lineUser due b).net := by
  cases b
  case vlc => exact Event.limitReports_keeps hc.valve _ _ h
  case srm => exact Event.trips_keeps hc.source _ _ h
  case lsc => exact Event.generalLines_keeps _ _ h
  all_goals exact h

theorem lineChanges (hc : RegisterClosed P) {due : List Nat} (h : P e.net) : P (e.lineChanges due).net :=
  Event.inAnyOrder_keeps (P := P) (fun _ _ hb => hc.lineUser hb) _ _ (hc.other e.net _ rfl rfl h)

theorem scan (hc : RegisterClosed P) {pins : BitVec 64} (h : P e.net) : P (e.scan pins).net := by
  have hlines (l : List LineScan) : P (e.setNet { e.net with lines := l }).net := hc.other e.net _ rfl rfl h
  unfold Event.scan
  dsimp only
  split
  · exact hlines _
  · exact hc.lineChanges (hlines _)

theorem lineChangeIfDue (hc : RegisterClosed P) {line : Nat} (h : P e.net) : P (e.lineChangeIfDue line).net := by
  unfold Event.lineChangeIfDue
  dsimp only
  split
  · exact hc.lineChanges h
  · exact h

end RegisterClosed

/-! ### Changes that leave the members of an outage -/

theorem memberSections_map {f : Member → Member} (hf : ∀ x, (f x).sect = x.sect) (l : List Member) :
    (l.map f).map Member.sect = l.map Member.sect := by
  rw [List.map_map]
  exact List.map_congr_left fun x _ => hf x

theorem memberSections_loadHolds (h : Nat) (l : List Member) : (loadHolds h l).map Member.sect = l.map Member.sect :=
  memberSections_map (f := fun x => { x with hold := h, confirmed := false }) (fun _ => rfl) l

theorem memberSections_reloadHold (k h : Nat) (o : Outage) : memberSections (reloadHold k h o) = memberSections o :=
  memberSections_map (fun x => by split <;> rfl) o.members

namespace RulesClosed

/-! ### Outages whose members stay (R95, R97 to R105) -/

theorem outageQuietly (hc : RulesClosed P) {f : Outage → Outage} (h : P e.net)
    (hf : ∀ o : Outage, (f o).number = o.number ∧ memberSections (f o) = memberSections o := by
      exact fun _ => ⟨rfl, rfl⟩) : P (e.outageQuietly n f).net := hc.records e.net n f hf h

theorem outage (hc : RulesClosed P) {f : Outage → Outage} (h : P e.net)
    (hf : ∀ o : Outage, (f o).number = o.number ∧ memberSections (f o) = memberSections o := by
      exact fun _ => ⟨rfl, rfl⟩) : P (e.outage n f).net := Event.markOutage_keeps n _ (hc.outageQuietly h hf)

theorem ruleDeclared (hc : RulesClosed P) (h : P e.net) : P (e.ruleDeclared n).net := by
  unfold Event.ruleDeclared
  split
  · exact h
  · split
    · exact hc.register.suppressAll (hc.outage h)
    · exact h

theorem ruleActive (hc : RulesClosed P) (h : P e.net) : P (e.ruleActive n).net := by
  unfold Event.ruleActive
  split
  · exact h
  · split
    · exact hc.outage h fun _ => ⟨rfl, memberSections_loadHolds _ _⟩
    · exact h

theorem ruleRecharging (hc : RulesClosed P) (h : P e.net) : P (e.ruleRecharging n).net := by
  unfold Event.ruleRecharging
  split
  · exact h
  · split
    · exact hc.outage h fun _ => ⟨rfl, memberSections_loadHolds _ _⟩
    · exact h

theorem setRelapse (hc : RulesClosed P) {b : Bool} (h : P e.net) : P (e.setRelapse n b).net := by
  unfold Event.setRelapse
  split
  · exact h
  · split
    · exact h
    · exact hc.outageQuietly h

theorem relapse (hc : RulesClosed P) (h : P e.net) : P (e.relapse n).net := by
  unfold Event.relapse
  split
  · exact h
  · split
    · exact hc.register.suppressAll (hc.setRelapse (hc.outage h fun _ => ⟨rfl, memberSections_loadHolds _ _⟩))
    · exact h

theorem ruleRelighting (hc : RulesClosed P) (h : P e.net) : P (e.ruleRelighting n).net := by
  unfold Event.ruleRelighting
  split
  · exact h
  · split
    · exact hc.relapse h
    · exact h

theorem rulesPublished (hc : RulesClosed P) {l : List Nat} (h : P e.net) : P (Event.rulesPublished l e).net := by
  induction l generalizing e with
  | nil => exact h
  | cons n t ih =>
    refine ih ?_
    unfold Event.rulePublished
    split
    · exact h
    · split
      · exact hc.ruleDeclared h
      · exact hc.ruleActive h
      · exact hc.ruleRecharging h
      · exact hc.ruleRelighting h

theorem unlinkOutage (hc : RulesClosed P) {o : Outage} (h : P e.net) : P (e.unlinkOutage o).net := by
  unfold Event.unlinkOutage
  split
  · exact h
  · exact Event.unlinkPlan_keeps hc.register.plan _ _ (hc.outageQuietly h)

/-! ### Samples and staleness (R98, R99, R104, R117, R125 to R127) -/

theorem pointReport (hc : RulesClosed P) {entered leftLow : Bool} (h : P e.net) :
    P (e.pointReport k entered leftLow).net := by
  unfold Event.pointReport
  split
  · exact h
  · split
    · exact h
    · split
      · exact hc.ruleActive h
      · exact h
    · split
      · exact h
      · exact hc.outageQuietly h fun _ => ⟨rfl, memberSections_reloadHold _ _ _⟩
    · split
      · exact hc.relapse h
      · exact h

theorem tellOutages (hc : RulesClosed P) {d : PointDef} {x y : Point} (h : P e.net) :
    P (tellOutages d x y e).net := by
  unfold Machine.tellOutages
  split
  · exact h
  · exact hc.pointReport h

theorem repoint (hc : RulesClosed P) {l : List CondKind} {d : PointDef} {x y : Point} (h : P e.net) :
    P (e.repoint l n d x y).net := by
  have htold := hc.tellOutages (d := d) (x := x) (y := y) (hc.register.relistAll (n := n) (l := l)
    (hc.register.point (n := n) (f := fun _ => y) h))
  have houtlet := Event.outlet_keeps hc.register.source n (isFreshLow y) _ htold
  unfold Event.repoint
  rw [pointReports_eq]
  split
  · split
    · exact hc.register.fallOnset htold
    · exact hc.register.fallOnset houtlet
  · split
    · exact htold
    · exact houtlet

theorem samples (hc : RulesClosed P) {l : List Sample} (h : P e.net) : P (Event.samples l e).1.net := by
  induction l generalizing e with
  | nil => exact h
  | cons x t ih =>
    refine ih ?_
    unfold Event.sample
    split
    · exact hc.repoint h
    · exact h

theorem stale (hc : RulesClosed P) (h : P e.net) : P (e.stale n).net := by
  unfold Event.stale
  split
  · exact hc.repoint h
  · exact h

theorem staleTicks (hc : RulesClosed P) {l : List Nat} (h : P e.net) : P (Event.staleTicks l e).net := by
  induction l generalizing e with
  | nil => exact h
  | cons n t ih =>
    refine ih ?_
    unfold Event.staleTick
    split
    · exact h
    · split
      · exact h
      · split
        · exact hc.stale (hc.register.point h)
        · exact hc.register.point h

theorem staleIfDue (hc : RulesClosed P) (h : P e.net) : P (e.staleIfDue n).net := by
  unfold Event.staleIfDue
  split
  · exact h
  · split
    · exact hc.stale h
    · exact h

end RulesClosed

namespace MembersClosed

/-! ### UNRECORDED_LOSS (R95) -/

theorem setUnrecorded (hc : MembersClosed P) {b : Bool} (h : P e.net) : P (e.setUnrecorded k b).net := by
  unfold Event.setUnrecorded
  split
  · exact h
  · split
    · exact h
    · exact hc.flags e.net k _ (fun _ => ⟨rfl, rfl⟩) h

theorem raiseUnrecorded (hc : MembersClosed P) {l : List Nat} (h : P e.net) : P (Event.raiseUnrecorded l e).net := by
  induction l generalizing e with
  | nil => exact h
  | cons k t ih => exact ih (hc.setUnrecorded h)

theorem clearUnrecorded (hc : MembersClosed P) {l : List Nat} (h : P e.net) : P (Event.clearUnrecorded l e).net := by
  induction l generalizing e with
  | nil => exact h
  | cons k t ih => exact ih (hc.setUnrecorded h)

end MembersClosed

end Sys2Proof.Machine
end

section
/-!
Which outage holds which section, and which section waits (R48, R88, R89): the invariant behind the record of losses,
and how a join, a leave and a freed record move it.
-/

namespace Sys2Proof.Machine

/-- Outage `j` has a member in section `k`. -/
def Net.Holds (n : Net) (j k : Nat) : Prop := ∃ o, outageAt j n = some o ∧ k ∈ memberSections o

/-- Published state and awaiting-outage flag of a section. -/
def Net.lossView (n : Net) (k : Nat) : Option (Supply × Bool) :=
  (lookup k n.sections).map fun z => (z.supply, z.awaiting)

/-- The two tables are in form; `R` says which outage holds which section, `V` what is published of each section. -/
structure Net.LossShape (R : Nat → Nat → Prop) (V : Nat → Option (Supply × Bool)) (n : Net) : Prop where
  sections : n.sections.wf = true
  outages : Table.Within 32 n.outages
  numbers : Table.Numbered Outage.number n.outages
  holds : n.Holds = R
  view : n.lossView = V

/-- No section is in two outages, and a section waits exactly where it is UNSUPPLIED and in none. -/
structure LossesOf (R : Nat → Nat → Prop) (V : Nat → Option (Supply × Bool)) : Prop where
  apart : ∀ i j k, R i k → R j k → i = j
  waits : ∀ k s w, V k = some (s, w) → (w = true ↔ s = .unsupplied ∧ ∀ j, ¬ R j k)

/-- The invariant of the network blocks. -/
def Net.Losses (n : Net) : Prop := n.LossShape n.Holds n.lossView ∧ LossesOf n.Holds n.lossView

variable {R : Nat → Nat → Prop} {V : Nat → Option (Supply × Bool)} {a b : Net} {e : Event} {n k j : Nat} {o : Outage}

theorem Net.LossShape.losses (h : a.LossShape R V) (hl : LossesOf R V) : a.Losses := by
  obtain rfl := h.holds
  obtain rfl := h.view
  exact ⟨h, hl⟩

/-! ### Membership -/

theorem holds_congr (h : b.outages = a.outages) : b.Holds = a.Holds := by
  unfold Net.Holds outageAt
  rw [h]

theorem lossView_congr (h : b.sections = a.sections) : b.lossView = a.lossView := by
  unfold Net.lossView
  rw [h]

/-- The outage of a number after one record was changed. -/
theorem outageAt_mapTable {f : Outage → Outage} (hf : ∀ o, (f o).number = o.number) :
    outageAt j { a with outages := mapTable (fun _ o => if o.number = n then f o else o) a.outages }
      = (outageAt j a).map fun o => if o.number = n then f o else o := by
  unfold outageAt
  rw [outageNumbered_mapTable fun i o => by
    split
    · exact hf o
    · rfl]
  rw [Option.map_map, Option.map_map]
  rfl

theorem holds_mapTable {f : Outage → Outage} (hf : ∀ o, (f o).number = o.number) :
    Net.Holds { a with outages := mapTable (fun _ o => if o.number = n then f o else o) a.outages } j k
      ↔ ∃ o, outageAt j a = some o ∧ k ∈ memberSections (if j = n then f o else o) := by
  unfold Net.Holds
  rw [outageAt_mapTable hf]
  constructor
  · rintro ⟨_, hmapped, hk⟩
    obtain ⟨o, ho, rfl⟩ := Option.map_eq_some_iff.1 hmapped
    rw [outageAt_number ho] at hk
    exact ⟨o, ho, hk⟩
  · rintro ⟨o, ho, hk⟩
    exact ⟨if j = n then f o else o, by simp [ho, outageAt_number ho], hk⟩

theorem lossView_adjust {f : Sect → Sect} :
    Net.lossView { a with sections := adjust k f a.sections } j
      = (lookup j a.sections).map fun z =>
        if j = k then ((f z).supply, (f z).awaiting) else (z.supply, z.awaiting) := by
  unfold Net.lossView
  by_cases hj : j = k
  · subst hj
    simp [Function.comp_def]
  · simp [lookup_adjust_other hj, hj]

/-- The shape is kept by everything that joins no section, drops none and lets none wait. -/
theorem lossShape_closed (R : Nat → Nat → Prop) (V : Nat → Option (Supply × Bool)) :
    MembersClosed (Net.LossShape R V) := by
  have hrecords (n : Net) (j : Nat) (f : Outage → Outage)
      (hf : ∀ o : Outage, (f o).number = o.number ∧ memberSections (f o) = memberSections o) (h : n.LossShape R V) :
      Net.LossShape R V { n with outages := mapTable (fun _ o => if o.number = j then f o else o) n.outages } := by
    have hnumber (o : Outage) : (f o).number = o.number := (hf o).1
    refine ⟨h.sections, h.outages.mapTable, h.numbers.mapTable fun _ o => ?_, ?_, h.view⟩
    · split
      · exact hnumber o
      · rfl
    · rw [← h.holds]
      funext i k
      refine propext ((holds_mapTable hnumber).trans ?_)
      have hsame (o : Outage) : memberSections (if i = j then f o else o) = memberSections o := by
        split
        · exact (hf o).2
        · rfl
      simp only [hsame]
      rfl
  have hflags (n : Net) (k : Nat) (f : Sect → Sect)
      (hf : ∀ z : Sect, (f z).supply = z.supply ∧ (f z).awaiting = z.awaiting) (h : n.LossShape R V) :
      Net.LossShape R V { n with sections := adjust k f n.sections } := by
    refine ⟨(Table.wf_adjust k f _).trans h.sections, h.outages, h.numbers, h.holds, ?_⟩
    rw [← h.view]
    funext j
    rw [lossView_adjust]
    simp [hf, Net.lossView]
  exact {
    other := fun n n' hs ho h => ⟨hs ▸ h.sections, ho ▸ h.outages, ho ▸ h.numbers,
      (holds_congr ho).trans h.holds, (lossView_congr hs).trans h.view⟩
    counters := fun n k f hf => hflags n k f fun z => ⟨(hf z).1, (hf z).2.1⟩
    links := fun n j f => hrecords n j _ fun _ => ⟨rfl, rfl⟩
    flags := hflags
    records := hrecords }

theorem losses_closed : MembersClosed Net.Losses where
  other n n' hs ho h := ((lossShape_closed _ _).other n n' hs ho h.1).losses h.2
  counters n k f hf h := ((lossShape_closed _ _).counters n k f hf h.1).losses h.2
  links n j f h := ((lossShape_closed _ _).links n j f h.1).losses h.2
  flags n k f hf h := ((lossShape_closed _ _).flags n k f hf h.1).losses h.2
  records n j f hf h := ((lossShape_closed _ _).records n j f hf h.1).losses h.2

/-! ### One join (R88) -/

/-- Section `k` added to outage `n`. -/
def addHold (R : Nat → Nat → Prop) (n k : Nat) (i l : Nat) : Prop := R i l ∨ (i = n ∧ l = k)

/-- Section `k` taken out of outage `n`. -/
def dropHold (R : Nat → Nat → Prop) (n k : Nat) (i l : Nat) : Prop := R i l ∧ ¬ (i = n ∧ l = k)

/-- Section `k` with another awaiting-outage flag. -/
def flagView (V : Nat → Option (Supply × Bool)) (k : Nat) (w : Bool) (j : Nat) : Option (Supply × Bool) :=
  (V j).map fun x => (x.1, if j = k then w else x.2)

theorem mem_insertMember {l : List Member} :
    j ∈ (insertMember k l).map Member.sect ↔ j = k ∨ j ∈ l.map Member.sect :=
  ((insertBy_perm _ _ l).map Member.sect).mem_iff.trans List.mem_cons

theorem Net.LossShape.sectFlag {f : Sect → Sect} {w : Bool} (h : a.LossShape R V)
    (hf : ∀ z : Sect, (f z).supply = z.supply ∧ (f z).awaiting = w) :
    Net.LossShape R (flagView V k w) { a with sections := adjust k f a.sections } := by
  refine ⟨(Table.wf_adjust k f _).trans h.sections, h.outages, h.numbers, h.holds, ?_⟩
  rw [← h.view]
  funext j
  rw [lossView_adjust]
  unfold flagView Net.lossView
  rw [Option.map_map]
  congr 1
  funext z
  by_cases hj : j = k <;> simp [hj, hf]

theorem Net.LossShape.changeMembers {f : Outage → Outage} {R' : Nat → Nat → Prop} (h : a.LossShape R V)
    (hf : ∀ o, (f o).number = o.number) (hother : ∀ i l, i ≠ n → (R' i l ↔ R i l))
    (hown : ∀ o l, outageAt n a = some o → (R' n l ↔ l ∈ memberSections (f o))) (ho : outageAt n a = some o) :
    Net.LossShape R' V { a with outages := mapTable (fun _ o => if o.number = n then f o else o) a.outages } := by
  refine ⟨h.sections, h.outages.mapTable, h.numbers.mapTable fun _ o => ?_, ?_, h.view⟩
  · split
    · exact hf o
    · rfl
  · funext i l
    refine propext ((holds_mapTable hf).trans ?_)
    by_cases hi : i = n
    · subst hi
      rw [hown o l ho, ho]
      simp
    · rw [hother i l hi, ← h.holds]
      simp only [if_neg hi]
      rfl

theorem holds_own (ho : outageAt n a = some o) (l : Nat) : a.Holds n l ↔ l ∈ memberSections o := by
  unfold Net.Holds
  rw [ho]
  simp

theorem Net.LossShape.stopAwaiting (h : e.net.LossShape R V) :
    (e.stopAwaiting k).net.LossShape R (flagView V k false) := by
  have hsame (hk : ∀ z, lookup k e.net.sections = some z → z.awaiting = false) : flagView V k false = V := by
    rw [← h.view]
    funext j
    unfold flagView Net.lossView
    cases hz : lookup j e.net.sections with
    | none => rfl
    | some z =>
      by_cases hj : j = k
      · subst hj
        simp [hk z hz]
      · simp [hj]
  unfold Event.stopAwaiting
  cases hz : lookup k e.net.sections with
  | none =>
    rw [hsame fun z h => by rw [hz] at h; cases h]
    exact h
  | some x =>
    dsimp only
    split
    · exact (lossShape_closed _ _).setUnrecorded
        (h.sectFlag (k := k) (f := fun y => { y with awaiting := false }) fun _ => ⟨rfl, rfl⟩)
    · next hx =>
      rw [hsame fun z h => by
        obtain rfl := Option.some.inj (hz.symm.trans h)
        simpa using hx]
      exact h

theorem Net.LossShape.join (h : e.net.LossShape R V) (ho : outageAt n e.net = some o) :
    (e.join n k).net.LossShape (addHold R n k) (flagView V k false) := by
  have hjoined : (e.outage n (joined e.image k)).net.LossShape (addHold R n k) V := by
    rw [outage_net]
    refine h.changeMembers (f := joined e.image k) (fun _ => rfl) (fun i l hi => ?_) (fun o l ho => ?_) ho
    · simp [addHold, hi]
    · simp only [addHold, ← h.holds, holds_own ho, true_and]
      exact or_comm.trans mem_insertMember.symm
  have hlinked := (lossShape_closed _ _).register.linkSection (o := n) (k := k) (hjoined.stopAwaiting (k := k))
  unfold Event.join
  rw [ho]
  dsimp only
  split
  · exact (lossShape_closed _ _).register.suppress hlinked
  · exact hlinked

theorem LossesOf.join (h : LossesOf R V) (hk : ∀ i, R i k → i = n) : LossesOf (addHold R n k) (flagView V k false) where
  apart i j l hi hj := by
    rcases hi with hi | ⟨hi, hl⟩ <;> rcases hj with hj | ⟨hj, hl'⟩
    · exact h.apart i j l hi hj
    · exact (hk i (hl' ▸ hi)).trans hj.symm
    · exact hi.trans (hk j (hl ▸ hj)).symm
    · exact hi.trans hj.symm
  waits l s w hl := by
    obtain ⟨⟨s', w'⟩, hv, heq⟩ := Option.map_eq_some_iff.1 hl
    obtain ⟨rfl, rfl⟩ := Prod.mk.inj heq
    by_cases hlk : l = k
    · subst hlk
      simp only [if_true, Bool.false_eq_true, false_iff, not_and, not_forall, not_not]
      exact fun _ => ⟨n, .inr ⟨rfl, rfl⟩⟩
    · simp only [addHold, hlk, and_false, or_false]
      exact h.waits l s' w' hv

/-! ### One leave (R89) -/

theorem supplyAt_view {s : Supply} {w : Bool} (h : e.net.lossView k = some (s, w)) : supplyAt e.net k = s := by
  obtain ⟨z, hz, heq⟩ := Option.map_eq_some_iff.1 h
  obtain ⟨rfl, _⟩ := Prod.mk.inj heq
  simp [supplyAt, hz]

theorem Net.LossShape.leave (h : e.net.LossShape R V) (ho : outageAt n e.net = some o) :
    (e.leave n k).net.LossShape (dropHold R n k) (if supplyAt e.net k = .unsupplied then flagView V k true else V) := by
  have hleft : (e.outage n (left e.image k)).net.LossShape (dropHold R n k) V := by
    rw [outage_net]
    refine h.changeMembers (f := left e.image k) (fun _ => rfl) (fun i l hi => ?_) (fun o l ho => ?_) ho
    · simp [dropHold, hi]
    · simp only [dropHold, ← h.holds, holds_own ho, true_and, memberSections, left, List.mem_map, List.mem_filter]
      constructor
      · rintro ⟨⟨x, hx, rfl⟩, hne⟩
        exact ⟨x, ⟨hx, by simpa using hne⟩, rfl⟩
      · rintro ⟨x, ⟨hx, hne⟩, rfl⟩
        exact ⟨⟨x, hx, rfl⟩, by simpa using hne⟩
  have hstarted : (if supplyAt e.net k = .unsupplied then (e.outage n (left e.image k)).startAwaiting k
      else e.outage n (left e.image k)).net.LossShape (dropHold R n k)
        (if supplyAt e.net k = .unsupplied then flagView V k true else V) := by
    split
    · exact hleft.sectFlag (f := fun y => { y with awaiting := true }) fun _ => ⟨rfl, rfl⟩
    · exact hleft
  have hunlinked := (lossShape_closed _ _).register.unlinkSection (o := n) (k := k) hstarted
  have hsuppressed := (lossShape_closed _ _).register.suppress (k := k) (b := false) hunlinked
  unfold Event.leave
  rw [ho]
  dsimp only
  by_cases hs : suppresses o.state = true
  · simpa only [if_pos hs] using hsuppressed
  · simpa only [if_neg hs] using hunlinked

theorem LossesOf.leave {x : Supply} (h : LossesOf R V) (hk : ∀ i, R i k → i = n)
    (hx : ∀ s w, V k = some (s, w) → x = s) :
    LossesOf (dropHold R n k) (if x = .unsupplied then flagView V k true else V) where
  apart i j l hi hj := h.apart i j l hi.1 hj.1
  waits l s w hl := by
    by_cases hlk : l = k
    · subst hlk
      have hnone : ∀ j, ¬ dropHold R n l j l := fun j hj => hj.2 ⟨hk j hj.1, rfl⟩
      split at hl
      · next hu =>
        obtain ⟨⟨s', w'⟩, hv, heq⟩ := Option.map_eq_some_iff.1 hl
        obtain ⟨rfl, rfl⟩ := Prod.mk.inj heq
        simp [← hx s' w' hv, hu, hnone]
      · next hu =>
        have hs : s ≠ .unsupplied := hx s w hl ▸ hu
        have hw := h.waits l s w hl
        simp only [hs, false_and, iff_false] at hw ⊢
        exact hw
    · have hv : V l = some (s, w) := by
        split at hl
        · obtain ⟨⟨s', w'⟩, hv, heq⟩ := Option.map_eq_some_iff.1 hl
          simp only [if_neg hlk] at heq
          rw [hv, heq]
        · exact hl
      simp only [dropHold, hlk, and_false, not_false_eq_true, and_true]
      exact h.waits l s w hv

/-! ### Joins and leaves of the sections of one outage -/

theorem joins_losses {l : List Nat} (h : e.net.Losses) (hl : ∀ k ∈ l, ∀ i, e.net.Holds i k → i = n) :
    (e.joins n l).net.Losses ∧ ∀ i k, (e.joins n l).net.Holds i k → e.net.Holds i k ∨ (i = n ∧ k ∈ l) := by
  induction l generalizing e with
  | nil => exact ⟨h, fun i k hk => .inl hk⟩
  | cons k t ih =>
    obtain ⟨hk, ht⟩ := List.forall_mem_cons.1 hl
    cases ho : outageAt n e.net with
    | none =>
      have hjoin : e.join n k = e := by simp [Event.join, ho]
      simp only [Event.joins, hjoin]
      obtain ⟨hlosses, hholds⟩ := ih h ht
      exact ⟨hlosses, fun i k hik => (hholds i k hik).imp_right fun ⟨hi, hk⟩ => ⟨hi, List.mem_cons_of_mem _ hk⟩⟩
    | some o =>
      have hshape := h.1.join (k := k) ho
      obtain ⟨hlosses, hholds⟩ := ih (hshape.losses (h.2.join hk)) fun l hl i hi => by
        rw [hshape.holds] at hi
        exact hi.elim (ht l hl i) And.left
      refine ⟨hlosses, fun i l hil => ?_⟩
      rcases hholds i l hil with hil | ⟨hi, hl⟩
      · rw [hshape.holds] at hil
        exact hil.imp_right fun ⟨hi, hl⟩ => ⟨hi, hl ▸ List.mem_cons_self ..⟩
      · exact .inr ⟨hi, List.mem_cons_of_mem _ hl⟩

theorem leaves_losses {l : List Nat} (h : e.net.Losses) (hl : ∀ k ∈ l, ∀ i, e.net.Holds i k → i = n) :
    (e.leaves n l).net.Losses ∧ ∀ i k, (e.leaves n l).net.Holds i k → e.net.Holds i k ∧ ¬ (i = n ∧ k ∈ l) := by
  induction l generalizing e with
  | nil => exact ⟨h, fun i k hk => ⟨hk, by simp⟩⟩
  | cons k t ih =>
    obtain ⟨hk, ht⟩ := List.forall_mem_cons.1 hl
    cases ho : outageAt n e.net with
    | none =>
      have hleave : e.leave n k = e := by simp [Event.leave, ho]
      simp only [Event.leaves, hleave]
      obtain ⟨hlosses, hholds⟩ := ih h ht
      refine ⟨hlosses, fun i l hil => ⟨(hholds i l hil).1, ?_⟩⟩
      rintro ⟨rfl, -⟩
      obtain ⟨o, ho', -⟩ := (hholds i l hil).1
      rw [ho] at ho'
      cases ho'
    | some o =>
      have hshape := h.1.leave (k := k) ho
      obtain ⟨hlosses, hholds⟩ := ih
        (hshape.losses (h.2.leave hk fun s w hv => supplyAt_view hv)) fun l hl i hi => by
        rw [hshape.holds] at hi
        exact ht l hl i hi.1
      refine ⟨hlosses, fun i l hil => ?_⟩
      obtain ⟨hbefore, hrest⟩ := hholds i l hil
      rw [hshape.holds] at hbefore
      refine ⟨hbefore.1, ?_⟩
      rintro ⟨hi, hl⟩
      rcases List.mem_cons.1 hl with rfl | hl
      · exact hbefore.2 ⟨hi, rfl⟩
      · exact hrest ⟨hi, hl⟩

/-- Every member of an outage leaves it. -/
theorem leaves_all {l : List Nat} (h : e.net.Losses) (hl : ∀ k, e.net.Holds n k ↔ k ∈ l) :
    (e.leaves n l).net.Losses ∧ ∀ k, ¬ (e.leaves n l).net.Holds n k := by
  obtain ⟨hlosses, hholds⟩ := leaves_losses (n := n) h fun k hk i hi => h.2.apart i n k hi ((hl k).2 hk)
  refine ⟨hlosses, fun k hk => ?_⟩
  obtain ⟨hbefore, hrest⟩ := hholds n k hk
  exact hrest ⟨rfl, (hl k).1 hbefore⟩

/-! ### A freed record (R106, R107) -/

theorem dropOutage_losses (h : e.net.Losses) (hn : ∀ k, ¬ e.net.Holds n k) : (e.dropOutage n).net.Losses := by
  have hshape : (e.dropOutage n).net.LossShape e.net.Holds e.net.lossView := by
    refine ⟨h.1.sections, h.1.outages.filter, h.1.numbers.filter, ?_, rfl⟩
    funext i k
    by_cases hi : i = n
    · subst hi
      refine propext (iff_of_false ?_ (hn k))
      rintro ⟨o, ho, -⟩
      obtain ⟨x, hx, rfl⟩ := Option.map_eq_some_iff.1 ho
      obtain ⟨hmem, hnumber⟩ := outageNumbered_mem hx
      have := (List.mem_filter.1 hmem).2
      simp [hnumber] at this
    · unfold Net.Holds outageAt
      rw [show (e.dropOutage n).net.outages = e.net.outages.filter fun x => x.2.number != n from rfl,
        outageNumbered_filter (Ne.symm hi)]
  exact hshape.losses h.2

/-! ### A new record (R87) -/

/-- A new outage before any section joins. -/
def Event.emptyOutage (idx : Nat) (c : Cause) (st : OutageState) (plan : Option Nat) (e : Event) : Event :=
  (e.setNet
    { e.net with
      outages := put idx (newOutage (nextOutage e.net) c st plan e.clock) e.net.outages
      lastOutage := nextOutage e.net }).markOutage (nextOutage e.net)

theorem emptyOutage_net (idx : Nat) (c : Cause) (st : OutageState) (plan : Option Nat) (e : Event) :
    (e.emptyOutage idx c st plan).net = { e.net with
      outages := put idx (newOutage (nextOutage e.net) c st plan e.clock) e.net.outages
      lastOutage := nextOutage e.net } := Event.markOutage_net _ _

theorem createOutage_eq (idx : Nat) (c : Cause) (st : OutageState) (plan : Option Nat) (l : List Nat) (e : Event) :
    e.createOutage idx c st plan l = (e.emptyOutage idx c st plan).joins (nextOutage e.net) l := rfl

theorem nextOutage_fresh (h : Table.Within 32 a.outages) : nextOutage a ∉ a.outages.map (fun x => x.2.number) := by
  have hlength := h.length_le
  unfold nextOutage
  rw [← List.length_map (as := a.outages) (fun x => x.2.number)]
  exact nextNumber_notMem _ (by simp; omega)

theorem outageAt_none_of_fresh (h : n ∉ a.outages.map (fun x => x.2.number)) : outageAt n a = none := by
  cases ho : outageAt n a with
  | none => rfl
  | some o =>
    obtain ⟨x, hx, rfl⟩ := Option.map_eq_some_iff.1 ho
    obtain ⟨hmem, hnumber⟩ := outageNumbered_mem hx
    exact absurd (List.mem_map.2 ⟨x, hmem, hnumber⟩) h

variable {idx : Nat} {c : Cause} {st : OutageState} {plan : Option Nat} {l : List Nat}

/-- A new record stands under its number, and no other number is touched. -/
theorem emptyOutage_outageAt (h : Table.Within 32 e.net.outages) (hfree : lookup idx e.net.outages = none) :
    outageAt j (e.emptyOutage idx c st plan).net
      = if j = nextOutage e.net then some (newOutage j c st plan e.clock) else outageAt j e.net := by
  rw [emptyOutage_net]
  split
  · next hj =>
    subst hj
    have hfresh := nextOutage_fresh h
    cases ho : outageNumbered (nextOutage e.net)
        (put idx (newOutage (nextOutage e.net) c st plan e.clock) e.net.outages) with
    | none => exact absurd rfl (outageNumbered_none ho (idx, _) (mem_of_lookup (lookup_put_same idx _ _)))
    | some x =>
      obtain ⟨hmem, hnumber⟩ := outageNumbered_mem ho
      rcases mem_put hmem with rfl | hmem
      · exact congrArg (Option.map Prod.snd) ho
      · exact absurd (List.mem_map.2 ⟨x, hmem, hnumber⟩) hfresh
  · next hj =>
    exact congrArg (Option.map Prod.snd)
      (outageNumbered_put (o := newOutage (nextOutage e.net) c st plan e.clock) (Ne.symm hj) hfree)

theorem Net.LossShape.emptyOutage (h : e.net.LossShape R V) (hfree : lookup idx e.net.outages = none)
    (hidx : idx < 32) : (e.emptyOutage idx c st plan).net.LossShape R V := by
  have hfresh := nextOutage_fresh h.outages
  have hholds : (e.emptyOutage idx c st plan).net.Holds = R := by
    rw [← h.holds]
    funext i k
    unfold Net.Holds
    rw [emptyOutage_outageAt h.outages hfree]
    split
    · next hi => simp [hi, memberSections, newOutage, outageAt_none_of_fresh hfresh]
    · rfl
  rw [emptyOutage_net] at hholds ⊢
  exact ⟨h.sections, h.outages.put hidx, h.numbers.put hfresh, hholds, h.view⟩

theorem createOutage_losses (h : e.net.Losses) (hfree : lookup idx e.net.outages = none) (hidx : idx < 32)
    (hl : ∀ k ∈ l, ∀ i, ¬ e.net.Holds i k) :
    (e.createOutage idx c st plan l).net.Losses
      ∧ ∀ i k, (e.createOutage idx c st plan l).net.Holds i k → e.net.Holds i k ∨ k ∈ l := by
  have hempty := h.1.emptyOutage (c := c) (st := st) (plan := plan) hfree hidx
  rw [createOutage_eq]
  obtain ⟨hlosses, hholds⟩ := joins_losses (n := nextOutage e.net) (l := l) (hempty.losses h.2) fun k hk i hi =>
    absurd (hempty.holds ▸ hi) (hl k hk i)
  refine ⟨hlosses, fun i k hik => (hholds i k hik).imp (fun hik => hempty.holds ▸ hik) And.right⟩

end Sys2Proof.Machine
end

section
/-!
The Outage Table keeps the record of losses (R94, R96, R100, R102, R106, R107): gathering, the freeing of a record, and
the rules that can free one.
-/

namespace Sys2Proof.Machine

variable {e : Event} {n k : Nat} {o : Outage}

/-! ### Gathering (R94) -/

theorem mem_of_mem_groupsOf {α : Type} {m fuel : Nat} {l g : List α} {x : α} (hg : g ∈ groupsOf m fuel l) (hx : x ∈ g) :
    x ∈ l := by
  induction fuel generalizing l with
  | zero => cases hg
  | succ fuel ih =>
    cases l with
    | nil => cases hg
    | cons y t =>
      rcases List.mem_cons.1 hg with rfl | hg
      · exact List.mem_of_mem_take hx
      · exact List.mem_of_mem_drop (ih hg)

/-- The groups of a gathering share no section. -/
theorem groupsOf_apart {α : Type} {m fuel : Nat} {l : List α} (h : l.Nodup) :
    (groupsOf m fuel l).Pairwise fun g g' => ∀ x ∈ g, x ∉ g' := by
  induction fuel generalizing l with
  | zero => exact .nil
  | succ fuel ih =>
    cases l with
    | nil => exact .nil
    | cons y t =>
      refine .cons (fun g hg x hx hxg => ?_) (ih (h.sublist (List.drop_sublist _ _)))
      have hdrop := mem_of_mem_groupsOf hg hxg
      rw [← List.take_append_drop m (y :: t)] at h
      exact (List.nodup_append.1 h).2.2 x hx x hdrop rfl

theorem gatherGroups_losses {l : List (List Nat)} (h : e.net.Losses) (hapart : l.Pairwise fun g g' => ∀ k ∈ g, k ∉ g')
    (hl : ∀ g ∈ l, ∀ k ∈ g, ∀ i, ¬ e.net.Holds i k) : (Event.gatherGroups l e).net.Losses := by
  induction l generalizing e with
  | nil => exact h
  | cons g t ih =>
    obtain ⟨hg, ht⟩ := List.forall_mem_cons.1 hl
    obtain ⟨happart, hrest⟩ := List.pairwise_cons.1 hapart
    unfold Event.gatherGroups
    split
    · exact h
    · next idx hidx =>
      obtain ⟨hlosses, hholds⟩ := createOutage_losses (c := .supplyLoss) (st := .active) (plan := none) h
        (lowestFree_spec hidx).1 (lowestFree_lt hidx) hg
      refine ih hlosses hrest fun g' hg' k hk i hi => ?_
      rcases hholds i k hi with hi | hkg
      · exact ht g' hg' k hk i hi
      · exact happart g' hg' k hkg hk

theorem waiting_view {a : Net} (h : a.sections.wf = true) (hk : k ∈ waiting a) :
    ∃ s, a.lossView k = some (s, true) := by
  obtain ⟨z, hz, haw⟩ := (mem_keys_filter h).1 hk
  exact ⟨z.supply, by rw [Net.lossView, hz]; exact congrArg (fun w => some (z.supply, w)) haw⟩

theorem waiting_notHeld {a : Net} (h : a.Losses) (hk : k ∈ waiting a) (i : Nat) : ¬ a.Holds i k := by
  obtain ⟨s, hs⟩ := waiting_view h.1.sections hk
  exact ((h.2.waits k s true hs).1 rfl).2 i

theorem waiting_nodup {a : Net} (h : a.sections.wf = true) : (waiting a).Nodup := keys_nodup (Table.wf_filter _ h)

theorem gather_losses (h : e.net.Losses) : e.gather.net.Losses :=
  losses_closed.raiseUnrecorded (gatherGroups_losses h (groupsOf_apart (waiting_nodup h.1.sections))
    fun _ hg _ hk => waiting_notHeld h (mem_of_mem_groupsOf hg hk))

theorem gatherIfFreed_losses {m : Nat} (h : e.net.Losses) : (e.gatherIfFreed m).net.Losses := by
  unfold Event.gatherIfFreed
  split
  · exact gather_losses h
  · exact h

/-! ### Freeing (R102, R106, R107) -/

theorem complete_losses (h : e.net.Losses) : (e.complete n).net.Losses := by
  unfold Event.complete
  split
  · exact h
  · next o ho =>
    have hclosed := lossShape_closed e.net.Holds e.net.lossView
    have hunlinked := hclosed.rules.setRelapse (n := n) (b := false) (hclosed.rules.unlinkOutage (o := o)
      (hclosed.register.completeCalls (l := callsWhere (fun c => c.outage == some n) e.net) h.1))
    obtain ⟨hlosses, hnone⟩ := leaves_all (n := n) (l := memberSections o) (hunlinked.losses h.2) fun k => by
      rw [hunlinked.holds]
      exact holds_own ho k
    exact dropOutage_losses hlosses hnone

theorem abandon_losses {byTrim : Bool} (h : e.net.Losses) : (e.abandon byTrim n).net.Losses := by
  unfold Event.abandon
  split
  · exact h
  · next o ho =>
    obtain ⟨hlosses, hnone⟩ := leaves_all (n := n) (l := memberSections o) h fun k => holds_own ho k
    have hclosed := lossShape_closed (Event.leaves n (memberSections o) e).net.Holds
      (Event.leaves n (memberSections o) e).net.lossView
    have hrelapse := hclosed.rules.setRelapse (n := n) (b := false) hlosses.1
    dsimp only
    split
    · have hunlinked := hclosed.rules.unlinkOutage (o := o) hrelapse
      exact dropOutage_losses (hunlinked.losses hlosses.2) fun k hk => hnone k (hunlinked.holds ▸ hk)
    · exact dropOutage_losses (hrelapse.losses hlosses.2) fun k hk => hnone k (hrelapse.holds ▸ hk)

theorem ruleConfirmed_losses (h : e.net.Losses) : (e.ruleConfirmed n).net.Losses := by
  unfold Event.ruleConfirmed
  split
  · exact h
  · split
    · have hrelit := losses_closed.register.suppressAll (b := false) (l := memberSections ‹_›)
        (losses_closed.rules.setRelapse (n := n) (b := false)
          (losses_closed.rules.outage (n := n) (f := fun x => { x with state := .relighting }) h))
      dsimp only
      split
      · exact complete_losses hrelit
      · exact hrelit
    · exact h

theorem ruleTrimmed_losses (h : e.net.Losses) : (e.ruleTrimmed n).net.Losses := by
  unfold Event.ruleTrimmed
  split
  · exact h
  · split
    · exact h
    · exact losses_closed.rules.ruleActive h
    · exact ruleConfirmed_losses h
    · split
      · exact complete_losses h
      · exact h

theorem trim_losses {l : List Nat} (h : e.net.Losses) (hl : ∀ k ∈ l, e.net.Holds n k) : (e.trim n l).net.Losses := by
  have hleft := (leaves_losses (n := n) h fun k hk i hi => h.2.apart i n k hi (hl k hk)).1
  unfold Event.trim
  split
  · exact h
  · dsimp only
    split
    · exact hleft
    · split
      · exact gather_losses (abandon_losses hleft)
      · exact gather_losses (ruleTrimmed_losses hleft)

/-! ### Holds (R99, R101, R102) -/

theorem memberSections_tick (m : Image) (a : Net) (l : List Member) :
    (l.map (tickMember m a)).map Member.sect = l.map Member.sect :=
  memberSections_map (fun x => by
    unfold tickMember
    split
    · rfl
    · split <;> rfl) l

theorem memberSections_confirm (k : Nat) (o : Outage) : memberSections (confirmMember k o) = memberSections o :=
  memberSections_map (fun x => by split <;> rfl) o.members

theorem holdTick_losses (h : e.net.Losses) : (e.holdTick n).net.Losses := by
  unfold Event.holdTick
  split
  · exact h
  · split
    · exact ruleConfirmed_losses (losses_closed.rules.outageQuietly h fun _ => ⟨rfl, memberSections_tick _ _ _⟩)
    · exact h

theorem holdTicks_losses {l : List Nat} (h : e.net.Losses) : (Event.holdTicks l e).net.Losses := by
  induction l generalizing e with
  | nil => exact h
  | cons n t ih => exact ih (holdTick_losses h)

theorem outageTick_losses (h : e.net.Losses) : e.outageTick.net.Losses := gatherIfFreed_losses (holdTicks_losses h)

theorem confirmSection_losses (h : e.net.Losses) : (e.confirmSection n k).net.Losses :=
  gatherIfFreed_losses (ruleConfirmed_losses
    (losses_closed.rules.outageQuietly h fun o => ⟨rfl, memberSections_confirm k o⟩))

theorem holdIfDue_losses (h : e.net.Losses) : (e.holdIfDue n k).net.Losses := by
  unfold Event.holdIfDue
  split
  · exact h
  · split
    · exact confirmSection_losses h
    · exact h

/-! ### Counts of premises (R103) -/

theorem countPremises_losses {relit : Bool} (h : e.net.Losses) : (e.countPremises relit n k o).net.Losses := by
  have hmoved := losses_closed.rules.outage (n := n) (f := movePremises relit k) h fun o => by
    unfold movePremises
    split <;> exact ⟨rfl, rfl⟩
  unfold Event.countPremises
  dsimp only
  split
  · exact gather_losses (complete_losses hmoved)
  · exact hmoved

/-! ### Publication (R47, R48, R96) -/

theorem outageOf_member {t : Table Outage} (h : outageOf k t = some o) : ∃ i, (i, o) ∈ t ∧ k ∈ memberSections o := by
  induction t with
  | nil => cases h
  | cons x t ih =>
    unfold outageOf at h
    split at h
    · next hx =>
      obtain rfl := Option.some.inj h
      obtain ⟨y, hy, hk⟩ := List.any_eq_true.1 hx
      exact ⟨_, List.mem_cons_self .., List.mem_map.2 ⟨y, hy, by simpa using hk⟩⟩
    · obtain ⟨i, hi, hk⟩ := ih h
      exact ⟨i, List.mem_cons_of_mem _ hi, hk⟩

theorem outageOf_none {t : Table Outage} (h : outageOf k t = none) : ∀ x ∈ t, k ∉ memberSections x.2 := by
  induction t with
  | nil => exact fun _ hx => (nomatch hx)
  | cons x t ih =>
    unfold outageOf at h
    split at h
    · cases h
    · next hx =>
      refine List.forall_mem_cons.2 ⟨fun hk => hx ?_, ih h⟩
      obtain ⟨y, hy, hk⟩ := List.mem_map.1 hk
      exact List.any_eq_true.2 ⟨y, hy, by simpa using hk⟩

theorem outageOf_holds {a : Net} (h : Table.Numbered Outage.number a.outages) (ho : outageOf k a.outages = some o) :
    outageAt o.number a = some o ∧ k ∈ memberSections o := by
  obtain ⟨i, hmem, hk⟩ := outageOf_member ho
  exact ⟨outageAt_of_mem h hmem, hk⟩

theorem outageOf_none_iff {a : Net} (h : Table.Numbered Outage.number a.outages) :
    outageOf k a.outages = none ↔ ∀ i, ¬ a.Holds i k := by
  constructor
  · rintro hnone i ⟨o, ho, hk⟩
    obtain ⟨x, hx, rfl⟩ := Option.map_eq_some_iff.1 ho
    exact outageOf_none hnone x (outageNumbered_mem hx).1 hk
  · intro hnone
    cases ho : outageOf k a.outages with
    | none => rfl
    | some o => exact absurd ⟨o, outageOf_holds h ho⟩ (hnone o.number)

/-- A section that a publication makes UNSUPPLIED waits unless an outage holds it, and no other section waits. -/
theorem publishAll_losses {m : Image} {a : Net} {x : Snapshot} {r : Word} (h : a.Losses) :
    Net.Losses { a with sections := publishAll m x a.outages a.sections, supply := r } := by
  have hshape : Net.LossShape a.Holds
      (Net.lossView { a with sections := publishAll m x a.outages a.sections, supply := r })
      { a with sections := publishAll m x a.outages a.sections, supply := r } :=
    ⟨(Table.wf_mapTable _ _).trans h.1.sections, h.1.outages, h.1.numbers, rfl, rfl⟩
  refine hshape.losses ⟨h.2.apart, fun k s w hv => ?_⟩
  obtain ⟨z', hz', heq⟩ := Option.map_eq_some_iff.1 hv
  obtain ⟨rfl, rfl⟩ := Prod.mk.inj heq
  obtain ⟨z, hz, rfl⟩ := Option.map_eq_some_iff.1 ((lookup_mapTable k _ _).symm.trans hz')
  have hbefore := h.2.waits k z.supply z.awaiting (by simp [Net.lossView, hz])
  have hmember : (outageOf k a.outages).isSome = false ↔ ∀ i, ¬ a.Holds i k :=
    Option.isSome_eq_false_iff.trans (Option.isNone_iff_eq_none.trans (outageOf_none_iff h.1.numbers))
  unfold published
  rw [← hmember] at hbefore ⊢
  cases classOf (suppliedBy m x.valves x.live) (reachedBy m x.valves x.live) k with
  | supplied => simp
  | uncertain => simp
  | unsupplied =>
    by_cases hs : z.supply = .unsupplied
    · simpa [hs] using hbefore
    · by_cases hin : (outageOf k a.outages).isSome = false
      · simp [hs, hin]
      · simpa [hs, hin] using hbefore

theorem publish_losses {x : Snapshot} (h : e.net.Losses) : (e.publish x).net.Losses := by
  have hpublished := publishAll_losses (m := e.image) (x := x) (r := x.revision) h
  have htaken {e : Event} {cleared changed : List Nat} (h : e.net.Losses) :
      (e.takePublication cleared changed).net.Losses :=
    gather_losses (losses_closed.rules.rulesPublished (losses_closed.clearUnrecorded h))
  unfold Event.publish
  dsimp only
  split
  · exact htaken hpublished
  · exact htaken hpublished

/-! ### The 1 s tick (R99, R117, R129) -/

theorem secondAt_losses {b : Block} (h : e.net.Losses) : (e.secondAt b).net.Losses := by
  cases b
  case vlc => exact Event.travelTicks_keeps losses_closed.register.valve _ _ h
  case psv => exact losses_closed.rules.staleTicks h
  case ogt => exact outageTick_losses h
  case clr => exact losses_closed.register.callTicks h
  all_goals exact h

end Sys2Proof.Machine
end

section
/-!
Every command keeps the record of losses (O44).
-/

namespace Sys2Proof.Machine

variable {s t : State} {e : Event}

/-! ### Plans (R65, R66, R69, R70, R80, R91, R92) -/

theorem linkedMembers_holds {x : Plan} {a : Net} {n k : Nat} (hn : x.outage = some n) (hk : k ∈ linkedMembers x a) :
    a.Holds n k := by
  unfold linkedMembers at hk
  rw [hn] at hk
  dsimp only at hk
  cases ho : outageAt n a with
  | none => simp [ho] at hk
  | some o => exact ⟨o, ho, by simpa [ho] using hk⟩

theorem checkPassed_losses {slot : Nat} {x : Plan} {r : Consequence} (h : e.net.Losses) :
    (e.checkPassed slot x r).net.Losses := by
  have hsent {e : Event} (h : e.net.Losses) (f : Plan → Plan) :
      (Event.settleIfAll slot .checkPassed
        (Event.orders .closes x.valves (e.plan slot .checkPassed true f))).net.Losses :=
    have hplan := losses_closed.register.plan
    Event.settleIfAll_keeps hplan _ _ _ (Event.orders_keeps losses_closed.register.valve _ _ _
      (Event.plan_keeps hplan _ _ _ _ _ h))
  unfold Event.checkPassed
  cases hx : x.outage with
  | none => exact hsent h _
  | some n =>
    exact hsent (trim_losses (n := n) h fun k hk => linkedMembers_holds hx (List.mem_filter.1 hk).1) _

theorem planResult_losses {slot : Nat} {r : Consequence} {c : Word} (h : e.net.Losses) :
    (e.planResult slot r c).net.Losses := by
  have hplan := losses_closed.register.plan
  have hfailed {reason : Reason} : (e.checkFailed slot reason r).net.Losses := Event.plan_keeps hplan _ _ _ _ _ h
  have hended : (e.checkEnded slot).net.Losses := Event.plan_keeps hplan _ _ _ _ _ h
  unfold Event.planResult
  split
  · exact h
  · split
    · exact Event.plan_keeps hplan _ _ _ _ _ h
    · split
      · unfold Event.judgeCheck
        split
        · exact checkPassed_losses h
        · split
          · exact hfailed
          · split
            · exact checkPassed_losses h
            · exact hfailed
      · unfold Event.recheck
        split
        · split
          · next n hn =>
            exact Event.planQuietly_keeps hplan _ _ _ (losses_closed.register.engine (queueTrial_engineOnly hn) h)
          · exact hended
        · exact hended
    · exact h

theorem releasePlan_losses {slot : Nat} {x : Plan} (h : e.net.Losses) : (e.releasePlan slot x).net.Losses := by
  have hunclaimed := Event.unclaim_keeps losses_closed.register.valve x.valves e h
  have hreleased : ((Event.unclaim x.valves e).releaseOutage x).net.Losses := by
    unfold Event.releaseOutage
    split
    · exact hunclaimed
    · split
      · exact hunclaimed
      · split
        · exact gather_losses (abandon_losses hunclaimed)
        · exact losses_closed.rules.outageQuietly hunclaimed
  exact losses_closed.other ((Event.unclaim x.valves e).releaseOutage x).net _ rfl rfl hreleased

theorem otherOutage_none {own : Option Nat} {a : Net} {l : List Nat} (h : otherOutage own a l = none) :
    ∀ k ∈ l, ∀ o, outageOf k a.outages = some o → some o.number = own := by
  induction l with
  | nil => exact fun _ hk => (nomatch hk)
  | cons k t ih =>
    unfold otherOutage at h
    split at h
    · next hk =>
      refine List.forall_mem_cons.2 ⟨fun o ho => ?_, ih h⟩
      rw [hk] at ho
      cases ho
    · next o hk =>
      split at h
      · next hown =>
        refine List.forall_mem_cons.2 ⟨fun o' ho' => ?_, ih h⟩
        obtain rfl := Option.some.inj (hk.symm.trans ho')
        exact hown
      · cases h

/-- Only the plan's own outage holds a section of a consequence that is open to declaration. -/
theorem otherOutage_holds {own : Option Nat} {a : Net} {l : List Nat} (h : a.Losses) (hown : otherOutage own a l = none)
    {k : Nat} (hk : k ∈ l) {i : Nat} (hi : a.Holds i k) : some i = own := by
  cases ho : outageOf k a.outages with
  | none => exact absurd hi ((outageOf_none_iff h.1.numbers).1 ho i)
  | some o =>
    rw [h.2.apart i o.number k hi ⟨o, outageOf_holds h.1.numbers ho⟩]
    exact otherOutage_none hown k hk o ho

theorem declareNew_losses {slot : Nat} {l : List Nat} {accepted : Bool} (h : s.net.Losses)
    (hl : ∀ k ∈ l, ∀ i, ¬ s.net.Holds i k) : Acts Net.Losses s (declareNew slot l accepted s) := by
  unfold declareNew
  split
  · exact refuse_acts
  · next idx hidx =>
    have hcreated := (createOutage_losses (e := Event.start s) (c := .planned) (st := .declared) (plan := some slot)
      (l := l) h (lowestFree_spec hidx).1 (lowestFree_lt hidx) hl).1
    exact taken_acts (Event.plan_keeps losses_closed.register.plan _ _ _ _ _
      (losses_closed.rules.ruleDeclared hcreated))

theorem declareMore_losses {slot : Nat} {o : Outage} {l : List Nat} {accepted : Bool} (h : s.net.Losses)
    (hl : ∀ k ∈ l, ∀ i, s.net.Holds i k → i = o.number) : Acts Net.Losses s (declareMore slot o l accepted s) := by
  have hplan := losses_closed.register.plan
  have hstart : (Event.start s).net.Losses := h
  unfold declareMore
  dsimp only
  split
  · exact taken_acts (Event.planQuietly_keeps hplan _ _ _ hstart)
  · split
    · exact refuse_acts
    · split
      · exact refuse_acts
      · exact taken_acts (Event.planQuietly_keeps hplan _ _ _ (losses_closed.rules.ruleDeclared
          (joins_losses hstart fun k hk => hl k (List.mem_filter.1 hk).1).1))

theorem declarePlan_losses {slot : Nat} {accepted : Byte} {x : Plan} (h : s.net.Losses) :
    Acts Net.Losses s (declarePlan slot accepted x s) := by
  unfold declarePlan
  split
  · exact refuse_acts
  · exact refuse_acts
  · next a c _ _ =>
    split
    · exact refuse_acts
    · split
      · exact refuse_acts
      · split
        · exact .keeps _ _
        · next hown =>
          split
          · next hx =>
            refine declareNew_losses h fun k hk i hi => ?_
            have := otherOutage_holds h hown hk hi
            simp [hx] at this
          · next n hx =>
            split
            · next hnone =>
              refine declareNew_losses h fun k hk i hi => ?_
              obtain rfl : i = n := Option.some.inj ((otherOutage_holds h hown hk hi).trans hx)
              obtain ⟨o, ho, -⟩ := hi
              rw [hnone] at ho
              cases ho
            · next o ho =>
              refine declareMore_losses h fun k hk i hi => ?_
              rw [outageAt_number ho]
              exact Option.some.inj ((otherOutage_holds h hown hk hi).trans hx)

/-! ### Completions (R47, R52) -/

theorem completeWalk_losses (h : s.net.Losses) : (completeWalk s).net.Losses := by
  unfold completeWalk
  split
  · next x _ =>
    refine event_net_keeps (P := Net.Losses) losses_closed.register.plan
      (fun e => (e.publish x).grant grantAfterWalk) s ?_
    rw [grant_net]
    exact losses_closed.register.engine (grantAfterWalk_engineOnly _) (publish_losses h)
  · exact h
  · exact h

theorem trialEnds_losses {r : Consequence} {c : Word} {who : Requester} (h : e.net.Losses) :
    (e.trialEnds r c who).net.Losses := by
  have hgrant {n : Net} (h : n.Losses) : (grantAfterTrial n).Losses :=
    losses_closed.register.engine (grantAfterTrial_engineOnly n) h
  have hhand {e : Event} (h : e.net.Losses) : (e.handOver r c who).net.Losses := by
    cases who with
    | plan slot => exact planResult_losses h
    | port p => exact h
  unfold Event.trialEnds
  dsimp only
  split
  · exact hgrant (hhand h)
  · exact hhand (hgrant h)

theorem completeTrial_losses (h : s.net.Losses) : (completeTrial s).net.Losses := by
  unfold completeTrial
  split
  · next x who closure _ =>
    have hnet := (fillBuffer_onlyPorts (trialResult s.cfu.image x closure) s.net.topology who s).net
    refine event_net_keeps losses_closed.register.plan (fun e => e.trialEnds _ _ who) _ (trialEnds_losses ?_)
    exact (congrArg Net.Losses hnet).mpr h
  · exact h
  · exact h

/-! ### Reset and commit -/

/-- Where no outage holds a section and none is UNSUPPLIED or waits, no loss is unrecorded. -/
theorem losses_empty {n : Net} (hwf : n.sections.wf = true) (ho : n.outages = [])
    (hs : ∀ k z, lookup k n.sections = some z → z.supply ≠ .unsupplied ∧ z.awaiting = false) : n.Losses := by
  have hnone (i k : Nat) : ¬ n.Holds i k := by
    rintro ⟨o, hat, -⟩
    unfold outageAt at hat
    rw [ho] at hat
    cases hat
  refine ⟨⟨hwf, ho ▸ .nil, ho ▸ List.nodup_nil, rfl, rfl⟩, fun i j k hi _ => absurd hi (hnone i k), fun k s w hv => ?_⟩
  obtain ⟨z, hz, heq⟩ := Option.map_eq_some_iff.1 hv
  obtain ⟨rfl, rfl⟩ := Prod.mk.inj heq
  obtain ⟨hsupply, hflag⟩ := hs k z hz
  simp [hsupply, hflag]

theorem commit_losses {m : Image} (hm : m.Tabled) (s : State) : (commit m s).net.Losses := by
  refine event_net_keeps losses_closed.register.plan
    (fun e => (Event.raiseList (initialConditions m (committed m s).net) e).grant startWalk) (committed m s) ?_
  rw [grant_net, raiseList_net]
  have hseed := Net.Tabled.seedNet hm s.net.pins s.tbu.uptime
  refine losses_empty hseed.sections rfl fun k z hz => ?_
  obtain ⟨_, _, rfl⟩ := Option.map_eq_some_iff.1 ((lookup_mapTable k _ _).symm.trans hz)
  exact ⟨by decide, rfl⟩

theorem actCommitConfig_losses (x : Half) (ht : TablesSound s) (h : s.net.Losses) :
    (actCommitConfig x s).1.net.Losses := by
  unfold actCommitConfig
  split
  · exact h
  · split
    · exact h
    · split
      · exact h
      · exact commit_losses ht.image.withDefaults s

theorem resetAll_losses (pins : BitVec 64) : Net.Losses { Net.reset with pins := pins } :=
  losses_empty rfl rfl fun _ _ hz => by cases hz

/-! ### Every command -/

theorem losses_acts {a : Answer} (h : Acts Net.Losses s a) (hs : s.net.Losses) : a.1.net.Losses := by
  cases h with
  | keeps st body => exact hs
  | event w e st body he => exact writeReasons_keeps losses_closed.register.plan _ _ he

theorem losses_request {c : ReqClass} {p : PortId} {tag : Byte} {act : State → Answer}
    (hact : ∀ s, s.net.Losses → Acts Net.Losses s (act s)) (hs : s.net.Losses) :
    (Machine.request c p tag act s).net.Losses :=
  request_net_keeps (losses_acts (hact (renew p s) hs) hs) hs

theorem losses_whenRunning {f : Event → Event} (hf : ∀ e, e.net.Losses → (f e).net.Losses) (hs : s.net.Losses) :
    (whenRunning (event f) s).net.Losses :=
  whenRunning_keeps (Q := fun u => u.net.Losses)
    (fun u hu => event_net_keeps losses_closed.register.plan f u (hf (Event.start u) hu)) hs

theorem losses_askedTrial {trial : TrialEntry} {slot : Nat} {f : Plan → Plan} {n n' : Net} (h : n.Losses)
    (hq : queueTrial trial n = some n') : Net.Losses { n' with plans := adjust slot f n'.plans } :=
  losses_closed.other n' _ rfl rfl (losses_closed.register.engine (queueTrial_engineOnly hq) h)

theorem losses_actTrial (p : PortId) (body : List Byte) (h : s.net.Losses) : (actTrial p body s).1.net.Losses := by
  unfold actTrial
  split
  · exact h
  · split
    · exact h
    · split
      · exact h
      · split
        · exact h
        · split
          · exact h
          · next n hn => exact losses_closed.register.engine (queueTrial_engineOnly hn) h

theorem losses_crew {c : ReqClass} {p : PortId} {tag : Byte} {v : Nat} {act : Valve → Option (Event → Event)}
    (hact : ∀ x f, act x = some f → ∃ pos k o, pos ≠ .closing ∧ f = fun e => e.moveValve v pos k o)
    (hs : s.net.Losses) : (Machine.request c p tag (actCrew p v act) s).net.Losses := by
  refine losses_request (fun s h => actCrew_acts fun x f hf => ?_) hs
  obtain ⟨pos, k, o, _, rfl⟩ := hact x f hf
  exact Event.moveValve_keeps losses_closed.register.valve v pos k o (Event.start s) h

/-- A command that is not a transfer keeps the record of losses. -/
theorem exec_losses (i : Instr) (ht : TablesSound s) (h : s.net.Losses) (hi : ∀ p bits, i ≠ .transfer p bits) :
    ∃ t, exec i s = .next t ∧ t.net.Losses := by
  have hreg := losses_closed.register
  have hplan := hreg.plan
  have hvalve := hreg.valve
  cases i
  case transfer p bits => exact absurd rfl (hi p bits)
  case powerOnReset | lineReset => exact ⟨_, rfl, resetAll_losses _⟩
  case leaveReset =>
    refine ⟨_, rfl, ?_⟩
    unfold leaveReset
    split <;> exact h
  case commitConfig p tag x =>
    exact ⟨_, rfl, request_net_keeps (actCommitConfig_losses x (ht.setPort p _) h) h⟩
  case beginConfig p tag => exact ⟨_, rfl, request_net_keeps ((congrArg Net.Losses (actBeginConfig_net p _)).mpr h) h⟩
  case loadRecords p tag body =>
    exact ⟨_, rfl, request_net_keeps ((congrArg Net.Losses (actLoadRecords_net body _)).mpr h) h⟩
  case abandonConfig => exact ⟨_, rfl, request_net_keeps ((congrArg Net.Losses (actAbandonConfig_net _)).mpr h) h⟩
  case setClock | readNotices | lampTest => exact ⟨_, rfl, request_net_keeps h h⟩
  case setLimits p tag pt ll l hi hh db k =>
    exact ⟨_, rfl, request_net_keeps (hreg.limits (s := renew p s) h) h⟩
  case trial p tag body => exact ⟨_, rfl, request_net_keeps (losses_actTrial (s := renew p s) p body h) h⟩
  case null | readIdentity | readStatus | readTrial | readPorts | readLines | readLamps | readAlarms | readWithheld =>
    exact ⟨_, rfl, losses_request (fun _ _ => readOk_acts) h⟩
  case readDefinition => exact ⟨_, rfl, losses_request (fun _ _ => actReadDefinition_acts) h⟩
  case readSection | readValve | readSource | readPoint | readPlan | readOutage | readCall =>
    exact ⟨_, rfl, losses_request (fun _ _ => readObject_acts) h⟩
  case confirmClosed => exact ⟨_, rfl, losses_crew (fun _ _ => confirmClosedIn_moves) h⟩
  case confirmOpen => exact ⟨_, rfl, losses_crew (fun _ _ => confirmOpenIn_moves) h⟩
  case reportInoperable => exact ⟨_, rfl, losses_crew (fun _ _ => inoperableIn_moves) h⟩
  case verifyPosition =>
    exact ⟨_, rfl, losses_request (fun s h => actVerify_acts fun _ =>
      Event.verify_keeps hvalve _ _ (Event.start s) h) h⟩
  case planCreate => exact ⟨_, rfl, losses_request (fun s h => actPlanCreate_acts fun _ _ _ => hplan.plans _ _ h) h⟩
  case planAddValve =>
    exact ⟨_, rfl, losses_request (fun s h => actPlan_acts fun _ => addValve_acts fun _ =>
      Event.editPlan_keeps hplan _ _ _ _ (Event.claim_keeps hvalve _ _ (Event.start s) h)) h⟩
  case planRemoveValve =>
    exact ⟨_, rfl, losses_request (fun s h => actPlan_acts fun _ => removeValve_acts fun _ =>
      Event.editPlan_keeps hplan _ _ _ _ (Event.claim_keeps hvalve _ _ (Event.start s) h)) h⟩
  case planAssess =>
    exact ⟨_, rfl, losses_request (fun s h => actPlan_acts fun _ => assessPlan_acts fun _ _ _ => losses_askedTrial h) h⟩
  case planExecute =>
    exact ⟨_, rfl, losses_request (fun s h => actPlan_acts fun _ => askTrial_acts fun _ _ => losses_askedTrial h) h⟩
  case planDeclareOutage =>
    exact ⟨_, rfl, losses_request (fun s h => actPlan_acts fun _ => declarePlan_losses h) h⟩
  case planAbort =>
    exact ⟨_, rfl, losses_request (fun s h => actPlan_acts fun _ =>
      planTaken_acts (Event.abortPlan_keeps hvalve _ _ (Event.start s) h)) h⟩
  case planRetry | planRestore =>
    exact ⟨_, rfl, losses_request (fun s h => actPlan_acts fun _ =>
      planTaken_acts (Event.setOut_keeps hvalve _ _ _ (Event.start s) h)) h⟩
  case planRelease =>
    exact ⟨_, rfl, losses_request (fun s h => actPlan_acts fun _ =>
      releasePlan_acts (releasePlan_losses (e := Event.start s) h)) h⟩
  case planTakeOver =>
    exact ⟨_, rfl, losses_request (fun s h => actTakeOver_acts fun _ =>
      Event.takeOver_keeps hplan _ _ _ (Event.start s) h) h⟩
  case sourceOut | sourceIn =>
    exact ⟨_, rfl, losses_request (fun s h => actSourceService_acts
      (Event.source_keeps hreg.source _ _ (Event.start s) h)) h⟩
  case outageConfirmSection =>
    exact ⟨_, rfl, losses_request (fun s h => actConfirmSection_acts (confirmSection_losses (e := Event.start s) h)) h⟩
  case outageRelit | outageNoAccess =>
    exact ⟨_, rfl, losses_request (fun s h => actPremises_acts fun _ =>
      countPremises_losses (e := Event.start s) h) h⟩
  case callNew =>
    exact ⟨_, rfl, losses_request (fun s h => actCallNew_acts fun _ _ _ _ => hreg.newCall (e := Event.start s) h) h⟩
  case callAssign =>
    exact ⟨_, rfl, losses_request (fun s h => actCall_acts fun _ =>
      assignCall_acts h (hreg.call (e := Event.start s) h)) h⟩
  case callArrived | callMadeSafe =>
    exact ⟨_, rfl, losses_request (fun s h => actCall_acts fun _ => taken_acts
      (hreg.call (Event.clearOverdue_keeps _ (Event.start s) h))) h⟩
  case callClose | callCancel =>
    exact ⟨_, rfl, losses_request (fun s h => actCall_acts fun _ =>
      endCall_acts (hreg.freeCall (e := Event.start s) h)) h⟩
  case callRegrade =>
    exact ⟨_, rfl, losses_request (fun s h => actCall_acts fun _ =>
      regradeCall_acts (hreg.regrade (e := Event.start s) h)) h⟩
  case sampleBatch =>
    exact ⟨_, rfl, losses_request (fun s h => actSampleBatch_acts fun _ =>
      losses_closed.rules.samples (e := Event.start s) h) h⟩
  case alarmAck => exact ⟨_, rfl, losses_request (fun _ h => actAlarmAck_acts h) h⟩
  case hornSilence => exact ⟨_, rfl, losses_request (fun _ h => listEvent_acts h) h⟩
  case scanTick pins =>
    exact ⟨_, rfl, whenRunning_keeps (Q := fun u => u.net.Losses) (fun u hu => event_net_keeps hplan _ (scanCounters u)
      (hreg.scan (e := Event.start (scanCounters u)) hu)) (losses_closed.other s.net _ rfl rfl h)⟩
  case oneSecondTick =>
    refine ⟨_, rfl, ?_⟩
    split
    · exact h
    · exact whenRunning_keeps (Q := fun u => u.net.Losses) (fun u hu => event_net_keeps hplan _ u
        (Event.inAnyOrder_keeps (P := Net.Losses) (fun _ _ he => secondAt_losses he) _ (Event.start u) hu)) h
  case lineChange => exact ⟨_, rfl, losses_whenRunning (fun _ he => hreg.lineChangeIfDue he) h⟩
  case travelTimerExpiry => exact ⟨_, rfl, losses_whenRunning (fun e he => Event.travelExpiry_keeps hvalve _ e he) h⟩
  case liveWalkCompletes =>
    exact ⟨_, rfl, whenRunning_keeps (Q := fun u => u.net.Losses) (fun _ => completeWalk_losses) h⟩
  case trialCompletes =>
    exact ⟨_, rfl, whenRunning_keeps (Q := fun u => u.net.Losses) (fun _ => completeTrial_losses) h⟩
  case rechargeHoldExpiry => exact ⟨_, rfl, losses_whenRunning (fun _ => holdIfDue_losses) h⟩
  case stalenessExpiry => exact ⟨_, rfl, losses_whenRunning (fun _ he => losses_closed.rules.staleIfDue he) h⟩
  case deadlineExpiry => exact ⟨_, rfl, losses_whenRunning (fun _ he => hreg.expireIfDue he) h⟩
  case realarmExpiry => exact ⟨_, rfl, losses_whenRunning (fun _ he => hreg.realarmIfDue he) h⟩
  case stepTick | cadencePartEnd | mimicRowScan =>
    exact ⟨_, rfl, whenRunning_keeps (Q := fun u => u.net.Losses) (fun _ h => h) h⟩
  case lampTestEnd => exact ⟨_, rfl, h⟩

/-! ### Transfers and steps -/

theorem exec_keeps_losses {i : Instr} (ht : TablesSound s) (h : s.net.Losses) (he : exec i s = .next t) :
    t.net.Losses := by
  have hrun {i : Instr} {s : State} (ht : TablesSound s) (h : s.net.Losses) (hi : ∀ p bits, i ≠ .transfer p bits)
      (he : exec i s = .next t) : t.net.Losses := by
    obtain ⟨u, hu, hkept⟩ := exec_losses i ht h hi
    rw [hu] at he
    cases he
    exact hkept
  by_cases htransfer : ∃ p bits, i = .transfer p bits
  · obtain ⟨p, bits, rfl⟩ := htransfer
    cases he
    rcases transfer_cases p bits s with hports | ⟨c, _, hc, hec⟩
    · exact hports.net ▸ h
    · exact hrun (ht.setPort p _) h (by rintro q b rfl; cases hc) hec
  · push Not at htransfer
    exact hrun ht h htransfer he

theorem losses_of_recorded (ht : TablesSound s) (ho : OutagesSound s) (h : LossesRecorded s) : s.net.Losses := by
  have hmember {i k : Nat} (hi : s.net.Holds i k) :
      ∃ x ∈ s.net.outages, x.2.number = i ∧ k ∈ memberSections x.2 := by
    obtain ⟨o, hat, hk⟩ := hi
    obtain ⟨x, hx, rfl⟩ := Option.map_eq_some_iff.1 hat
    exact ⟨x, (outageNumbered_mem hx).1, (outageNumbered_mem hx).2, hk⟩
  have hnone {k : Nat} := outageOf_none_iff (a := s.net) (k := k) ht.net.outageNumbers
  have hsymm : Std.Symm fun x y : Nat × Outage => ∀ k ∈ memberSections x.2, k ∉ memberSections y.2 :=
    ⟨fun x y hxy k hy hx => hxy k hx hy⟩
  refine ⟨⟨ht.net.sections, ht.net.outages, ht.net.outageNumbers, rfl, rfl⟩, fun i j k hi hj => ?_, fun k p w hv => ?_⟩
  · obtain ⟨x, hx, rfl, hkx⟩ := hmember hi
    obtain ⟨y, hy, rfl, hky⟩ := hmember hj
    by_contra hne
    exact ho.apart.forall hx hy (fun h => hne (h ▸ rfl)) k hkx hky
  · obtain ⟨z, hz, heq⟩ := Option.map_eq_some_iff.1 hv
    obtain ⟨rfl, rfl⟩ := Prod.mk.inj heq
    rw [← hnone]
    constructor
    · exact h.flagged k z hz
    · rintro ⟨hs, hfree⟩
      rcases h.recorded k z hz hs with hw | ⟨o, hin⟩
      · exact hw
      · rw [hfree] at hin
        cases hin

theorem recorded_of_losses (h : s.net.Losses) : LossesRecorded s := by
  have hnone {k : Nat} := outageOf_none_iff (a := s.net) (k := k) h.1.numbers
  have hwaits {k : Nat} {z : Sect} (hz : lookup k s.net.sections = some z) :
      z.awaiting = true ↔ z.supply = .unsupplied ∧ outageOf k s.net.outages = none := by
    rw [hnone]
    exact h.2.waits k z.supply z.awaiting (by simp [Net.lossView, hz])
  refine ⟨fun k z hz hs => ?_, fun k z hz => (hwaits hz).1⟩
  cases hin : outageOf k s.net.outages with
  | none => exact .inl ((hwaits hz).2 ⟨hs, hin⟩)
  | some o => exact .inr ⟨o, rfl⟩

/-- Settles O44: no loss is unrecorded at reset, and every step keeps it so. -/
theorem lossesStayRecorded : Obligations.LossesStayRecorded := by
  refine ⟨recorded_of_losses (resetAll_losses 0), fun s t ht ho h he => ?_⟩
  have hlosses := losses_of_recorded ht ho h
  unfold step at he
  split at he
  · cases he
    exact h
  · next i rest _ =>
    exact recorded_of_losses (exec_keeps_losses (s := { s with pending := rest }) (ht.congr rfl rfl) hlosses he)

end Sys2Proof.Machine
end

section
/-!
The state rules of a publication (R96 to R98, R100, R104): what the rule of an outage's state makes of it, in whatever
turn it comes among the outages the publication touches.
-/

namespace Sys2Proof.Machine

variable {a b : Net} {e : Event} {m : Image} {n k : Nat} {o y : Outage} {l : List Nat}

/-! ### What the rules read -/

/-- The published states and the bands of points are as they were. -/
structure SameReadings (a b : Net) : Prop where
  bands : SameBands a b
  supply : KeepsSupply a b

theorem sameReadings_closed (a : Net) : OutageClosed (SameReadings a) where
  plans _ _ h := { h with }
  calls _ _ h := { h with }
  lastCall _ _ h := { h with }
  sections n k _ hf h := { h with supply := fun j => (lookup_adjust_supply hf j k n.sections).trans (h.supply j) }
  outages _ _ h := { h with }
  flags n k f hf h := { h with bands := (bands_closed a).flags n k f hf h.bands }
  lastOutage _ _ h := { h with }

theorem supplyAt_congr (h : KeepsSupply a b) (k : Nat) : supplyAt b k = supplyAt a k :=
  congrArg (fun x => x.getD .uncertain) (h k)

theorem hasFreshLow_congr (h : SameBands a b) (m : Image) (k : Nat) : hasFreshLow m b k = hasFreshLow m a k := by
  have hshown (n : Net) : hasFreshLow m n k
      = ((pointRecords m n k).map Point.shown).any fun x => x.1 && x.2 == .lowlow := by
    rw [List.any_map]
    rfl
  rw [hshown, hshown, pointRecords_shown h]

/-! ### The rules -/

/-- What a publication's rule makes of an outage; `none` where it stays as it is. -/
def Outage.ruled (m : Image) (a : Net) (o : Outage) : Option Outage :=
  match o.state with
  | .declared =>
    if (memberSections o).any (fun k => supplyAt a k == .unsupplied) then some { o with state := .active } else none
  | .active =>
    if (memberSections o).all (fun k => supplyAt a k == .supplied && !hasFreshLow m a k) then
      some { o with state := .recharging, members := withHolds (paramsOf m).rechargeHold o }
    else none
  | .recharging =>
    if (memberSections o).any (fun k => supplyAt a k != .supplied) then
      some { o with state := .active, members := withHolds 0 o }
    else none
  | .relighting => if (memberSections o).any (fun k => supplyAt a k != .supplied) then some o.relapsed else none

theorem ruled_congr (h : SameReadings a b) (m : Image) (o : Outage) : o.ruled m b = o.ruled m a := by
  simp only [Outage.ruled, supplyAt_congr h.supply, hasFreshLow_congr h.bands]

/-- The mark of an outage that is not closed. -/
def openMark (n : Nat) : List OutageMark := [{ number := n, closed := none }]

theorem openMark_number {x : OutageMark} (h : x ∈ openMark n) : x.number = n := by
  rw [List.mem_singleton.1 h]

theorem outageIs_outage {f : Outage → Outage} (hf : ∀ o, (f o).number = o.number) (h : OutageIs n o [] e) :
    OutageIs n (f o) (openMark n) (e.outage n f) := by
  refine ⟨?_, ?_, fun x hx => ?_⟩
  · rw [outage_net]
    exact h.within.mapTable
  · rw [outage_net]
    exact outageAt_change hf h.record
  · rw [List.mem_singleton.1 hx]
    exact outage_marks n _ e

theorem OutageIs.suppressAll {w : List OutageMark} {c : Bool} (h : OutageIs n o w e) :
    OutageIs n o w (e.suppressAll c l) := h.leaves (suppressPoints_leavesOutages c _ e)

theorem OutageIs.setRelapse {w : List OutageMark} {c : Bool} (h : OutageIs n o w e) :
    OutageIs n { o with relapse := c } w (e.setRelapse n c) := by
  refine ⟨?_, setRelapse_record h.record, fun x hx => ?_⟩
  · unfold Event.setRelapse
    split
    · exact h.within
    · split
      · exact h.within
      · exact h.within.mapTable
  · rw [setRelapse_marks]
    exact h.marks x hx

theorem relapse_is (h : OutageIs n o [] e) (hstate : o.state = .relighting) :
    OutageIs n o.relapsed (openMark n) (e.relapse n) := by
  unfold Event.relapse
  simp only [h.record, hstate, if_true]
  exact (outageIs_outage (f := fun x => { x with
    state := .active, off := x.off + x.relit, relit := 0, members := loadHolds 0 x.members })
    (fun _ => rfl) h).setRelapse.suppressAll

/-- The turn of an outage: it stays as it is, or becomes what the rule makes of it and is marked. -/
def TakesTurn (n : Nat) (o : Outage) (r : Option Outage) (e : Event) : Prop :=
  match r with
  | none => OutageIs n o [] e
  | some y => OutageIs n y (openMark n) e

theorem rulePublished_turn (h : OutageIs n o [] e) :
    TakesTurn n o (o.ruled e.image e.net) (e.rulePublished n) := by
  unfold Event.rulePublished
  simp only [h.record]
  cases hstate : o.state with
  | declared =>
    simp only [Outage.ruled, hstate, Event.ruleDeclared, h.record, true_and]
    split
    · exact (outageIs_outage (f := fun x => { x with state := .active }) (fun _ => rfl) h).suppressAll
    · exact h
  | active =>
    simp only [Outage.ruled, hstate, Event.ruleActive, h.record, true_and]
    split
    · exact outageIs_outage (f := fun x =>
        { x with state := .recharging, members := loadHolds (paramsOf e.image).rechargeHold x.members })
        (fun _ => rfl) h
    · exact h
  | recharging =>
    simp only [Outage.ruled, hstate, Event.ruleRecharging, h.record, true_and]
    split
    · exact outageIs_outage (f := fun x => { x with state := .active, members := loadHolds 0 x.members })
        (fun _ => rfl) h
    · exact h
  | relighting =>
    simp only [Outage.ruled, hstate, Event.ruleRelighting, h.record]
    split
    · exact relapse_is h hstate
    · exact h

/-! ### Turns of several outages -/

namespace OutageSteps

variable {ok : Nat → Prop} {R : Event → Prop} (hc : OutageSteps ok R)
include hc

theorem rulePublished (hn : ok n) (h : R e) : R (e.rulePublished n) := by
  unfold Event.rulePublished
  split
  · exact h
  · split
    · unfold Event.ruleDeclared
      split
      · exact h
      · split
        · exact hc.suppressPoints (hc.outage (fun _ => rfl) hn h)
        · exact h
    · exact hc.ruleActive hn h
    · unfold Event.ruleRecharging
      split
      · exact h
      · split
        · exact hc.outage (fun _ => rfl) hn h
        · exact h
    · unfold Event.ruleRelighting
      split
      · exact h
      · split
        · exact hc.relapse hn h
        · exact h

theorem rulesPublished (hl : ∀ n ∈ l, ok n) (h : R e) : R (Event.rulesPublished l e) := by
  induction l generalizing e with
  | nil => exact h
  | cons n t ih =>
    obtain ⟨hn, ht⟩ := List.forall_mem_cons.1 hl
    exact ih ht (hc.rulePublished hn h)

theorem clearUnrecorded (h : R e) : R (Event.clearUnrecorded l e) := by
  induction l generalizing e with
  | nil => exact h
  | cons k t ih => exact ih (hc.setUnrecorded h)

end OutageSteps

theorem TakesTurn.steps {r : Option Outage} {e' : Event} (h : TakesTurn n o r e)
    (hsteps : ∀ y w, (∀ x ∈ w, x.number = n) → OutageIs n y w e → OutageIs n y w e') : TakesTurn n o r e' := by
  cases r with
  | none => exact hsteps o [] (fun _ hx => nomatch hx) h
  | some y => exact hsteps y _ (fun _ => openMark_number) h

theorem rulesPublished_turn (hl : l.Nodup) (h : OutageIs n o [] e) :
    TakesTurn n o (if n ∈ l then o.ruled e.image e.net else none) (Event.rulesPublished l e) := by
  have hother {y : Outage} {w : List OutageMark} {e : Event} {l : List Nat} (hw : ∀ x ∈ w, x.number = n) (hn : n ∉ l)
      (h : OutageIs n y w e) : OutageIs n y w (Event.rulesPublished l e) :=
    (outageIs_steps hw).rulesPublished (fun j hj hjn => hn (hjn ▸ hj)) h
  induction l generalizing e with
  | nil => exact h
  | cons j t ih =>
    obtain ⟨hj, ht⟩ := List.nodup_cons.1 hl
    by_cases hjn : j = n
    · subst hjn
      simp only [List.mem_cons_self, if_true]
      exact (rulePublished_turn h).steps fun y w hw => hother hw hj
    · have hmem : n ∈ j :: t ↔ n ∈ t := by simp [Ne.symm hjn]
      have hreadings : SameReadings e.net (e.rulePublished j).net :=
        Event.rulePublished_keeps (sameReadings_closed e.net).point j e ⟨fun _ => rfl, fun _ => rfl⟩
      have himage : (e.rulePublished j).image = e.image :=
        Event.rulePublished_grows (imageClosed e.image) j e rfl
      have hsteps := outageIs_steps (n := n) (o := o) (l := []) (fun _ hx => nomatch hx)
      have hturn := ih ht (hsteps.rulePublished hjn h)
      simp only [hmem]
      rw [himage, ruled_congr hreadings] at hturn
      exact hturn

theorem mem_outagesWhere_iff {f : Outage → Bool} (h : Table.Numbered Outage.number a.outages)
    (ho : outageAt n a = some o) : n ∈ outagesWhere f a ↔ f o = true := by
  refine ⟨fun hn => ?_, mem_outagesWhere ho⟩
  obtain ⟨x, hx, rfl⟩ := List.mem_map.1 ((sortBy_perm _ _).mem_iff.1 hn)
  obtain ⟨hmem, hf⟩ := List.mem_filter.1 hx
  obtain rfl := Option.some.inj ((outageAt_of_mem h hmem).symm.trans ho)
  exact hf

/-! ### The publication (R47, R96) -/

theorem mem_changedSections {m : Image} {x : Snapshot} {outages : Table Outage} {a b : Net}
    (hb : b.sections = publishAll m x outages a.sections) :
    k ∈ changedSections a.sections b.sections ↔ supplyAt b k ≠ supplyAt a k := by
  rw [hb, changedSections_publishAll, List.mem_filter, mem_keys_iff_lookup]
  unfold supplyAt
  rw [hb, lookup_publishAll]
  cases lookup k a.sections with
  | none => simp
  | some z => simpa [published_supply] using ne_comm

/-- The event once the Walk Engine has published (R47, R49). -/
def Event.published (x : Snapshot) (e : Event) : Event :=
  let after := publishAll e.image x e.net.outages e.net.sections
  let changed := changedSections e.net.sections after
  let e1 := e.setNet { e.net with sections := after, supply := x.revision }
  if changed = [] then e1 else e1.post .wke (.supplyPublished changed.length x.revision) []

theorem publish_eq (x : Snapshot) (e : Event) : e.publish x =
    (e.published x).takePublication (clearedSections e.net.sections (e.published x).net.sections)
      (changedSections e.net.sections (e.published x).net.sections) := by
  unfold Event.publish Event.published
  dsimp only
  split <;> rfl

theorem published_eventNet (x : Snapshot) (e : Event) : (e.published x).net =
    { e.net with sections := publishAll e.image x e.net.outages e.net.sections, supply := x.revision } := by
  unfold Event.published
  dsimp only
  split <;> rfl

theorem setUnrecorded_leavesOutages (k : Nat) (c : Bool) (e : Event) : LeavesOutages e (e.setUnrecorded k c) := by
  unfold Event.setUnrecorded
  split
  · exact .refl e
  · split
    · exact .refl e
    · exact ⟨rfl, rfl⟩

theorem clearUnrecorded_leavesOutages (l : List Nat) (e : Event) : LeavesOutages e (Event.clearUnrecorded l e) := by
  induction l generalizing e with
  | nil => exact .refl e
  | cons k t ih => exact (setUnrecorded_leavesOutages k false e).trans (ih _)

theorem raiseUnrecorded_leavesOutages (l : List Nat) (e : Event) : LeavesOutages e (Event.raiseUnrecorded l e) := by
  induction l generalizing e with
  | nil => exact .refl e
  | cons k t ih => exact (setUnrecorded_leavesOutages k true e).trans (ih _)

/-- Does a publication change the state of a member? -/
def Touched (a b : Net) (o : Outage) : Prop := ∃ k ∈ memberSections o, supplyAt b k ≠ supplyAt a k

theorem takePublication_turn {cleared changed : List Nat} (hnumbers : Table.Numbered Outage.number e.net.outages)
    (h : OutageIs n o [] e) : TakesTurn n o
      (if (memberSections o).any (fun k => changed.contains k) then o.ruled e.image e.net else none)
      (e.takePublication cleared changed) := by
  have hsteps := outageIs_steps (n := n) (o := o) (l := []) (fun _ hx => nomatch hx)
  have hcleared := hsteps.clearUnrecorded (l := cleared) h
  have hreadings : SameReadings e.net (Event.clearUnrecorded cleared e).net :=
    Event.clearUnrecorded_keeps (sameReadings_closed e.net).call cleared e ⟨fun _ => rfl, fun _ => rfl⟩
  have himage : (Event.clearUnrecorded cleared e).image = e.image :=
    Event.clearUnrecorded_grows (imageClosed e.image) cleared e rfl
  have hnumbered : Table.Numbered Outage.number (Event.clearUnrecorded cleared e).net.outages := by
    rw [(clearUnrecorded_leavesOutages cleared e).records]
    exact hnumbers
  have hturn := rulesPublished_turn (outagesWhere_nodup
    (fun o => (memberSections o).any (fun k => changed.contains k)) hnumbered) hcleared
  simp only [mem_outagesWhere_iff hnumbered hcleared.record] at hturn
  rw [himage, ruled_congr hreadings] at hturn
  exact hturn.steps fun y w hw hy => (outageIs_steps hw).gather hy

theorem publish_turn {x : Snapshot} (hwithin : Table.Within 32 e.net.outages)
    (hnumbers : Table.Numbered Outage.number e.net.outages) (ho : outageAt n e.net = some o)
    [Decidable (Touched e.net (e.published x).net o)] : TakesTurn n o
      (if Touched e.net (e.published x).net o then o.ruled e.image (e.published x).net else none) (e.publish x) := by
  have hnet := published_eventNet x e
  have himage : (e.published x).image = e.image := by
    unfold Event.published
    dsimp only
    split <;> rfl
  have his : OutageIs n o [] (e.published x) := by
    refine ⟨?_, ?_, fun _ hx => nomatch hx⟩
    · rw [hnet]
      exact hwithin
    · rw [hnet]
      exact ho
  have hturn := takePublication_turn (cleared := clearedSections e.net.sections (e.published x).net.sections)
    (changed := changedSections e.net.sections (e.published x).net.sections) (by rw [hnet]; exact hnumbers) his
  have htouched : (memberSections o).any (fun k =>
      (changedSections e.net.sections (e.published x).net.sections).contains k) = true
        ↔ Touched e.net (e.published x).net o := by
    simp only [List.any_eq_true, List.contains_iff_mem, Touched]
    exact exists_congr fun k => and_congr_right fun _ =>
      mem_changedSections (m := e.image) (x := x) (outages := e.net.outages) (by rw [hnet])
  simp only [htouched, himage, ← publish_eq] at hturn
  exact hturn

/-! ### The end of the event -/

variable {s : State} {f : Event → Event}

theorem event_outageAt (n : Nat) (f : Event → Event) (s : State) :
    outageAt n (event f s).net = outageAt n (f (Event.start s)).net := by
  obtain ⟨plans, hplans⟩ := event_net f s
  rw [hplans]
  rfl

/-- The notice of a marked outage reaches its subscribers. -/
theorem event_outageNotified (h : OutageIs n y (openMark n) (f (Event.start s))) :
    Notified .outage (.outageState n (some y.state) y.off) s (event f s) := fun q hq => by
  obtain ⟨p, hp, rfl⟩ := Option.map_eq_some_iff.1 h.record
  have hnotice : (Block.ogt, ({ body := .outageState n (some p.2.state) p.2.off, also := [] } : Post))
      ∈ outageNotice (f (Event.start s)).net { number := n, closed := none } := by
    simp only [outageNotice, hp]
    exact List.mem_singleton_self _
  refine deliverAll_reaches s.tbu.clock _ s.ports q { body := .outageState n (some p.2.state) p.2.off, also := [] } ?_
    (by simp [entitled, noticeClass, hq])
  rw [mem_merge]
  refine ⟨.ogt, ?_⟩
  simp only [eventPosts, List.mem_append, List.mem_flatMap]
  exact .inl (.inl (.inr ⟨_, h.marks _ (List.mem_singleton_self _), hnotice⟩))

end Sys2Proof.Machine
end

section
/-!
Gathering (R48, R87, R88, R94, R95): every section that waits joins a new outage of its group, or goes on waiting with
UNRECORDED_LOSS while every record is in use.
-/

namespace Sys2Proof.Machine

variable {R : Nat → Nat → Prop} {V : Nat → Option (Supply × Bool)} {a : Net} {e : Event} {m : Image} {n k : Nat}
  {o q : Outage} {l : List Nat}

/-! ### The record of an outage that sections join -/

/-- An outage but for the count of its linked calls. -/
def Outage.unlinked (o : Outage) : Outage := { o with linked := 0 }

/-- An outage stands under its number as `q`, whatever calls are linked to it, and is marked. -/
structure RecordIs (n : Nat) (q : Outage) (e : Event) : Prop where
  record : (outageAt n e.net).map Outage.unlinked = some q
  mark : ∀ x ∈ openMark n, x ∈ e.outages

theorem RecordIs.leaves {e' : Event} (h : RecordIs n q e) (hl : LeavesOutages e e') : RecordIs n q e' where
  record := (congrArg (fun t => ((outageNumbered n t).map Prod.snd).map Outage.unlinked) hl.records).trans h.record
  mark x hx := hl.marks ▸ h.mark x hx

theorem call_leavesOutages (k : Nat) (f : Call → Call) (e : Event) : LeavesOutages e (e.call k f) :=
  .trans (callQuietly_leavesOutages k f e)
    ⟨congrArg Net.outages (Event.markCall_net k (e.callQuietly k f)), Event.markCall_outages k (e.callQuietly k f)⟩

theorem sectFields_leavesOutages (k : Nat) (f : Sect → Sect) (e : Event) :
    LeavesOutages e (e.sectFields k f) := ⟨rfl, rfl⟩

theorem clearOverdue_leavesOutages (c : Call) (e : Event) : LeavesOutages e (e.clearOverdue c) := by
  unfold Event.clearOverdue
  dsimp only
  constructor <;> split <;> split <;> rfl

theorem setSuspected_leavesOutages (k : Nat) (c : Bool) (e : Event) : LeavesOutages e (e.setSuspected k c) := by
  unfold Event.setSuspected
  split
  · exact .refl e
  · split
    · exact .refl e
    · exact ⟨rfl, rfl⟩

theorem noGasCount_leavesOutages (k : Nat) (f : Nat → Nat) (e : Event) : LeavesOutages e (e.noGasCount k f) := by
  unfold Event.noGasCount
  split
  · exact .refl e
  · exact (sectFields_leavesOutages k _ e).trans (setSuspected_leavesOutages _ _ _)

theorem stopAwaiting_leavesOutages (k : Nat) (e : Event) : LeavesOutages e (e.stopAwaiting k) := by
  unfold Event.stopAwaiting
  split
  · exact .refl e
  · split
    · exact (sectFields_leavesOutages k _ e).trans (setUnrecorded_leavesOutages k false _)
    · exact .refl e

theorem countLink_record {f : Nat → Nat} {j : Nat} (h : RecordIs n q e) : RecordIs n q (e.countLink j f) := by
  refine ⟨?_, h.mark⟩
  have hcounted := outageAt_mapTable (a := e.net) (n := j) (j := n) (f := fun o => { o with linked := f o.linked })
    fun _ => rfl
  refine (congrArg (fun x => x.map Outage.unlinked) hcounted).trans (Eq.trans ?_ h.record)
  rw [Option.map_map]
  congr 1
  funext o
  by_cases hj : o.number = j <;> simp [hj, Outage.unlinked]

theorem link_record {j i : Nat} {isNew : Bool} (h : RecordIs n q e) : RecordIs n q (e.link j isNew i) := by
  unfold Event.link
  dsimp only
  split
  · exact h
  · have hcalled := h.leaves (call_leavesOutages i (fun x => stopTiming { x with outage := some j }) e)
    split
    · exact countLink_record (hcalled.leaves (clearOverdue_leavesOutages _ _))
    · exact countLink_record ((hcalled.leaves (noGasCount_leavesOutages _ _ _)).leaves (clearOverdue_leavesOutages _ _))

theorem linkSection_record {j : Nat} (h : RecordIs n q e) : RecordIs n q (e.linkSection j k) := by
  unfold Event.linkSection
  generalize callsWhere _ e.net = calls
  induction calls generalizing e with
  | nil => exact h
  | cons i t ih => exact ih (link_record h)

theorem join_record (h : RecordIs n q e) : RecordIs n (joined e.image k q) (e.join n k) := by
  obtain ⟨o, ho, rfl⟩ := Option.map_eq_some_iff.1 h.record
  have hjoined : RecordIs n (joined e.image k o.unlinked) (e.outage n (joined e.image k)) := by
    refine ⟨?_, fun x hx => ?_⟩
    · rw [outage_net, outageAt_change (f := joined e.image k) (fun _ => rfl) ho]
      rfl
    · rw [List.mem_singleton.1 hx]
      exact outage_marks n _ e
  have hlinked := linkSection_record (j := n) (k := k) (hjoined.leaves (stopAwaiting_leavesOutages k _))
  unfold Event.join
  simp only [ho]
  split
  · exact hlinked.leaves (suppressPoints_leavesOutages true _ _)
  · exact hlinked

theorem join_image (n k : Nat) (e : Event) : (e.join n k).image = e.image :=
  Event.join_grows (imageClosed e.image) n k e rfl

theorem joins_record (h : RecordIs n q e) :
    RecordIs n (l.foldl (fun o k => joined e.image k o) q) (e.joins n l) := by
  induction l generalizing e q with
  | nil => exact h
  | cons k t ih =>
    have hrest := ih (join_record (k := k) h)
    rw [join_image] at hrest
    exact hrest

/-- Joins leave all but the members and the premises of an outage. -/
theorem joined_all (m : Image) (l : List Nat) (q : Outage) :
    let y := l.foldl (fun o k => joined m k o) q
    y.cause = q.cause ∧ y.state = q.state ∧ y.plan = q.plan ∧ y.relapse = q.relapse ∧ y.created = q.created
      ∧ y.members.length = q.members.length + l.length ∧ ∀ k ∈ l, k ∈ memberSections y := by
  have hkept (l : List Nat) (q : Outage) (k : Nat) (hk : k ∈ memberSections q) :
      k ∈ memberSections (l.foldl (fun o k => joined m k o) q) := by
    induction l generalizing q with
    | nil => exact hk
    | cons j t ih => exact ih _ (mem_insertMember.2 (.inr hk))
  induction l generalizing q with
  | nil => exact ⟨rfl, rfl, rfl, rfl, rfl, rfl, fun _ hk => nomatch hk⟩
  | cons j t ih =>
    obtain ⟨hcause, hstate, hplan, hrelapse, hcreated, hlength, hmembers⟩ := ih (joined m j q)
    have hinserted : (joined m j q).members.length = q.members.length + 1 :=
      (insertBy_perm _ _ q.members).length_eq
    refine ⟨hcause, hstate, hplan, hrelapse, hcreated, ?_, List.forall_mem_cons.2 ⟨?_, hmembers⟩⟩
    · rw [List.length_cons]
      exact hlength.trans (by rw [hinserted]; omega)
    · exact hkept t _ j (mem_insertMember.2 (.inl rfl))

/-! ### The flags of the sections that join -/

/-- The sections of a list wait no more. -/
def joinedView (V : Nat → Option (Supply × Bool)) (l : List Nat) (j : Nat) : Option (Supply × Bool) :=
  (V j).map fun x => (x.1, if j ∈ l then false else x.2)

theorem joinedView_notMem (h : k ∉ l) : joinedView V l k = V k := by simp [joinedView, h]

theorem joinedView_mem (h : k ∈ l) : joinedView V l k = (V k).map fun x => (x.1, false) := by simp [joinedView, h]

theorem joinedView_cons (V : Nat → Option (Supply × Bool)) (k : Nat) (t : List Nat) :
    joinedView (flagView V k false) t = joinedView V (k :: t) := by
  funext j
  unfold joinedView flagView
  rw [Option.map_map]
  congr 1
  funext x
  by_cases hjt : j ∈ t <;> by_cases hjk : j = k <;> simp [hjt, hjk]

theorem joins_shape (h : e.net.LossShape R V) (hq : RecordIs n q e) :
    ∃ R', (e.joins n l).net.LossShape R' (joinedView V l) := by
  induction l generalizing e R V q with
  | nil =>
    have hsame : joinedView V [] = V := funext fun j => joinedView_notMem (List.not_mem_nil)
    exact ⟨R, hsame.symm ▸ h⟩
  | cons k t ih =>
    obtain ⟨o, ho, -⟩ := Option.map_eq_some_iff.1 hq.record
    obtain ⟨R', hrest⟩ := ih (h.join ho) (join_record (k := k) hq)
    exact ⟨R', joinedView_cons V k t ▸ hrest⟩

variable {idx : Nat} {c : Cause} {st : OutageState} {plan : Option Nat}

theorem markOutage_mark (n : Nat) (e : Event) : { number := n, closed := none } ∈ (e.markOutage n).outages := by
  unfold Event.markOutage
  split
  · assumption
  · exact List.mem_append_right _ (List.mem_singleton_self _)

theorem emptyOutage_record (h : Table.Within 32 e.net.outages) (hfree : lookup idx e.net.outages = none) :
    RecordIs (nextOutage e.net) (newOutage (nextOutage e.net) c st plan e.clock) (e.emptyOutage idx c st plan) where
  record := by
    rw [emptyOutage_outageAt h hfree, if_pos rfl]
    rfl
  mark x hx := by
    rw [List.mem_singleton.1 hx]
    exact markOutage_mark _ _

/-! ### Gathering -/

/-- A section is a member of a new outage, created by a gathering that began with the outages of `a`. -/
structure GatheredIn (clock : Word) (k n : Nat) (o : Outage) (a : Net) (e : Event) : Prop where
  new : outageAt n a = none
  record : OutageIs n o (openMark n) e
  member : k ∈ memberSections o
  length : o.members.length ≤ 64
  cause : o.cause = .supplyLoss
  state : o.state = .active
  plan : o.plan = none
  relapse : o.relapse = false
  created : o.created = clock

/-- Every outage record is in use. -/
def RecordsFull (a : Net) : Prop := ∀ j, j < 32 → lookup j a.outages ≠ none

/-- A group becomes one outage. -/
theorem createOutage_gathered (h : e.net.LossShape R V) (hfree : lookup idx e.net.outages = none) (hidx : idx < 32)
    (hlength : l.length ≤ 64) : ∃ R' n o,
      (e.createOutage idx .supplyLoss .active none l).net.LossShape R' (joinedView V l)
      ∧ ∀ k ∈ l, GatheredIn e.clock k n o e.net (e.createOutage idx .supplyLoss .active none l) := by
  have hempty := h.emptyOutage (c := .supplyLoss) (st := .active) (plan := none) hfree hidx
  have hrecord := emptyOutage_record (c := .supplyLoss) (st := .active) (plan := none) h.outages hfree
  obtain ⟨R', hshape⟩ := joins_shape (l := l) hempty hrecord
  obtain ⟨hjoined, hmark⟩ := joins_record (l := l) hrecord
  obtain ⟨o, ho, hunlinked⟩ := Option.map_eq_some_iff.1 hjoined
  obtain ⟨hcause, hstate, hplan, hrelapse, hcreated, hmembers, hall⟩ := joined_all
    (e.emptyOutage idx .supplyLoss .active none).image l
    (newOutage (nextOutage e.net) .supplyLoss .active none e.clock)
  rw [← hunlinked] at hcause hstate hplan hrelapse hcreated hmembers hall
  have hnew := outageAt_none_of_fresh (nextOutage_fresh h.outages)
  refine ⟨R', nextOutage e.net, o, hshape, fun k hk => ⟨hnew, ⟨hshape.outages, ho, hmark⟩, hall k hk, ?_, hcause,
    hstate, hplan, hrelapse, hcreated⟩⟩
  exact (show o.members.length = 0 + l.length from hmembers) ▸ (Nat.zero_add l.length).symm ▸ hlength

theorem lowestFree_none {α : Type} {t : Table α} {from_ n j : Nat} (h : lowestFree t from_ n = none) (hle : from_ ≤ j)
    (hlt : j < from_ + n) : lookup j t ≠ none := by
  induction n generalizing from_ with
  | zero => omega
  | succ n ih =>
    unfold lowestFree at h
    split at h
    · next hsome =>
      by_cases hj : j = from_
      · exact Option.isSome_iff_ne_none.1 (hj ▸ hsome)
      · exact ih h (by omega) (by omega)
    · cases h

/-- No step of an event changes its clock. -/
theorem clockClosed (c : Word) : EventClosed (fun e => e.clock = c) where
  setNet _ _ h := h
  choices _ _ h := h
  report _ _ _ _ _ h := h
  post _ _ _ _ h := h
  markPlan _ _ _ _ _ _ h := h
  markReleased _ _ _ h := h
  markOutage n e h := (Event.markOutage_clock n e).trans h
  markClosed _ _ _ h := h
  markCall n e h := (Event.markCall_clock n e).trans h
  markFreed _ _ _ h := h

theorem createOutage_clock (idx : Nat) (c : Cause) (st : OutageState) (plan : Option Nat) (l : List Nat) (e : Event) :
    (e.createOutage idx c st plan l).clock = e.clock :=
  Event.createOutage_grows (clockClosed e.clock) idx c st plan l e rfl

/-- What a gathering does with the sections of its groups. -/
theorem gatherGroups_takes {gs : List (List Nat)} (h : e.net.LossShape R V)
    (hapart : gs.Pairwise fun g g' => ∀ k ∈ g, k ∉ g') (hlength : ∀ g ∈ gs, g.length ≤ 64) :
    ∃ R' V', (Event.gatherGroups gs e).net.LossShape R' V' ∧ (∀ k, (∀ g ∈ gs, k ∉ g) → V' k = V k)
      ∧ ∀ g ∈ gs, ∀ k ∈ g, (V' k = V k ∧ RecordsFull (Event.gatherGroups gs e).net)
        ∨ (V' k = (V k).map (fun x => (x.1, false))
          ∧ ∃ n o, GatheredIn e.clock k n o e.net (Event.gatherGroups gs e)) := by
  induction gs generalizing e R V with
  | nil => exact ⟨R, V, h, fun _ _ => rfl, fun _ hg => nomatch hg⟩
  | cons g t ih =>
    obtain ⟨hg, hrest⟩ := List.pairwise_cons.1 hapart
    obtain ⟨hlg, hlt⟩ := List.forall_mem_cons.1 hlength
    unfold Event.gatherGroups
    cases hidx : lowestFree e.net.outages 0 Config.outageRecords with
    | none =>
      exact ⟨R, V, h, fun _ _ => rfl, fun _ _ _ _ => .inl ⟨rfl, fun j hj => lowestFree_none hidx (Nat.zero_le j)
        (by rw [Nat.zero_add]; exact hj)⟩⟩
    | some idx =>
      obtain ⟨R1, n, o, hshape, hnew⟩ := createOutage_gathered h (lowestFree_spec hidx).1 (lowestFree_lt hidx) hlg
      obtain ⟨R', V', hend, hother, htaken⟩ := ih hshape hrest hlt
      refine ⟨R', V', hend, fun k hk => ?_, ?_⟩
      · obtain ⟨hkg, hkt⟩ := List.forall_mem_cons.1 hk
        exact (hother k hkt).trans (joinedView_notMem hkg)
      · refine List.forall_mem_cons.2 ⟨fun k hk => .inr ⟨?_, n, o, ?_⟩, fun g' hg' k hk => ?_⟩
        · exact (hother k fun g' hg' => hg g' hg' k hk).trans (joinedView_mem hk)
        · exact { hnew k hk with
            record := (outageIs_steps (fun _ => openMark_number)).gatherGroups (hnew k hk).record }
        · have hkg : k ∉ g := fun hkg => hg g' hg' k hkg hk
          rw [← joinedView_notMem (V := V) hkg]
          refine (htaken g' hg' k hk).imp_right fun ⟨hview, j, y, hj⟩ => ⟨hview, j, y, ?_⟩
          refine { hj with new := ?_, created := hj.created.trans (createOutage_clock ..) }
          cases hold : outageAt j e.net with
          | none => rfl
          | some z =>
            have hz : OutageIs j z [] (e.createOutage idx .supplyLoss .active none g) :=
              (outageIs_steps fun x (hx : x ∈ []) => nomatch hx).createOutage hidx
                ⟨h.outages, hold, fun _ hx => nomatch hx⟩
            exact absurd (hz.record.symm.trans hj.new) (by simp)

/-! ### UNRECORDED_LOSS of those left waiting (R95) -/

theorem setUnrecorded_sections (k : Nat) (c : Bool) (e : Event) (j : Nat) :
    lookup j (e.setUnrecorded k c).net.sections
      = (lookup j e.net.sections).map fun z => if j = k then { z with unrecorded := c } else z := by
  unfold Event.setUnrecorded
  split
  · next hk =>
    by_cases hj : j = k
    · rw [hj, hk]
      rfl
    · simp [hj]
  · next x hx =>
    split
    · next hsame =>
      by_cases hj : j = k
      · rw [hj, hx]
        simp [← hsame]
      · simp [hj]
    · refine (lookup_adjust j k _ e.net.sections).trans ?_
      by_cases hj : j = k <;> simp [hj]

theorem raiseUnrecorded_sections (l : List Nat) (e : Event) (j : Nat) :
    lookup j (Event.raiseUnrecorded l e).net.sections
      = (lookup j e.net.sections).map fun z => if j ∈ l then { z with unrecorded := true } else z := by
  induction l generalizing e with
  | nil => simp [Event.raiseUnrecorded]
  | cons k t ih =>
    refine (ih _).trans ?_
    rw [setUnrecorded_sections, Option.map_map]
    congr 1
    funext z
    by_cases hjt : j ∈ t <;> by_cases hjk : j = k <;> simp [hjt, hjk]

theorem mem_groupsOf {α : Type} {m fuel : Nat} {l : List α} {x : α} (hm : 0 < m) (hfuel : l.length ≤ fuel)
    (hx : x ∈ l) : ∃ g ∈ groupsOf m fuel l, x ∈ g := by
  induction fuel generalizing l with
  | zero => exact absurd (List.eq_nil_of_length_eq_zero (Nat.le_zero.1 hfuel)) (List.ne_nil_of_mem hx)
  | succ fuel ih =>
    cases l with
    | nil => cases hx
    | cons y t =>
      have hx' := hx
      rw [← List.take_append_drop m (y :: t)] at hx'
      rcases List.mem_append.1 hx' with htake | hdrop
      · exact ⟨_, List.mem_cons_self .., htake⟩
      · obtain ⟨g, hg, hxg⟩ := ih (by rw [List.length_drop]; simp only [List.length_cons] at hfuel ⊢; omega) hdrop
        exact ⟨g, List.mem_cons_of_mem _ hg, hxg⟩

theorem length_of_mem_groupsOf {α : Type} {m fuel : Nat} {l g : List α} (hg : g ∈ groupsOf m fuel l) :
    g.length ≤ m := by
  induction fuel generalizing l with
  | zero => cases hg
  | succ fuel ih =>
    cases l with
    | nil => cases hg
    | cons y t =>
      rcases List.mem_cons.1 hg with rfl | hg
      · exact List.length_take_le _ _
      · exact ih hg

theorem mem_waiting (h : a.sections.wf = true) :
    k ∈ waiting a ↔ ∃ z, lookup k a.sections = some z ∧ z.awaiting = true := mem_keys_filter h

/-- A section that waits is gathered, or waits on with UNRECORDED_LOSS. -/
theorem gather_takes (h : e.net.LossShape R V) (hk : k ∈ waiting e.net) : ∃ w, lookup k e.gather.net.sections = some w
    ∧ ((w.awaiting = true ∧ w.unrecorded = true ∧ RecordsFull e.gather.net)
      ∨ (w.awaiting = false ∧ ∃ n o, GatheredIn e.clock k n o e.net e.gather)) := by
  obtain ⟨R', V', hshape, -, htaken⟩ := gatherGroups_takes
    (gs := groupsOf Config.outageMembers (waiting e.net).length (waiting e.net)) h
    (groupsOf_apart (waiting_nodup h.sections)) fun g hg => length_of_mem_groupsOf hg
  obtain ⟨g, hg, hkg⟩ := mem_groupsOf (m := Config.outageMembers) (by decide) le_rfl hk
  obtain ⟨z, hz, hwaits⟩ := (mem_waiting h.sections).1 hk
  have hleaves := raiseUnrecorded_leavesOutages (waiting (Event.gatherGroups
    (groupsOf Config.outageMembers (waiting e.net).length (waiting e.net)) e).net) (Event.gatherGroups
    (groupsOf Config.outageMembers (waiting e.net).length (waiting e.net)) e)
  have hbefore : V k = some (z.supply, true) := by rw [← h.view, Net.lossView, hz, ← hwaits]; rfl
  unfold Event.gather
  dsimp only
  generalize Event.gatherGroups (groupsOf Config.outageMembers (waiting e.net).length (waiting e.net)) e = e1 at *
  have hview (w : Bool) (hv : V' k = some (z.supply, w)) : ∃ y, lookup k e1.net.sections = some y ∧ y.awaiting = w := by
    rw [← hshape.view] at hv
    obtain ⟨y, hy, heq⟩ := Option.map_eq_some_iff.1 hv
    exact ⟨y, hy, congrArg Prod.snd heq⟩
  rw [raiseUnrecorded_sections]
  rcases htaken g hg k hkg with ⟨hv, hfull⟩ | ⟨hv, n, o, hnew⟩
  · obtain ⟨y, hy, hawaits⟩ := hview true (hv.trans hbefore)
    have hmem : k ∈ waiting e1.net := (mem_waiting hshape.sections).2 ⟨y, hy, hawaits⟩
    refine ⟨{ y with unrecorded := true }, by simp [hy, hmem], .inl ⟨hawaits, rfl, ?_⟩⟩
    exact fun j hj => hleaves.records ▸ hfull j hj
  · obtain ⟨y, hy, hawaits⟩ := hview false (by rw [hv, hbefore]; rfl)
    have hmem : k ∉ waiting e1.net := fun hmem => by
      obtain ⟨y', hy', htrue⟩ := (mem_waiting hshape.sections).1 hmem
      obtain rfl := Option.some.inj (hy.symm.trans hy')
      exact Bool.false_ne_true (hawaits.symm.trans htrue)
    refine ⟨y, by simp [hy, hmem], .inr ⟨hawaits, n, o, { hnew with record := hnew.record.leaves hleaves }⟩⟩

/-! ### Sections that do not wait -/

/-- A section neither waits nor has UNRECORDED_LOSS. -/
def CalmAt (k : Nat) (a : Net) : Prop :=
  ∀ z, lookup k a.sections = some z → z.awaiting = false ∧ z.unrecorded = false

theorem calmAt_rules (k : Nat) : RulesClosed (CalmAt k) where
  other _ _ hs _ h z hz := h z (hs ▸ hz)
  counters n j f hf h z hz := by
    rw [lookup_adjust] at hz
    split at hz
    · obtain ⟨y, hy, rfl⟩ := Option.map_eq_some_iff.1 hz
      rw [(hf y).2.1, (hf y).2.2]
      exact h y hy
    · exact h z hz
  links _ _ _ h := h
  records _ _ _ _ h := h

theorem setUnrecorded_calm {j : Nat} {c : Bool} (hj : j = k → c = false) (h : CalmAt k e.net) :
    CalmAt k (e.setUnrecorded j c).net := fun z hz => by
  rw [setUnrecorded_sections] at hz
  obtain ⟨y, hy, rfl⟩ := Option.map_eq_some_iff.1 hz
  split
  · next hkj => exact ⟨(h y hy).1, hj hkj.symm⟩
  · exact h y hy

theorem stopAwaiting_calm {j : Nat} (h : CalmAt k e.net) : CalmAt k (e.stopAwaiting j).net := by
  unfold Event.stopAwaiting
  split
  · exact h
  · split
    · refine setUnrecorded_calm (fun _ => rfl) fun z hz => ?_
      rw [show (e.sectFields j fun y => { y with awaiting := false }).net.sections
        = adjust j (fun y => { y with awaiting := false }) e.net.sections from rfl, lookup_adjust] at hz
      split at hz
      · obtain ⟨y, hy, rfl⟩ := Option.map_eq_some_iff.1 hz
        exact ⟨rfl, (h y hy).2⟩
      · exact h z hz
    · exact h

theorem join_calm {j : Nat} (h : CalmAt k e.net) : CalmAt k (e.join n j).net := by
  have hclosed := calmAt_rules k
  unfold Event.join
  split
  · exact h
  · next o _ =>
    have hlinked := hclosed.register.linkSection (o := n) (k := j)
      (stopAwaiting_calm (j := j) (Event.markOutage_keeps (P := CalmAt k) n (e.outageQuietly n (joined e.image j)) h))
    dsimp only
    split
    · exact hclosed.register.suppress hlinked
    · exact hlinked

theorem joins_calm (h : CalmAt k e.net) : CalmAt k (e.joins n l).net := by
  induction l generalizing e with
  | nil => exact h
  | cons j t ih => exact ih (join_calm h)

theorem gatherGroups_calm {gs : List (List Nat)} (h : CalmAt k e.net) : CalmAt k (Event.gatherGroups gs e).net := by
  induction gs generalizing e with
  | nil => exact h
  | cons g t ih =>
    unfold Event.gatherGroups
    split
    · exact h
    · next idx _ =>
      refine ih ?_
      rw [createOutage_eq]
      refine joins_calm ?_
      rw [emptyOutage_net]
      exact h

theorem gather_calm (hshape : e.net.LossShape R V) (h : CalmAt k e.net) : CalmAt k e.gather.net := by
  obtain ⟨R', V', hgathered, -⟩ := gatherGroups_takes
    (gs := groupsOf Config.outageMembers (waiting e.net).length (waiting e.net)) hshape
    (groupsOf_apart (waiting_nodup hshape.sections)) fun g hg => length_of_mem_groupsOf hg
  have hcalm := gatherGroups_calm
    (gs := groupsOf Config.outageMembers (waiting e.net).length (waiting e.net)) h
  unfold Event.gather
  dsimp only
  intro z hz
  rw [raiseUnrecorded_sections] at hz
  obtain ⟨y, hy, rfl⟩ := Option.map_eq_some_iff.1 hz
  rw [if_neg]
  · exact hcalm y hy
  · intro hmem
    obtain ⟨y', hy', htrue⟩ := (mem_waiting hgathered.sections).1 hmem
    exact Bool.false_ne_true ((hcalm y' hy').1.symm.trans htrue)

end Sys2Proof.Machine
end

section
/-!
A publication moves the outages it touches and gathers the losses (O41): the Outage Table's part of LIVE_WALK_COMPLETES.
-/

namespace Sys2Proof.Machine

variable {R : Nat → Nat → Prop} {V : Nat → Option (Supply × Bool)} {a b : Net} {e : Event} {m : Image} {n k : Nat}
  {o y : Outage} {l : List Nat} {s : State} {x : Snapshot}

/-! ### The rules, state by state -/

theorem ruled_declared (hstate : o.state = .declared) :
    ((∃ k ∈ memberSections o, supplyAt a k = .unsupplied) → o.ruled m a = some { o with state := .active })
    ∧ (¬ (∃ k ∈ memberSections o, supplyAt a k = .unsupplied) → o.ruled m a = none) := by
  simp only [Outage.ruled, hstate]
  exact ⟨fun h => if_pos (by simpa using h), fun h => if_neg (by simpa using h)⟩

theorem ruled_active (hstate : o.state = .active) :
    ((∀ k ∈ memberSections o, supplyAt a k = .supplied ∧ hasFreshLow m a k = false) → o.ruled m a =
      some { o with state := .recharging, members := withHolds (paramsOf m).rechargeHold o })
    ∧ (¬ (∀ k ∈ memberSections o, supplyAt a k = .supplied ∧ hasFreshLow m a k = false) → o.ruled m a = none) := by
  simp only [Outage.ruled, hstate]
  exact ⟨fun h => if_pos (by simpa using h), fun h => if_neg (by simpa using h)⟩

theorem ruled_recharging (hstate : o.state = .recharging) :
    ((∃ k ∈ memberSections o, supplyAt a k ≠ .supplied) → o.ruled m a =
      some { o with state := .active, members := withHolds 0 o })
    ∧ (¬ (∃ k ∈ memberSections o, supplyAt a k ≠ .supplied) → o.ruled m a = none) := by
  simp only [Outage.ruled, hstate]
  exact ⟨fun h => if_pos (by simpa using h), fun h => if_neg (by simpa using h)⟩

theorem ruled_relighting (hstate : o.state = .relighting) :
    ((∃ k ∈ memberSections o, supplyAt a k ≠ .supplied) → o.ruled m a = some o.relapsed)
    ∧ (¬ (∃ k ∈ memberSections o, supplyAt a k ≠ .supplied) → o.ruled m a = none) := by
  simp only [Outage.ruled, hstate]
  exact ⟨fun h => if_pos (by simpa using h), fun h => if_neg (by simpa using h)⟩

/-! ### The publication's own part of the Outage Table's event -/

/-- The event once the rules have been taken, before the gathering (R96). -/
def Event.ruledBy (cleared changed : List Nat) (e : Event) : Event :=
  Event.rulesPublished (outagesWhere (fun o => (memberSections o).any (fun k => changed.contains k))
    (Event.clearUnrecorded cleared e).net) (Event.clearUnrecorded cleared e)

theorem takePublication_eq (cleared changed : List Nat) (e : Event) :
    e.takePublication cleared changed = (e.ruledBy cleared changed).gather := rfl

/-- The numbers of the outages in use are as they were. -/
theorem numbers_closed (l : List Nat) : MembersClosed (fun a => a.outages.map (fun x => x.2.number) = l) where
  other _ _ _ ho h := (congrArg (List.map fun x : Nat × Outage => x.2.number) ho).trans h
  counters _ _ _ _ h := h
  links n j f h := (map_number_mapTable (fun _ o => by split <;> rfl) n.outages).trans h
  records n j f hf h := (map_number_mapTable (fun _ o => by
    split
    · exact (hf o).1
    · rfl) n.outages).trans h
  flags _ _ _ _ h := h

theorem outageAt_none_iff : outageAt n a = none ↔ n ∉ a.outages.map (fun x => x.2.number) := by
  refine ⟨fun h hmem => ?_, outageAt_none_of_fresh⟩
  obtain ⟨x, hx, hnumber⟩ := List.mem_map.1 hmem
  exact outageNumbered_none (Option.map_eq_none_iff.1 h) x hx hnumber

theorem waiting_iff_view (h : a.LossShape R V) : k ∈ waiting a ↔ ∃ p, V k = some (p, true) := by
  rw [mem_waiting h.sections, ← h.view]
  unfold Net.lossView
  constructor
  · rintro ⟨z, hz, hw⟩
    exact ⟨z.supply, by rw [hz, ← hw]; rfl⟩
  · rintro ⟨p, hp⟩
    obtain ⟨z, hz, heq⟩ := Option.map_eq_some_iff.1 hp
    exact ⟨z, hz, congrArg Prod.snd heq⟩

theorem gather_rests (h : e.net.LossShape R V) (hk : k ∉ waiting e.net) : e.gather.net.lossView k = V k := by
  obtain ⟨R', V', hshape, hother, -⟩ := gatherGroups_takes
    (gs := groupsOf Config.outageMembers (waiting e.net).length (waiting e.net)) h
    (groupsOf_apart (waiting_nodup h.sections)) fun g hg => length_of_mem_groupsOf hg
  have hraised := (lossShape_closed R' V').raiseUnrecorded (l := waiting (Event.gatherGroups
    (groupsOf Config.outageMembers (waiting e.net).length (waiting e.net)) e).net) hshape
  exact (congrFun hraised.view k).trans (hother k fun g hg hkg => hk (mem_of_mem_groupsOf hg hkg))

theorem clearUnrecorded_sections (l : List Nat) (e : Event) (j : Nat) :
    lookup j (Event.clearUnrecorded l e).net.sections
      = (lookup j e.net.sections).map fun z => if j ∈ l then { z with unrecorded := false } else z := by
  induction l generalizing e with
  | nil => simp [Event.clearUnrecorded]
  | cons k t ih =>
    refine (ih _).trans ?_
    rw [setUnrecorded_sections, Option.map_map]
    congr 1
    funext z
    by_cases hjt : j ∈ t <;> by_cases hjk : j = k <;> simp [hjt, hjk]

/-! ### The event of the command -/

/-- What is known of the event between the publication and the gathering. -/
structure RuledPublication (x : Snapshot) (s : State) (e : Event) : Prop where
  shape : ∃ R, e.net.LossShape R (Net.lossView ((Event.start s).published x).net)
  numbers : e.net.outages.map (fun x => x.2.number) = s.net.outages.map (fun x => x.2.number)
  clock : e.clock = s.tbu.clock
  gathered : e.gather = (Event.start s).publish x
  calm : ∀ k z, lookup k s.net.sections = some z → z.awaiting = true → classify s.cfu.image x k ≠ .unsupplied →
    CalmAt k e.net

theorem published_lookup (x : Snapshot) (s : State) (k : Nat) :
    lookup k ((Event.start s).published x).net.sections = (lookup k s.net.sections).map
      (published (classify s.cfu.image x k) (outageOf k s.net.outages).isSome) := by
  rw [published_eventNet]
  exact lookup_publishAll _ _ _ _ _

theorem published_awaiting {p : Supply} (c : Bool) (z : Sect) (hp : p ≠ .unsupplied) :
    (published p c z).awaiting = false := by
  cases p with
  | supplied => rfl
  | uncertain => rfl
  | unsupplied => exact absurd rfl hp

theorem ruledPublication (h : TablesSound s) : ∃ e, RuledPublication x s e := by
  have hnet := published_eventNet x (Event.start s)
  generalize hcleared : clearedSections s.net.sections ((Event.start s).published x).net.sections = cleared
  have hshape : ((Event.start s).published x).net.LossShape ((Event.start s).published x).net.Holds
      ((Event.start s).published x).net.lossView := by
    refine ⟨?_, ?_, ?_, rfl, rfl⟩ <;> rw [hnet]
    · exact (Table.wf_mapTable _ _).trans h.net.sections
    · exact h.net.outages
    · exact h.net.outageNumbers
  have hclosed := lossShape_closed ((Event.start s).published x).net.Holds ((Event.start s).published x).net.lossView
  have hnumbers := numbers_closed (s.net.outages.map fun x => x.2.number)
  have hclock : ((Event.start s).published x).clock = s.tbu.clock := by
    unfold Event.published
    dsimp only
    split <;> rfl
  refine ⟨((Event.start s).published x).ruledBy cleared
    (changedSections s.net.sections ((Event.start s).published x).net.sections), ⟨_,
      hclosed.rules.rulesPublished (hclosed.clearUnrecorded hshape)⟩,
    hnumbers.rules.rulesPublished (hnumbers.clearUnrecorded (by rw [hnet]; rfl)),
    Event.rulesPublished_grows (clockClosed _) _ _ (Event.clearUnrecorded_grows (clockClosed _) _ _ hclock), ?_,
    fun k z hz hwaits hclass => (calmAt_rules k).rulesPublished ?_⟩
  · rw [publish_eq, takePublication_eq, ← hcleared]
    rfl
  · intro w hw
    rw [clearUnrecorded_sections, published_lookup, hz] at hw
    have hmem : k ∈ cleared := by
      rw [← hcleared]
      refine List.mem_filter.2 ⟨(mem_keys_iff_lookup k _).2 (by rw [hz]; rfl), ?_⟩
      rw [published_lookup, hz]
      simp [hwaits, published_awaiting _ z hclass]
    simp only [Option.map_some, if_pos hmem, Option.some.injEq] at hw
    rw [← hw]
    exact ⟨published_awaiting _ z hclass, rfl⟩

theorem grant_leavesOutages {f : Net → Net} (h : (f e.net).outages = e.net.outages) : LeavesOutages e (e.grant f) :=
  ⟨h, rfl⟩

theorem walkEnds_leavesOutages (x : Snapshot) (e : Event) : LeavesOutages (e.publish x) (walkEnds x e) := by
  unfold walkEnds
  generalize e.publish x = e'
  exact grant_leavesOutages (grantAfterWalk_engineOnly e'.net).outages

/-- The arbiter's grant and the reasons leave sections, outages and readings as the publication made them. -/
theorem walkEnds_keeps (x : Snapshot) (s : State) :
    (event (walkEnds x) s).net.sections = ((Event.start s).publish x).net.sections
      ∧ (event (walkEnds x) s).net.outages = ((Event.start s).publish x).net.outages
      ∧ ∀ a, SameReadings a ((Event.start s).publish x).net → SameReadings a (event (walkEnds x) s).net := by
  obtain ⟨engine, pending, trials, plans, hnet⟩ := walkEnds_net x s
  generalize ((Event.start s).publish x).net = n at hnet ⊢
  rw [hnet]
  exact ⟨rfl, rfl, fun a h => { h with }⟩

/-- The published states and the bands, as the rules read them, stand at the end. -/
theorem walkEnds_readings (x : Snapshot) (s : State) :
    SameReadings ((Event.start s).published x).net (event (walkEnds x) s).net := by
  refine (walkEnds_keeps x s).2.2 _ ?_
  rw [publish_eq]
  exact Event.takePublication_keeps (sameReadings_closed _) _ _ _ ⟨fun _ => rfl, fun _ => rfl⟩

/-! ### The outages touched -/

/-- An outage's turn in LIVE_WALK_COMPLETES, as the state at the end shows it. -/
theorem walkEnds_turn (h : TablesSound s) (ho : outageAt n s.net = some o)
    [Decidable (Touched s.net (event (walkEnds x) s).net o)] : TakesTurn n o
      (if Touched s.net (event (walkEnds x) s).net o then o.ruled s.cfu.image (event (walkEnds x) s).net else none)
      (walkEnds x (Event.start s)) := by
  classical
  have hreadings := walkEnds_readings x s
  have hturn := publish_turn (e := Event.start s) (x := x) h.net.outages h.net.outageNumbers ho
  have htouched : Touched (Event.start s).net ((Event.start s).published x).net o
      ↔ Touched s.net (event (walkEnds x) s).net o := by
    unfold Touched
    simp only [supplyAt_congr hreadings.supply]
    rfl
  rw [← ruled_congr hreadings] at hturn
  simp only [htouched] at hturn
  exact hturn.steps fun y w _ hy => hy.leaves (walkEnds_leavesOutages x _)

theorem walkEnds_turns (hturn : TakesTurn n o (some y) (walkEnds x (Event.start s))) :
    outageAt n (event (walkEnds x) s).net = some y
      ∧ Notified .outage (.outageState n (some y.state) y.off) s (event (walkEnds x) s) :=
  ⟨(event_outageAt n _ s).trans hturn.record, event_outageNotified hturn⟩

theorem walkEnds_stays (hturn : TakesTurn n o none (walkEnds x (Event.start s))) :
    outageAt n (event (walkEnds x) s).net = some o := (event_outageAt n _ s).trans hturn.record

/-! ### The sections -/

/-- A section newly UNSUPPLIED, or one that still waits, is gathered or waits on. -/
theorem walkEnds_gathers {z : Sect} (h : TablesSound s) (hz : lookup k s.net.sections = some z)
    (hclass : classify s.cfu.image x k = .unsupplied) (hnew : z.supply ≠ .unsupplied ∨ z.awaiting = true)
    (hnone : outageOf k s.net.outages = none) : ∃ w, lookup k (event (walkEnds x) s).net.sections = some w
      ∧ ((w.awaiting = true ∧ w.unrecorded = true ∧ RecordsFull (event (walkEnds x) s).net)
        ∨ (w.awaiting = false ∧ ∃ n o, GatheredIn s.tbu.clock k n o s.net (walkEnds x (Event.start s)))) := by
  obtain ⟨e, hruled⟩ := ruledPublication (x := x) h
  obtain ⟨R, hshape⟩ := hruled.shape
  have hwaits : k ∈ waiting e.net := by
    refine (waiting_iff_view hshape).2 ⟨.unsupplied, ?_⟩
    unfold Net.lossView
    rw [published_lookup, hz, hclass, hnone]
    by_cases hs : z.supply = .unsupplied
    · simp [published, hs, hnew.resolve_left (not_not.2 hs)]
    · simp [published, hs]
  obtain ⟨w, hw, hcase⟩ := gather_takes hshape hwaits
  rw [hruled.gathered] at hw hcase
  refine ⟨w, (congrArg (lookup k) (walkEnds_keeps x s).1).trans hw, hcase.imp ?_ ?_⟩
  · rintro ⟨hwait, hflag, hfull⟩
    exact ⟨hwait, hflag, fun j hj => (congrArg (lookup j) (walkEnds_keeps x s).2.1).trans_ne (hfull j hj)⟩
  · rintro ⟨hwait, n, o, hin⟩
    refine ⟨hwait, n, o, { hin with
      new := ?_, record := hin.record.leaves (walkEnds_leavesOutages x _), created := hin.created.trans hruled.clock }⟩
    rw [outageAt_none_iff, ← hruled.numbers, ← outageAt_none_iff]
    exact hin.new

/-- A section that is not UNSUPPLIED waits no more. -/
theorem walkEnds_rests {z : Sect} (h : TablesSound s) (hz : lookup k s.net.sections = some z)
    (hclass : classify s.cfu.image x k ≠ .unsupplied) : ∃ w, lookup k (event (walkEnds x) s).net.sections = some w
      ∧ w.awaiting = false ∧ (z.awaiting = true → w.unrecorded = false) := by
  obtain ⟨e, hruled⟩ := ruledPublication (x := x) h
  obtain ⟨R, hshape⟩ := hruled.shape
  have hview : ((Event.start s).published x).net.lossView k = some (classify s.cfu.image x k, false) := by
    unfold Net.lossView
    rw [published_lookup, hz]
    simp [published_supply, published_awaiting _ z hclass]
  have hrests := gather_rests (k := k) hshape fun hwaits => by
    obtain ⟨p, hp⟩ := (waiting_iff_view hshape).1 hwaits
    rw [hview] at hp
    cases hp
  rw [hview, hruled.gathered] at hrests
  obtain ⟨w, hw, heq⟩ := Option.map_eq_some_iff.1 hrests
  refine ⟨w, (congrArg (lookup k) (walkEnds_keeps x s).1).trans hw, congrArg Prod.snd heq, fun hwaits => ?_⟩
  have hcalm := gather_calm hshape (hruled.calm k z hz hwaits hclass)
  rw [hruled.gathered] at hcalm
  exact (hcalm w hw).2

/-- Settles O41: the turn of every outage, and the gathering of the losses. -/
theorem publicationMovesTheOutages : Obligations.PublicationMovesTheOutages := by
  classical
  intro s x h _ hrun hwalk
  refine ⟨_, liveWalkCompletes_runs hrun hwalk, fun n o ho => ?_, fun k z hz hclass hnew hnone => ?_,
    fun k z hz hclass => walkEnds_rests h hz hclass⟩
  · have hturn := walkEnds_turn (x := x) h ho
    have hlow (k : Nat) : hasFreshLow s.cfu.image (event (walkEnds x) s).net k = hasFreshLow s.cfu.image s.net k := by
      rw [hasFreshLow_congr (walkEnds_readings x s).bands, published_eventNet]
      rfl
    have hmoves {c : Prop} {y : Outage} (ht : Touched s.net (event (walkEnds x) s).net o)
        (hr : (c → o.ruled s.cfu.image (event (walkEnds x) s).net = some y)
          ∧ (¬ c → o.ruled s.cfu.image (event (walkEnds x) s).net = none)) :
        (c → outageAt n (event (walkEnds x) s).net = some y
          ∧ Notified .outage (.outageState n (some y.state) y.off) s (event (walkEnds x) s))
        ∧ (¬ c → outageAt n (event (walkEnds x) s).net = some o) := by
      rw [if_pos ht] at hturn
      exact ⟨fun hc => walkEnds_turns (hr.1 hc ▸ hturn), fun hc => walkEnds_stays (hr.2 hc ▸ hturn)⟩
    refine ⟨fun (ht : ¬ Touched s.net _ o) => walkEnds_stays (by rwa [if_neg ht] at hturn),
      fun ht hs => hmoves ht (ruled_declared hs), fun ht hs => ?_,
      fun ht hs => hmoves ht (ruled_recharging hs), fun ht hs => hmoves ht (ruled_relighting hs)⟩
    simpa only [hlow] using hmoves ht (ruled_active (m := s.cfu.image) hs)
  · obtain ⟨w, hw, hcase⟩ := walkEnds_gathers h hz hclass hnew hnone
    refine ⟨w, hw, hcase.imp_right fun ⟨hwait, n, o, hin⟩ => ⟨hwait, n, o, hin.new,
      (event_outageAt n _ s).trans hin.record.record, hin.member, hin.length, hin.cause, hin.state, hin.plan,
      hin.relapse, hin.created, ?_⟩⟩
    have hnotified := event_outageNotified hin.record
    rwa [hin.state] at hnotified

end Sys2Proof.Machine
end

section
/-!
What a point's reports reach (R39, R98, R99, R104, R125 to R127, R145): the point and its conditions, the Outage Table's
answer, the source of an outlet point, and the calls of an onset.
-/

namespace Sys2Proof.Machine

variable {a b : Net} {e : Event} {m : Image} {n k : Nat} {o : Outage} {l : List CondKind} {x y z : Point} {d : PointDef}

/-! ### What writes points and outages alone -/

/-- All but the points and the outage records is as it was. -/
def PointsAndOutages (a b : Net) : Prop := ∃ pts outs, b = { a with points := pts, outages := outs }

theorem PointsAndOutages.refl (a : Net) : PointsAndOutages a a := ⟨a.points, a.outages, rfl⟩

theorem PointsAndOutages.trans {c : Net} (h : PointsAndOutages a b) (h' : PointsAndOutages b c) :
    PointsAndOutages a c := by
  obtain ⟨_, _, rfl⟩ := h
  obtain ⟨pts, outs, rfl⟩ := h'
  exact ⟨pts, outs, rfl⟩

theorem PointsAndOutages.sections (h : PointsAndOutages a b) : b.sections = a.sections := by
  obtain ⟨_, _, rfl⟩ := h
  rfl

theorem PointsAndOutages.sources (h : PointsAndOutages a b) : b.sources = a.sources := by
  obtain ⟨_, _, rfl⟩ := h
  rfl

theorem PointsAndOutages.calls (h : PointsAndOutages a b) : KeepsCalls a b := by
  obtain ⟨_, _, rfl⟩ := h
  exact ⟨rfl, rfl⟩

theorem PointsAndOutages.lastOutage (h : PointsAndOutages a b) : b.lastOutage = a.lastOutage := by
  obtain ⟨_, _, rfl⟩ := h
  rfl

theorem point_pointsAndOutages (n : Nat) (f : Point → Point) (e : Event) :
    PointsAndOutages e.net (e.point n f).net := ⟨_, e.net.outages, rfl⟩

theorem relistAll_pointsAndOutages (n : Nat) (l : List CondKind) (e : Event) :
    PointsAndOutages e.net (e.relistAll n l).net := by
  induction l generalizing e with
  | nil => exact .refl _
  | cons c t ih =>
    refine .trans ?_ (ih _)
    unfold Event.relistOne
    split
    · exact .refl _
    · split
      · exact .refl _
      · exact point_pointsAndOutages n _ e

/-! ### The conditions of a point relisted -/

theorem relistOne_record (hy : lookup n e.net.points = some y) (c : CondKind) :
    ∃ z, lookup n (e.relistOne n c).net.points = some z ∧ z.core = y.core ∧ ∀ i, wanted z i = wanted y i := by
  unfold Event.relistOne
  rw [hy]
  dsimp only
  split
  · exact ⟨y, hy, rfl, fun _ => rfl⟩
  · exact ⟨_, point_lookup_same _ hy, Point.core_setListed _ _ _, wanted_setListed _ _ _⟩

theorem relistAll_record (hy : lookup n e.net.points = some y) (l : List CondKind) :
    ∃ z, lookup n (e.relistAll n l).net.points = some z ∧ z.core = y.core ∧ ∀ i, wanted z i = wanted y i := by
  induction l generalizing e y with
  | nil => exact ⟨y, hy, rfl, fun _ => rfl⟩
  | cons c t ih =>
    obtain ⟨z, hz, hcore, hwanted⟩ := relistOne_record hy c
    obtain ⟨w, hw, hcore', hwanted'⟩ := ih hz
    exact ⟨w, hw, hcore'.trans hcore, fun i => (hwanted' i).trans (hwanted i)⟩

/-- After a relisting, RATE_OF_FALL is listed exactly where the latch is set and the point is not suppressed. -/
theorem relistAll_fall (hy : lookup n e.net.points = some y) (hl : CondKind.rateOfFall ∈ l) :
    fallIsListed n (e.relistAll n l).net = (y.latch && !y.suppressed) := by
  obtain ⟨z, hz, hlisted, -⟩ := relistAll_lists hy l
  obtain ⟨z', hz', -, hwanted⟩ := relistAll_record hy l
  obtain rfl := Option.some.inj (hz.symm.trans hz')
  rw [fallIsListed, hz]
  exact (hlisted _ hl).trans (hwanted .rateOfFall)

/-! ### Suppression raises no fall -/

theorem suppressPoint_pointsAndOutages (n : Nat) (e : Event) :
    PointsAndOutages e.net (e.suppressPoint true n).net := by
  unfold Event.suppressPoint
  split
  · next x d hx _ =>
    dsimp only
    split
    · exact .refl _
    · have hfall : fallIsListed n ((e.point n fun y => { y with suppressed := true }).relist n).net = false := by
        refine (relistAll_fall (l := pointKinds) (point_lookup_same _ hx) (by decide)).trans ?_
        simp
      rw [hfall]
      exact (point_pointsAndOutages n _ e).trans (relistAll_pointsAndOutages n pointKinds _)
  · exact .refl _

theorem suppressPoints_pointsAndOutages (l : List Nat) (e : Event) :
    PointsAndOutages e.net (Event.suppressPoints true l e).net := by
  induction l generalizing e with
  | nil => exact .refl _
  | cons n t ih => exact (suppressPoint_pointsAndOutages n e).trans (ih _)

/-! ### The Outage Table's answer (R98, R99, R104, R125) -/

theorem outageQuietly_pointsAndOutages (n : Nat) (f : Outage → Outage) (e : Event) :
    PointsAndOutages e.net (e.outageQuietly n f).net := ⟨e.net.points, _, rfl⟩

theorem outage_pointsAndOutages (n : Nat) (f : Outage → Outage) (e : Event) :
    PointsAndOutages e.net (e.outage n f).net := by
  rw [outage_net]
  exact outageQuietly_pointsAndOutages n f e

theorem ruleActive_pointsAndOutages (n : Nat) (e : Event) : PointsAndOutages e.net (e.ruleActive n).net := by
  unfold Event.ruleActive
  split
  · exact .refl _
  · split
    · exact outage_pointsAndOutages n _ e
    · exact .refl _

theorem setRelapse_pointsAndOutages (n : Nat) (c : Bool) (e : Event) :
    PointsAndOutages e.net (e.setRelapse n c).net := by
  unfold Event.setRelapse
  split
  · exact .refl _
  · split
    · exact .refl _
    · exact outageQuietly_pointsAndOutages n _ e

theorem relapse_pointsAndOutages (n : Nat) (e : Event) : PointsAndOutages e.net (e.relapse n).net := by
  unfold Event.relapse
  split
  · exact .refl _
  · split
    · exact ((outage_pointsAndOutages n _ e).trans (setRelapse_pointsAndOutages n true _)).trans
        (suppressPoints_pointsAndOutages _ _)
    · exact .refl _

theorem tellOutages_pointsAndOutages (d : PointDef) (x y : Point) (e : Event) :
    PointsAndOutages e.net (tellOutages d x y e).net := by
  unfold tellOutages Event.pointReport
  split
  · exact .refl _
  · split
    · exact .refl _
    · split
      · exact .refl _
      · split
        · exact ruleActive_pointsAndOutages _ e
        · exact .refl _
      · split
        · exact .refl _
        · exact outageQuietly_pointsAndOutages _ _ e
      · split
        · exact relapse_pointsAndOutages _ e
        · exact .refl _

/-! ### The source of an outlet point (R39, R126) -/

theorem outlet_none (h : outletSource e.image n = none) (low : Bool) : e.outlet n low = e := by
  unfold Event.outlet
  rw [h]

/-- An outlet's report writes one source; the engine counts what it changes. -/
theorem outlet_engineOnly (n : Nat) (low : Bool) (e : Event) :
    ∃ srcs, EngineOnly { e.net with sources := srcs } (e.outlet n low).net := by
  have hsame : ∃ srcs, EngineOnly { e.net with sources := srcs } e.net := ⟨e.net.sources, rfl⟩
  unfold Event.outlet
  split
  · exact hsame
  · next k _ =>
    cases hz : lookup k e.net.sources with
    | none =>
      have hstays : (e.source k fun y => { y with outletLow := low }) = e := by simp [Event.source, hz]
      rw [hstays]
      exact hsame
    | some z =>
      rw [source_eq hz]
      exact ⟨_, sourceNet_engineOnly ..⟩

theorem outlet_record {w : Source} {low : Bool} (h : outletSource e.image n = some k)
    (hw : lookup k e.net.sources = some w) : lookup k (e.outlet n low).net.sources =
      some { w with outletLow := low, live := !w.tripped && !low && !w.out } := by
  unfold Event.outlet
  rw [h]
  dsimp only
  rw [source_eq hw]
  have hsources := congrArg Net.sources (sourceNet_engineOnly k
    { w with outletLow := low, live := liveness { w with outletLow := low } }
    (liveness { w with outletLow := low } != w.live) e.net)
  exact (congrArg (lookup k) hsources).trans (lookup_put_same ..)

/-! ### The calls of an onset (R127, R145) -/

/-- The section's ODOUR calls are at grade 1, or are still to be upgraded. -/
def UpgradedBut (k : Nat) (l : List Nat) (t : Table Call) : Prop :=
  ∀ c ∈ t, c.2.kind = .odour → c.2.sect = k → c.2.grade ≤ 1 ∨ c.2.number ∈ l

theorem mem_mapTable {α β : Type} {f : Nat → α → β} {t : Table α} {x : Nat × β} :
    x ∈ mapTable f t ↔ ∃ y ∈ t, x = (y.1, f y.1 y.2) := by
  induction t with
  | nil => simp [mapTable]
  | cons y t ih => simp [mapTable, ih]

theorem callQuietly_upgraded {t : List Nat} {f : Call → Call} (h : UpgradedBut k t e.net.calls)
    (hf : ∀ c, (f c).kind = c.kind ∧ (f c).sect = c.sect ∧ (f c).grade = c.grade ∧ (f c).number = c.number) :
    UpgradedBut k t (e.callQuietly n f).net.calls := by
  intro c hc hkind hsect
  obtain ⟨⟨i, y⟩, hy, rfl⟩ := mem_mapTable.1 hc
  obtain ⟨hk, hs, hg, hn⟩ := hf y
  dsimp only at hkind hsect ⊢
  split at hkind
  · next hnum =>
    rw [if_pos hnum] at hsect ⊢
    rw [hg, hn]
    exact h _ hy (hk ▸ hkind) (hs ▸ hsect)
  · next hnum =>
    rw [if_neg hnum] at hsect ⊢
    exact h _ hy hkind hsect

theorem expireIfDue_upgraded {t : List Nat} (h : UpgradedBut k t e.net.calls) :
    UpgradedBut k t (e.expireIfDue n).net.calls := by
  unfold Event.expireIfDue
  split
  · exact h
  · split
    · exact h
    · next st _ =>
      split
      · unfold Event.expire
        split
        · exact h
        · exact callQuietly_upgraded
            (f := fun y => { setOverdue true y st with realarm := (paramsOf e.image).realarm }) h
            fun c => by cases st <;> exact ⟨rfl, rfl, rfl, rfl⟩
      · exact h

theorem callNumbered_of_mem {c : Nat × Call} (h : e.Tabled) (hc : c ∈ e.net.calls) :
    callNumbered c.2.number e.net.calls = some c :=
  callNumbered_of_lookup (Net.Tabled.callNumbers h) (lookup_of_mem (Net.Tabled.calls h).1 hc)

theorem upgraded_fields (m : Image) (g : Nat) (c : Call) : (upgraded m g c).kind = c.kind
    ∧ (upgraded m g c).sect = c.sect ∧ (upgraded m g c).grade = g ∧ (upgraded m g c).number = c.number := by
  unfold upgraded
  split
  · exact ⟨rfl, rfl, rfl, rfl⟩
  · next st _ => cases st <;> exact ⟨rfl, rfl, rfl, rfl⟩

theorem upgrade_upgraded {t : List Nat} (ht : e.Tabled) (h : UpgradedBut k (n :: t) e.net.calls) :
    UpgradedBut k t (e.upgrade 1 n).net.calls := by
  have hrest {c : Nat × Call} (hc : c ∈ e.net.calls) (hkind : c.2.kind = .odour) (hsect : c.2.sect = k)
      (hne : c.2.number = n → c.2.grade ≤ 1) : c.2.grade ≤ 1 ∨ c.2.number ∈ t := by
    rcases h c hc hkind hsect with hg | hn
    · exact .inl hg
    · exact (List.mem_cons.1 hn).imp hne id
  unfold Event.upgrade
  split
  · next hnone =>
    refine fun c hc hkind hsect => hrest hc hkind hsect fun hn => ?_
    have hfound := callNumbered_of_mem ht hc
    rw [hn, hnone] at hfound
    cases hfound
  · next i c0 hfound =>
    split
    · refine expireIfDue_upgraded (Event.markCall_keeps (P := fun a => UpgradedBut k t a.calls) n _ ?_)
      intro c hc hkind hsect
      obtain ⟨⟨j, y⟩, hy, rfl⟩ := mem_mapTable.1 hc
      obtain ⟨hk, hs, hg, hn⟩ := upgraded_fields e.image 1 y
      dsimp only at hkind hsect ⊢
      split at hkind
      · next hnum =>
        rw [if_pos hnum, hg]
        exact .inl le_rfl
      · next hnum =>
        rw [if_neg hnum] at hsect ⊢
        exact hrest hy hkind hsect fun hn => absurd hn hnum
    · next hgrade =>
      refine fun c hc hkind hsect => hrest hc hkind hsect fun hn => ?_
      have hsame := callNumbered_of_mem ht hc
      rw [hn, hfound] at hsame
      obtain rfl := Option.some.inj hsame
      exact Nat.le_of_not_lt hgrade

theorem upgrades_upgraded {t : List Nat} (ht : e.Tabled) (h : UpgradedBut k t e.net.calls) :
    UpgradedBut k [] (Event.upgrades 1 t e).net.calls := by
  induction t generalizing e with
  | nil => exact h
  | cons n t ih => exact ih ht.upgrade (upgrade_upgraded ht h)

/-- After an onset every ODOUR call of the section is at grade 1 (R145). -/
theorem fallOnset_upgraded (ht : e.Tabled) : ∀ c ∈ (e.fallOnset k).net.calls, c.2.kind = .odour → c.2.sect = k →
    c.2.grade ≤ 1 := by
  have hstart : UpgradedBut k (odourCalls k e.net) e.net.calls := fun c hc hkind hsect =>
    .inr ((mem_callsWhere (f := fun c => c.kind == .odour && c.sect == k) (Net.Tabled.callNumbers ht)
      (lookup_of_mem (Net.Tabled.calls ht).1 hc)).2 (by simp [hkind, hsect]))
  intro c hc hkind hsect
  exact (upgrades_upgraded ht hstart c hc hkind hsect).resolve_right (List.not_mem_nil)

/-! ### The Outage Table's answer, state by state -/

/-- Are the two bands and freshnesses of a report the same? -/
def ShownAlike (x y : Point) : Prop := x.band = y.band ∧ x.fresh = y.fresh

/-- Does a report tell of a point that leaves LOWLOW, or goes stale? -/
def LeavesLow (x y : Point) : Prop :=
  (isFreshLow x = true ∧ isFreshLow y = false) ∨ (x.fresh = true ∧ y.fresh = false)

theorem leaves_of_same (h : ShownAlike x y) : ¬ LeavesLow x y := by
  obtain ⟨hband, hfresh⟩ := h
  simp [LeavesLow, isFreshLow, hband, hfresh]

theorem tellOutages_same (h : ShownAlike x y) : tellOutages d x y e = e := if_pos h

theorem tellOutages_differs (h : ¬ ShownAlike x y) : tellOutages d x y e =
    e.pointReport d.sect (isFreshLow y && !isFreshLow x) ((isFreshLow x && !isFreshLow y) || (x.fresh && !y.fresh)) :=
  if_neg h

theorem tellOutages_none (h : outageOf d.sect e.net.outages = none) : tellOutages d x y e = e := by
  unfold tellOutages Event.pointReport
  rw [h]
  exact ite_self e

section
variable (ho : outageOf d.sect e.net.outages = some o)
include ho

theorem tellOutages_declared (hs : o.state = .declared) : tellOutages d x y e = e := by
  simp only [tellOutages, Event.pointReport, ho, hs]
  exact ite_self e

theorem tellOutages_active (hs : o.state = .active) :
    (LeavesLow x y → tellOutages d x y e = e.ruleActive o.number) ∧ (¬ LeavesLow x y → tellOutages d x y e = e) := by
  by_cases hsame : ShownAlike x y
  · exact ⟨fun h => absurd h (leaves_of_same hsame), fun _ => tellOutages_same hsame⟩
  · have htold : tellOutages d x y e =
        if (isFreshLow x && !isFreshLow y) || (x.fresh && !y.fresh) then e.ruleActive o.number else e := by
      rw [tellOutages_differs hsame]
      simp only [Event.pointReport, ho, hs]
    rw [htold]
    exact ⟨fun h => if_pos (by simpa [LeavesLow] using h), fun h => if_neg (by simpa [LeavesLow] using h)⟩

theorem tellOutages_recharging (hs : o.state = .recharging) (hsame : ¬ ShownAlike x y) : tellOutages d x y e =
    if qualifying e.image e.net d.sect then e
    else e.outageQuietly o.number (reloadHold d.sect (paramsOf e.image).rechargeHold) := by
  rw [tellOutages_differs hsame]
  simp only [Event.pointReport, ho, hs]

theorem tellOutages_relighting (hs : o.state = .relighting) :
    (isFreshLow x = false ∧ isFreshLow y = true → tellOutages d x y e = e.relapse o.number)
      ∧ (¬ (isFreshLow x = false ∧ isFreshLow y = true) → tellOutages d x y e = e) := by
  by_cases hsame : ShownAlike x y
  · refine ⟨fun h => ?_, fun _ => tellOutages_same hsame⟩
    obtain ⟨hband, hfresh⟩ := hsame
    have hlow : isFreshLow x = isFreshLow y := by simp [isFreshLow, hband, hfresh]
    exact absurd (h.1.symm.trans (hlow.trans h.2)) Bool.false_ne_true
  · have htold : tellOutages d x y e = if isFreshLow y && !isFreshLow x then e.relapse o.number else e := by
      rw [tellOutages_differs hsame]
      simp only [Event.pointReport, ho, hs]
    rw [htold]
    exact ⟨fun h => if_pos (by simpa [and_comm] using h), fun h => if_neg (by simpa [and_comm] using h)⟩

end

end Sys2Proof.Machine
end

section
/-!
What a sample or a staleness expiry tells the neighbours (O50): one new record of a point, and its reports in turn.
-/

namespace Sys2Proof.Machine

variable {a b : Net} {e : Event} {m : Image} {n k pt : Nat} {o : Outage} {l : List CondKind} {x y z : Point}
  {d : PointDef} {s : State}

/-! ### A point's reports read its band, freshness and latch alone -/

theorem ReportsReach.ofCore (hcore : z.core = y.core) (h : ReportsReach m pt d x y a b) :
    ReportsReach m pt d x z a b := by
  have hband : z.band = y.band := (congrArg Point.band hcore :)
  have hfresh : z.fresh = y.fresh := (congrArg Point.fresh hcore :)
  have hlatch : z.latch = y.latch := (congrArg Point.latch hcore :)
  have hlow : isFreshLow z = isFreshLow y := by simp [isFreshLow, hband, hfresh]
  constructor
  case quiet => simpa only [hband, hfresh] using h.quiet
  case active => simpa only [hlow, hfresh] using h.active
  case recharging => simpa only [hband, hfresh] using h.recharging
  case relighting => simpa only [hlow] using h.relighting
  case declared => exact h.declared
  case noOutlet => simpa only [hlow] using h.noOutlet
  case outlet => simpa only [hlow] using h.outlet
  case onset => simpa only [hlatch] using h.onset
  case noOnset => simpa only [hlatch] using h.noOnset

/-! ### The rule of ACTIVE at a report -/

theorem ruleActive_turn (ho : outageAt n e.net = some o) (hs : o.state = .active) :
    ((∀ k ∈ memberSections o, supplyAt e.net k = .supplied ∧ hasFreshLow e.image e.net k = false) →
      outageAt n (e.ruleActive n).net =
        some { o with state := .recharging, members := withHolds (paramsOf e.image).rechargeHold o })
    ∧ (¬ (∀ k ∈ memberSections o, supplyAt e.net k = .supplied ∧ hasFreshLow e.image e.net k = false) →
      e.ruleActive n = e) := by
  simp only [Event.ruleActive, ho, hs, true_and]
  constructor
  · intro hready
    rw [if_pos (by simpa using hready), outage_net]
    exact outageAt_change (f := fun x =>
      { x with state := .recharging, members := loadHolds (paramsOf e.image).rechargeHold x.members }) (fun _ => rfl) ho
  · exact fun hready => if_neg (by simpa using hready)

/-! ### After the Outage Table's answer -/

/-- The reports to the Source Monitor and the Call Register leave points and outages. -/
structure ToldOn (q b : Net) : Prop where
  points : b.points = q.points
  outages : b.outages = q.outages
  lastOutage : b.lastOutage = q.lastOutage

theorem outlet_toldOn (n : Nat) (low : Bool) (e : Event) :
    ToldOn e.net (e.outlet n low).net ∧ KeepsCalls e.net (e.outlet n low).net := by
  obtain ⟨srcs, hengine⟩ := outlet_engineOnly n low e
  rw [hengine]
  exact ⟨⟨rfl, rfl, rfl⟩, rfl, rfl⟩

theorem lastOutage_closed (c : Nat) : CallClosed (fun a => a.lastOutage = c) where
  plans _ _ h := h
  calls _ _ h := h
  lastCall _ _ h := h
  sections _ _ _ _ h := h
  outages _ _ h := h

theorem pointsCall_closed (t : Table Point) : CallClosed (fun a => a.points = t) where
  plans _ _ h := h
  calls _ _ h := h
  lastCall _ _ h := h
  sections _ _ _ _ h := h
  outages _ _ h := h

theorem fallOnset_toldOn (k : Nat) (e : Event) : ToldOn e.net (e.fallOnset k).net where
  points := Event.fallOnset_keeps (pointsCall_closed _) k e rfl
  outages := (upgrades_leavesOutages 1 _ e).records
  lastOutage := Event.fallOnset_keeps (lastOutage_closed _) k e rfl

/-- The report to the Source Monitor, where the point enters or leaves a fresh LOWLOW (R126). -/
def Event.tellSource (pt : Nat) (x y : Point) (e : Event) : Event :=
  if isFreshLow x = isFreshLow y then e else e.outlet pt (isFreshLow y)

theorem tellSource_toldOn (pt : Nat) (x y : Point) (e : Event) :
    ToldOn e.net (e.tellSource pt x y).net ∧ KeepsCalls e.net (e.tellSource pt x y).net := by
  unfold Event.tellSource
  split
  · exact ⟨⟨rfl, rfl, rfl⟩, rfl, rfl⟩
  · exact outlet_toldOn pt _ e

theorem tellSource_tabled (ht : e.Tabled) : (e.tellSource pt x y).Tabled := by
  unfold Event.tellSource
  split
  · exact ht
  · exact ht.outlet

/-- The report to the Call Register, where there is an onset (R127). -/
def Event.tellCalls (onset : Bool) (k : Nat) (e : Event) : Event := if onset then e.fallOnset k else e

theorem tellCalls_toldOn (onset : Bool) (k : Nat) (e : Event) :
    ToldOn e.net (e.tellCalls onset k).net ∧ (e.tellCalls onset k).net.sources = e.net.sources := by
  cases onset
  · exact ⟨⟨rfl, rfl, rfl⟩, rfl⟩
  · exact ⟨fallOnset_toldOn k e, fallOnset_sources k e⟩

/-! ### One new record of a point -/

/-- The event once the point has its new record and its conditions are relisted. -/
def Event.relisted (l : List CondKind) (pt : Nat) (y : Point) (e : Event) : Event :=
  (e.point pt fun _ => y).relistAll pt l

theorem repoint_eq (l : List CondKind) (pt : Nat) (d : PointDef) (x y : Point) (e : Event) :
    e.repoint l pt d x y = ((tellOutages d x y (e.relisted l pt y)).tellSource pt x y).tellCalls
      (fallIsListed pt (e.relisted l pt y).net && !x.fallListed) d.sect := pointReports_eq pt

theorem tellOutages_tabled (ht : e.Tabled) : (tellOutages d x y e).Tabled := by
  unfold tellOutages
  split
  · exact ht
  · exact ht.pointReport

/-- The event after a point's new record, with the outages, sections, sources and calls of `a`. -/
structure Reporting (m : Image) (a : Net) (r : Event) : Prop where
  image : r.image = m
  tabled : r.Tabled
  only : PointsAndOutages a r.net
  outages : r.net.outages = a.outages

theorem relisted_reporting (ht : e.Tabled) (l : List CondKind) (pt : Nat) (y : Point) :
    Reporting e.image e.net (e.relisted l pt y) where
  image := (relistAll_sources pt l _).2
  tabled := Event.Tabled.relistAll ht.point
  only := (point_pointsAndOutages pt _ e).trans (relistAll_pointsAndOutages pt l _)
  outages := (relistAll_leavesOutages pt l (e.point pt fun _ => y)).records

section
variable {r : Event} (h : Reporting m a r)
include h

theorem Reporting.outageOf (k : Nat) : outageOf k r.net.outages = Machine.outageOf k a.outages := by rw [h.outages]

theorem Reporting.record (ho : Machine.outageOf k a.outages = some o) : outageAt o.number r.net = some o :=
  (outageOf_holds (Net.Tabled.outageNumbers h.tabled) ((h.outageOf k).trans ho)).1

theorem Reporting.supply (k : Nat) : supplyAt r.net k = supplyAt a k := by
  unfold supplyAt
  rw [h.only.sections]

/-- What the Outage Table does with a report, as the end of the event shows it (R98, R99, R104, R125). -/
theorem tellOutages_reaches (htold : ToldOn (tellOutages d x y r).net b) :
    ((ShownAlike x y ∨ Machine.outageOf d.sect a.outages = none) → KeepsOutages a b)
    ∧ (∀ o, Machine.outageOf d.sect a.outages = some o →
      (o.state = .active →
        let ready := ∀ k ∈ memberSections o, supplyAt a k = .supplied ∧ hasFreshLow m b k = false
        (LeavesLow x y ∧ ready → outageAt o.number b =
          some { o with state := .recharging, members := withHolds (paramsOf m).rechargeHold o })
        ∧ (¬ (LeavesLow x y ∧ ready) → KeepsOutages a b))
      ∧ (o.state = .recharging → ¬ ShownAlike x y → (qualifying m b d.sect = true → KeepsOutages a b)
        ∧ (qualifying m b d.sect = false → outageAt o.number b =
          some (reloadHold d.sect (paramsOf m).rechargeHold o)))
      ∧ (o.state = .relighting →
        (isFreshLow x = false ∧ isFreshLow y = true → outageAt o.number b = some o.relapsed)
        ∧ (¬ (isFreshLow x = false ∧ isFreshLow y = true) → KeepsOutages a b))
      ∧ (o.state = .declared → KeepsOutages a b)) := by
  have hkeep (hq : tellOutages d x y r = r) : KeepsOutages a b := by
    rw [hq] at htold
    exact ⟨htold.outages.trans h.outages, htold.lastOutage.trans h.only.lastOutage⟩
  have hat (j : Nat) : outageAt j b = outageAt j (tellOutages d x y r).net := by
    unfold outageAt
    rw [htold.outages]
  have hbands : SameBands r.net b := fun i => by
    rw [htold.points]
    exact tellOutages_keeps (bands_closed r.net).point (fun _ => rfl) i
  refine ⟨fun hquiet => hkeep (hquiet.elim tellOutages_same fun hnone => tellOutages_none ((h.outageOf _).trans hnone)),
    fun o ho => ?_⟩
  have ho' := (h.outageOf d.sect).trans ho
  have hrecord := h.record ho
  refine ⟨fun hs => ?_, fun hs hdiffers => ?_, fun hs => ?_, fun hs => hkeep (tellOutages_declared ho' hs)⟩
  · obtain ⟨hleaves, hstays⟩ := tellOutages_active (x := x) (y := y) ho' hs
    obtain ⟨hturns, hrests⟩ := ruleActive_turn hrecord hs
    simp only [h.supply, h.image, ← hasFreshLow_congr hbands] at hturns hrests
    refine ⟨fun ⟨hl, hready⟩ => ?_, fun hnot => hkeep ?_⟩
    · rw [hat, hleaves hl]
      exact hturns hready
    · by_cases hl : LeavesLow x y
      · rw [hleaves hl]
        exact hrests fun hready => hnot ⟨hl, hready⟩
      · exact hstays hl
  · have htell := tellOutages_recharging ho' hs hdiffers
    rw [h.image, ← qualifying_congr hbands] at htell
    refine ⟨fun hq => hkeep (by rw [htell, if_pos hq]), fun hq => ?_⟩
    rw [hat, htell, if_neg (by simp [hq])]
    exact outageAt_change (f := reloadHold d.sect (paramsOf m).rechargeHold) (fun _ => rfl) hrecord
  · obtain ⟨henters, hstays⟩ := tellOutages_relighting (x := x) (y := y) ho' hs
    refine ⟨fun hlow => ?_, fun hlow => hkeep (hstays hlow)⟩
    rw [hat, henters hlow]
    exact (relapse_is ⟨Net.Tabled.outages h.tabled, hrecord, fun _ hw => nomatch hw⟩ hs).record

/-- What the Source Monitor does with a report (R39, R126). -/
theorem tellSource_reaches :
    ((isFreshLow x = isFreshLow y ∨ outletSource m pt = none) →
      ((tellOutages d x y r).tellSource pt x y).net.sources = a.sources)
    ∧ (∀ k w, isFreshLow x ≠ isFreshLow y → outletSource m pt = some k → lookup k a.sources = some w →
      lookup k ((tellOutages d x y r).tellSource pt x y).net.sources =
        some { w with outletLow := isFreshLow y, live := !w.tripped && !isFreshLow y && !w.out }) := by
  have hsources : (tellOutages d x y r).net.sources = a.sources := tellOutages_sources.trans h.only.sources
  have himage : (tellOutages d x y r).image = m := tellOutages_image.trans h.image
  unfold Event.tellSource
  refine ⟨fun hquiet => ?_, fun k w hlow hk hw => ?_⟩
  · split
    · exact hsources
    · next hlow =>
      rw [outlet_none (by rw [himage]; exact hquiet.resolve_left hlow)]
      exact hsources
  · rw [if_neg hlow]
    exact outlet_record (by rw [himage]; exact hk) (by rw [hsources]; exact hw)

end

/-- What the reports of a point that takes the record `y` reach. -/
theorem repoint_reaches (ht : e.Tabled) (hx : lookup pt e.net.points = some x) (hsame : y.suppressed = x.suppressed)
    (hl : CondKind.rateOfFall ∈ l) : ∃ z, lookup pt (e.repoint l pt d x y).net.points = some z
      ∧ ReportsReach e.image pt d x z e.net (e.repoint l pt d x y).net := by
  have hy : lookup pt (e.point pt fun _ => y).net.points = some y := point_lookup_same _ hx
  have hfall : fallIsListed pt (e.relisted l pt y).net = (y.latch && !x.suppressed) := hsame ▸ relistAll_fall hy hl
  obtain ⟨p, hp, hcore, -⟩ := relistAll_record hy l
  have hr := relisted_reporting ht l pt y
  rw [repoint_eq, hfall]
  rw [show (e.point pt fun _ => y).relistAll pt l = e.relisted l pt y from rfl] at hp
  generalize e.relisted l pt y = r at hr hp ⊢
  have hrecord : (lookup pt (tellOutages d x y r).net.points).map Point.core = some p.core :=
    tellOutages_keeps (coreAt_closed pt p) (by rw [hp]; rfl)
  have hanswer := tellOutages_pointsAndOutages d x y r
  have htabled : (tellOutages d x y r).Tabled := tellOutages_tabled hr.tabled
  obtain ⟨hquiet, houtlet⟩ := tellSource_reaches (pt := pt) (x := x) (y := y) (d := d) hr
  obtain ⟨htoldSource, hcalls⟩ := tellSource_toldOn pt x y (tellOutages d x y r)
  obtain ⟨htoldCalls, hsources⟩ := tellCalls_toldOn (y.latch && !x.suppressed && !x.fallListed) d.sect
    ((tellOutages d x y r).tellSource pt x y)
  have htold : ToldOn (tellOutages d x y r).net (((tellOutages d x y r).tellSource pt x y).tellCalls
      (y.latch && !x.suppressed && !x.fallListed) d.sect).net :=
    ⟨htoldCalls.points.trans htoldSource.points, htoldCalls.outages.trans htoldSource.outages,
      htoldCalls.lastOutage.trans htoldSource.lastOutage⟩
  obtain ⟨hsilent, hstates⟩ := tellOutages_reaches hr htold
  obtain ⟨z, hz, hzcore⟩ := Option.map_eq_some_iff.1 (htold.points ▸ hrecord)
  refine ⟨z, hz, ReportsReach.ofCore (hzcore.trans hcore) ?_⟩
  exact {
    quiet := hsilent
    active := fun o ho hs => (hstates o ho).1 hs
    recharging := fun o ho hs => (hstates o ho).2.1 hs
    relighting := fun o ho hs => (hstates o ho).2.2.1 hs
    declared := fun o ho hs => (hstates o ho).2.2.2 hs
    noOutlet := fun h => hsources.trans (hquiet h)
    outlet := fun k w hlow hk hw => (congrArg (lookup k) hsources).trans (houtlet k w hlow hk hw)
    onset := fun hlatch hsupp hlisted => by
      rw [hlatch, hsupp, hlisted]
      exact fallOnset_upgraded (tellSource_tabled htabled)
    noOnset := fun hnone => by
      have honset : (y.latch && !x.suppressed && !x.fallListed) = false := by
        rcases hnone with h | h | h <;> simp [h]
      rw [honset]
      have hbefore := (hr.only.trans hanswer).calls
      exact ⟨hcalls.1.trans hbefore.1, hcalls.2.trans hbefore.2⟩ }

/-! ### The commands (R112, R117) -/

/-- The reasons of plans, written at the end of an event, are nothing a report reads. -/
theorem reaches_atEnd {c : Net} {plans : Table Plan} (hc : c = { b with plans := plans })
    (h : ∃ y, lookup pt b.points = some y ∧ ReportsReach m pt d x y a b) :
    ∃ y, lookup pt c.points = some y ∧ ReportsReach m pt d x y a c := by
  subst hc
  obtain ⟨y, hy, hreach⟩ := h
  exact ⟨y, hy, { hreach with }⟩

/-- A single entry that is taken gives its point the sampled record. -/
theorem sample_taken {t : Sample} (hx : lookup t.point e.net.points = some x)
    (hd : lookup t.point e.image.points = some d) (hage : t.age < d.period)
    (horder : x.lastSample + t.age ≤ e.uptime.toNat) : e.sample t =
      e.repoint pointKinds t.point d x (sampled d t.raw t.age (e.uptime.toNat - t.age) x) := by
  have hjudge : judge e.image e.uptime e.net t = .taken := by
    simp only [judge, hx, hd]
    rw [if_neg (Nat.not_le.2 hage), if_neg (Nat.not_lt.2 horder)]
  unfold Event.sample
  rw [hjudge, hx, hd]

theorem persist_suppressed (p : Nat) (c : Band) (x : Point) : (persist p c x).suppressed = x.suppressed := by
  unfold persist
  split
  · rfl
  · generalize (if x.candidate = some c then x.agreement + 1 else 1) = agreed
    dsimp only
    split <;> rfl

theorem sampled_suppressed (d : PointDef) (raw age time : Nat) (x : Point) :
    (sampled d raw age time x).suppressed = x.suppressed := persist_suppressed ..

/-- A batch of one entry: its event, and the state after the response. -/
theorem sampleBatch_runs {p : PortId} {tag hi lo age pt : Byte} (hsend : CanSend [.telemetry] p s) :
    ∃ plans t, exec (.sampleBatch p tag [pt, hi, lo, age]) s = .next t ∧ t.net =
      { ((Event.start s).sample { point := pt.toNat, raw := nat16 hi lo, age := age.toNat }).net with
        plans := plans } := by
  have hreasons (e : Event) : ∃ plans, writeReasons e.plans e.net = { e.net with plans := plans } :=
    writeReasons_keeps (P := fun n => ∃ plans, n = { e.net with plans := plans })
      ⟨fun _ plans ⟨_, hn⟩ => ⟨plans, by rw [hn]⟩⟩ _ _ ⟨_, rfl⟩
  obtain ⟨plans, hplans⟩ :=
    hreasons ((Event.start s).sample { point := pt.toNat, raw := nat16 hi lo, age := age.toNat })
  refine ⟨plans, _, rfl, ?_⟩
  rw [request_canSend .sample p tag _ s _ hsend (by decide)]
  exact hplans

theorem stalenessExpiry_runs (hrun : Running s) (hx : lookup pt s.net.points = some x)
    (hd : lookup pt s.cfu.image.points = some d) (htimer : x.timer = 0) (hlisted : x.staleListed = false) :
    exec (.stalenessExpiry pt) s = .next (event (fun e => e.staleIfDue pt) s)
      ∧ (Event.start s).staleIfDue pt = (Event.start s).repoint staleKinds pt d x (staled x) := by
  constructor
  · show Host.Outcome.next (whenRunning _ s) = _
    rw [whenRunning_running hrun]
  · unfold Event.staleIfDue Event.stale
    simp only [show (Event.start s).net = s.net from rfl, show (Event.start s).image = s.cfu.image from rfl, hx, hd,
      htimer, hlisted, and_self, if_true]

/-- Settles O50: a taken sample and an expired timer each give a point a new record, whose reports go out. -/
theorem pointReportsReachTheirTakers : Obligations.PointReportsReachTheirTakers := by
  refine ⟨fun s p tag pt hi lo age x d h hsend hx hd hage horder => ?_, fun s pt x d h hrun hx hd htimer hlisted => ?_⟩
  · obtain ⟨plans, t, hexec, hnet⟩ := sampleBatch_runs (tag := tag) (hi := hi) (lo := lo) (age := age) (pt := pt) hsend
    rw [sample_taken (e := Event.start s) hx hd hage horder] at hnet
    obtain ⟨y, hy, hreach⟩ := reaches_atEnd hnet (repoint_reaches (l := pointKinds) (d := d) h.start hx
      (sampled_suppressed d (nat16 hi lo) age.toNat (s.tbu.uptime.toNat - age.toNat) x) (by decide))
    exact ⟨t, y, hexec, hy, hreach⟩
  · obtain ⟨hexec, hstale⟩ := stalenessExpiry_runs hrun hx hd htimer hlisted
    obtain ⟨plans, hnet⟩ := event_net (fun e => e.staleIfDue pt) s
    rw [hstale] at hnet
    obtain ⟨y, hy, hreach⟩ := reaches_atEnd hnet
      (repoint_reaches (l := staleKinds) (d := d) (y := staled x) h.start hx rfl (by decide))
    exact ⟨_, y, hexec, hy, hreach⟩

end Sys2Proof.Machine
end
